-- ==== Sys2Proof/Word.lean ====
section
/-! DEFINITION. The machine's word and byte types and the ranges of its numbered parts. -/

namespace Sys2Proof

/-- One 32-bit register of the AK7216 (R10). -/
abbrev Word := BitVec 32

/-- One byte of a memory, packet, frame or message. -/
abbrev Byte := BitVec 8

/-- A master ID of the interconnect, five bits (R14, R30). -/
abbrev Master := Fin 32

/-- Ticks of the 10 ns TIMEBASE since the last release of POR or WARM reset. -/
abbrev Ticks := Nat

/-- The bytes of a number, least significant first (R9). -/
def bytesLE : Nat → Nat → List Byte
  | 0, _ => []
  | k + 1, v => BitVec.ofNat 8 v :: bytesLE k (v / 256)

/-- The number a little-endian byte string spells (R9). -/
def ofBytesLE : List Byte → Nat
  | [] => 0
  | b :: bs => b.toNat + 256 * ofBytesLE bs

/-- The number a big-endian byte string spells. -/
def ofBytesBE (bs : List Byte) : Nat := bs.foldl (fun a b => 256 * a + b.toNat) 0

/-- A number read as a 32-bit two's complement value. -/
def signed32 (v : Nat) : Int := (BitVec.ofNat 32 v).toInt

/-- An integer as the 32-bit two's complement pattern that a register holds. -/
def unsigned32 (v : Int) : Nat := (BitVec.ofInt 32 v).toNat

/-- An integer limited to a closed range. -/
def clampInt (lo hi v : Int) : Int := if v < lo then lo else if hi < v then hi else v

/-- A Bool as the bit 0 or 1. -/
def bit (b : Bool) : Nat := if b then 1 else 0

/-- Bit k of a number. -/
def nbit (v k : Nat) : Bool := Nat.testBit v k

/-- Bits lo to lo + w - 1 of a number. -/
def nfield (v lo w : Nat) : Nat := (v / 2 ^ lo) % 2 ^ w

/-- A number with bit k set or cleared. -/
def nsetBit (v k : Nat) (b : Bool) : Nat :=
  if nbit v k = b then v else if b then v + 2 ^ k else v - 2 ^ k

/-- The number whose bits below `n` are the values of `p`. -/
def nmask (n : Nat) (p : Nat → Bool) : Nat :=
  match n with
  | 0 => 0
  | k + 1 => nmask k p + (if p k then 2 ^ k else 0)

end Sys2Proof
end

