-- ==== Sys2Proof/Machine/Store.lean ====
section
/-! DEFINITION. Sparse stores: a list of number and value pairs in one canonical form. Keys rise strictly and no
entry equals what an unlisted key reads as, so that equal contents are equal lists. Registers, SRAM tables, DRAM,
the fuse array and the per-unit records of the machine are all held in this form. -/

namespace Sys2Proof.Machine

/-- Contents of a memory, register file or table that list only what differs from the default. -/
abbrev Store (V : Type) := List (Nat × V)

/-- The value at key `k`; an unlisted key reads as `d k`. -/
def Store.get {V : Type} (d : Nat → V) : Store V → Nat → V
  | [], k => d k
  | (j, v) :: m, k => if j = k then v else Store.get d m k

/-- The store without an entry for `k`. -/
def Store.erase {V : Type} : Store V → Nat → Store V
  | [], _ => []
  | (j, v) :: m, k => if j = k then Store.erase m k else (j, v) :: Store.erase m k

/-- The store with an entry `v` for `k` at its place. -/
def Store.insert {V : Type} : Store V → Nat → V → Store V
  | [], k, v => [(k, v)]
  | (j, w) :: m, k, v =>
    if j < k then (j, w) :: Store.insert m k v
    else if j = k then (k, v) :: m
    else (k, v) :: (j, w) :: m

/-- The store after writing `v` at `k`; writing what an unlisted `k` reads as removes the entry. -/
def Store.put {V : Type} [DecidableEq V] (d : Nat → V) (m : Store V) (k : Nat) (v : V) : Store V :=
  if v = d k then m.erase k else m.insert k v

/-- Change the value at `k` by `f`. -/
def Store.upd {V : Type} [DecidableEq V] (d : Nat → V) (m : Store V) (k : Nat) (f : V → V) : Store V :=
  m.put d k (f (m.get d k))

/-- The keys of a store rise strictly, all of them above `lo`. -/
def Store.sortedFrom {V : Type} : Option Nat → Store V → Bool
  | _, [] => true
  | lo, (j, _) :: m => (match lo with | none => true | some l => decide (l < j)) && Store.sortedFrom (some j) m

/-- The canonical form of a store. -/
def Store.wf {V : Type} [DecidableEq V] (d : Nat → V) (m : Store V) : Bool :=
  Store.sortedFrom none m && m.all (fun p => decide (p.2 ≠ d p.1))

/-- The store that holds `f k` at each of the keys `base` to `base + n - 1` and nothing else. -/
def Store.ofFn {V : Type} [DecidableEq V] (d : Nat → V) (base : Nat) (f : Nat → V) : Nat → Store V
  | 0 => []
  | n + 1 => (Store.ofFn d base f n).put d (base + n) (f (base + n))

/-- Write a list of values at consecutive keys. -/
def Store.putList {V : Type} [DecidableEq V] (d : Nat → V) (m : Store V) (k : Nat) : List V → Store V
  | [] => m
  | v :: vs => (m.put d k v).putList d (k + 1) vs

/-- The values at `n` consecutive keys. -/
def Store.getList {V : Type} (d : Nat → V) (m : Store V) (k : Nat) : Nat → List V
  | 0 => []
  | n + 1 => m.get d k :: m.getList d (k + 1) n

end Sys2Proof.Machine
end

