-- ==== Sys2Proof/Machine/BootTypes.lean ====
section
/-! DEFINITION. Records of the fuse array, the boot flash, the security block and the start-up sequence. -/

namespace Sys2Proof.Machine

/-- The training of XLK_D (`linkD`) or XLK_C, with the version word that it reports (R24). -/
structure LinkUp where
  linkD : Bool
  ver : Nat
deriving DecidableEq, Repr

/-- The end of the B-die's self-test, with the version word of XLK_D where it passes (R24, R464). -/
structure BSelftest where
  ok : Bool
  ver : Nat
deriving DecidableEq, Repr

/-- How one copy of a fuse word reads apart from what is burned: the bits that read otherwise at NORMAL and at TIGHT margin
(R433). -/
structure Deviation where
  copy : Nat := 0
  word : Nat := 0
  normal : Nat := 0
  tight : Nat := 0
deriving DecidableEq, Repr

/-- One boot record (R410). -/
structure BootRecord where
  seq : Nat := 0
  bytes : List Byte := []
deriving DecidableEq, Repr

/-- The boot flash: the two firmware areas (empty for none), the installed configuration package with its trial mark, a
lifecycle package waiting for the next start, the boot records of the ring (oldest first), the next SEQ and the newest SEQ
copied into the event log. -/
structure Flash where
  fw0 : List Byte := []
  fw1 : List Byte := []
  cfg : List Byte := []
  trial : Bool := false
  life : List Byte := []
  records : List BootRecord := []
  nextSeq : Nat := 1
  copied : Nat := 0
deriving DecidableEq, Repr

/-- What the module keeps without power: the fuse array, copy `c` of logical word `w` at key 1024·c + w with a 1 for each
burned cell (R430), and the boot flash. -/
structure NonVol where
  fuses : Store Nat := []
  flash : Flash := {}
deriving DecidableEq, Repr

/-- A running OTP operation: its code, the words and bits that it burns in order, OTP_CMD.TARGET as written, and the result
it ends with if the burning succeeds. -/
structure OtpOp where
  op : Nat := 0
  target : Nat := 0
  plan : List (Nat × Nat) := []
  code : Nat := 0
deriving DecidableEq, Repr

/-- A SEC command that runs: OP, KEYSEL, and the tag, source, length and message taken from the registers and SEC_BUF with the command.
`waits`: it has not started, because a signing request of the ledger goes first (R463). -/
structure SecOp where
  op : Nat := 0
  key : Nat := 0
  tag : List Byte := []
  src : Nat := 0
  len : Nat := 0
  buf : List Byte := []
  waits : Bool := false
deriving DecidableEq, Repr

/-- The time points of the start (R464): POR released, PLLs locked, sensed, boot ROM running, firmware running, DRAM
trained, configuration loaded, set up, tested, and the start over. -/
inductive Phase where
  | por | locked | sensed | rom | firmware | dram | config | setup | tested | ended
deriving DecidableEq, Repr

/-- VSYS against the supervisor window (R481): it falls below, rises above, or comes back within and POR is released. -/
inductive Supply where
  | under | above | within
deriving DecidableEq, Repr

/-- How far a reset that does not wait cuts a running OTP operation: the copies of words burned in full, and the bits
burned in the copy after them (R441, R473). -/
structure OtpCut where
  done : Nat := 0
  bits : Nat := 0
deriving DecidableEq, Repr

/-- The start-up sequence and what the device holds in reset: its phase, the holds of POR, NRST_IN_N and a thermal trip,
the CLK_RSTCAUSE bits of the resets that take part in the sequence under way (R474), the service cores released, the firmware area in use and the digest of its package,
a WARM reset that waits for an OTP operation, the debug challenge drawn and the debug unlock since POR, COMM_N low, the PCI
Express link up, THERM_WARN not yet rearmed, a trial configuration loaded, and SAFE-READY reached. -/
structure Boot where
  phase : Phase := .por
  heldPor : Bool := false
  heldPin : Bool := false
  heldHot : Bool := false
  causes : Nat := 0
  svcUp : Bool := false
  area : Nat := 0
  fwDigest : List Byte := []
  rstWaits : Bool := false
  drawn : Bool := false
  unlocked : Bool := false
  commLow : Bool := false
  pcieUp : Bool := false
  thermFired : Bool := false
  trial : Bool := false
  ready : Bool := false
deriving DecidableEq, Repr

/-- What the OTP block latches at sensing (R436, R437): the voted words, the words that failed, the newest slot with its
validity, and whether KEY and whether ROT has FAILED. -/
structure Latches where
  words : Store Nat := []
  failed : List Nat := []
  newest : Nat := 0
  newestOk : Bool := false
  newestDigest : List Byte := []
  keyFailed : Bool := false
  rotFailed : Bool := false
deriving DecidableEq, Repr

end Sys2Proof.Machine
end

