-- ==== Sys2Proof/Machine/Check.lean ====
section
/-! DEFINITION. Check values: the parameter model of R352 with any width from 3 to 32. -/

namespace Sys2Proof.Machine

/-- The parameters of a check value (R352). -/
structure CrcParams where
  width : Nat := 32
  poly : Nat := 0
  init : Nat := 0
  xorOut : Nat := 0
  refIn : Bool := false
  refOut : Bool := false
deriving DecidableEq, Repr

/-- Reverse the lowest `w` bits of a number. -/
def reflectBits : Nat → Nat → Nat
  | 0, _ => 0
  | w + 1, v => (v % 2) * 2 ^ w + reflectBits w (v / 2)

/-- Shift one message bit into the register. -/
def crcBit (p : CrcParams) (reg : Nat) (b : Bool) : Nat :=
  let top := Nat.testBit reg (p.width - 1) != b
  let r := (2 * reg) % 2 ^ p.width
  if top then Nat.xor r (p.poly % 2 ^ p.width) else r

/-- Shift the bits of a byte, bit 7 first, into the register. -/
def crcBits (p : CrcParams) (v : Nat) : Nat → Nat → Nat
  | 0, reg => reg
  | k + 1, reg => crcBits p v k (crcBit p reg (Nat.testBit v k))

/-- Feed one byte into the register. -/
def crcByte (p : CrcParams) (reg : Nat) (b : Byte) : Nat :=
  crcBits p (if p.refIn then reflectBits 8 b.toNat else b.toNat) 8 reg

/-- Feed bytes into the register. -/
def crcFeed (p : CrcParams) (reg : Nat) (bs : List Byte) : Nat := bs.foldl (crcByte p) reg

/-- The result that a register value gives. -/
def crcFinal (p : CrcParams) (reg : Nat) : Nat :=
  Nat.xor (if p.refOut then reflectBits p.width reg else reg) (p.xorOut % 2 ^ p.width)

/-- The check value of a byte string. -/
def crcOf (p : CrcParams) (bs : List Byte) : Nat := crcFinal p (crcFeed p (p.init % 2 ^ p.width) bs)

/-- The bytes that a check value occupies (R59). -/
def crcBytes (p : CrcParams) : Nat := (p.width + 7) / 8

/-- The nine ASCII bytes "123456789" (CRC_ID). -/
def checkString : List Byte := [0x31, 0x32, 0x33, 0x34, 0x35, 0x36, 0x37, 0x38, 0x39]

/-- The CRC-32 of the exchange frame and of the cross links (R181). -/
def crc32Params : CrcParams :=
  { width := 32, poly := 0x04C11DB7, init := 0xFFFFFFFF, xorOut := 0xFFFFFFFF, refIn := true, refOut := true }

end Sys2Proof.Machine
end

