-- ==== Sys2Proof/Machine/CfgTypes.lean ====
section
/-! DEFINITION. What a configuration package says to the two channels. The spec gives these parameters and their ranges
(R120, R131, R195 to R220 and the chapters of each unit) but not their place in the package body. -/

namespace Sys2Proof.Machine

/-- What an OUTPUT function drives (R214). -/
inductive Target where
  | none
  | so (n : Nat)
  | seo (n : Nat)
  | peerOut (peer bit : Nat)
deriving DecidableEq, Repr

/-- One safety function (R195): common parameters and those of its type. Times are in milliseconds. -/
structure FnCfg where
  type : Nat := 0
  fgrp : Nat := 0
  pair : Nat := 0
  ins : List Nat := []
  disc : Nat := 2
  manual : Bool := true
  ridx : Option Nat := none
  ncno : Bool := false
  tSync : Nat := 500
  lockout : Nat := 0
  zmask : Nat := 0
  tZc : Nat := 1000
  tPlaus : Nat := 200
  tEdm : Nat := 300
  lo : Int := 0
  hi : Int := 0
  hyst : Int := 0
  band : Int := 0
  tBand : Nat := 1000
  zone : Nat := 0
  delay : Nat := 0
  target : Target := .none
  group : Nat := 0
  modeRequest : Bool := false
  setMask : Nat := 0
  settle : Nat := 500
deriving DecidableEq, Repr

/-- Parameters of one lane (R128, R132, R506). -/
structure LaneCfg where
  crc : CrcParams := {}
  egCrc : CrcParams := {}
  p12Shift : Nat := 4
  p12Ok : Bool := true
  ts : Nat := 13334
deriving DecidableEq, Repr

/-- The five B-side parameters of a zone in an envelope set (R131). -/
structure BZone where
  budget : Nat := 0
  k : Nat := 0
  lim : Nat := 0
  cold : Nat := 0
  touch : Nat := 0
deriving DecidableEq, Repr

/-- One digital input in channel B's copy of the package (R235): filter time in 0.1 ms, OSSD tolerance in 10 µs and
test-pulse source. -/
structure DiCfg where
  filt : Nat := 0x1E
  ossd : Nat := 0
  src : Option Nat := none
deriving DecidableEq, Repr

/-- One path of a current-loop input in a package (R281): characteristic, average length, cutoff, process
values at 4 mA and 20 mA, user trim and table. -/
structure CliCfg where
  char : Nat := 0
  avg : Nat := 1
  cut : Nat := 0
  pvlo : Int := 0
  pvhi : Int := 0
  ofs : Int := 0
  gain : Int := 0
  tbl : List Int := []
deriving DecidableEq, Repr

/-- One peer in a package (R415 to R427), with the Pod pair that writes its outputs. -/
structure PeerCfg where
  en : Bool := false
  remote : Nat := 0
  key : Nat := 0
  cycle : Nat := 10
  wd : Nat := 30
  v11 : Bool := true
  pair : Nat := 0
deriving DecidableEq, Repr

/-- A configuration as a package gives it to both channels. Tables are keyed by lane, function, tile, engine or zone;
the B-side zone parameters by 64·set + zone, envelope digests and image places by 16·group + set. `cli` is path P of each CLI and
`cliS` path S. `peakEp` is the value of
CHK_PEAK_EP, the `Own` words are those of POD_OWN_*, and `worst` records for each Pod pair the dirty lines and the µs of
its program's worst cycle (R322). -/
structure PkgConfig where
  tc : Nat := 1
  lanes : Store LaneCfg := []
  fns : Store FnCfg := []
  zmap : Store Nat := []
  groups : Store Nat := []
  tripFn : Store Nat := []
  bZones : Store BZone := []
  envDigest : Store (List Byte) := []
  envSrc : Store Nat := []
  di : Store DiCfg := []
  dqFilt : Store Nat := []
  tpEn : Nat := 0
  tpW : Nat := 0x32
  tpL : Nat := 0x64
  cli : Store CliCfg := []
  cliS : Store CliCfg := []
  peers : Store PeerCfg := []
  localId : Nat := 0
  peakEp : Nat := 0
  soOwn : Nat := 0xFFFFFFFF
  seoOwn : Nat := 0xFFFFFFFF
  zoneOwn : Store Nat := []
  worst : Store (Nat × Nat) := []
deriving DecidableEq, Repr

/-- The parameters of lane `n`. -/
def PkgConfig.lane (c : PkgConfig) (n : Nat) : LaneCfg := Store.get (fun _ => {}) c.lanes n

/-- Function `n`. -/
def PkgConfig.fn (c : PkgConfig) (n : Nat) : FnCfg := Store.get (fun _ => {}) c.fns n

/-- The zone of a tile. -/
def PkgConfig.zoneOf (c : PkgConfig) (t : Nat) : Nat := Store.get (fun _ => 0) c.zmap t

/-- Engine `n` has a tile in zone `z` of a zone map in canonical form: a tile that the map does not list is in zone 0. -/
def engineHasZone (m : Store Nat) (n z : Nat) : Bool :=
  let own := m.filter fun kv => kv.1 / 1024 == n
  if z = 0 then decide (own.length < 1024) || own.any (fun kv => kv.2 == 0) else own.any fun kv => kv.2 == z

/-- The envelope group of an engine. -/
def PkgConfig.groupOf (c : PkgConfig) (n : Nat) : Nat := Store.get (fun _ => 0) c.groups n

/-- The B-side parameters of a zone in a set. -/
def PkgConfig.bZone (c : PkgConfig) (set z : Nat) : BZone := Store.get (fun _ => {}) c.bZones (64 * set + z)

end Sys2Proof.Machine
end

