-- ==== Sys2Proof/Machine/Regs.lean ====
section
/-! DEFINITION. The register map: every register that the spec's register tables describe, under its own name, with
its place, instances, access classes and fields (R10, R11, R14, R17). Instance `i` of a register with `sub` words per
instance has the words `i * sub + k`; the file of spec/ that holds the table stands in each docstring. -/

namespace Sys2Proof.Machine

/-- The access types of R11. -/
inductive FieldTy where
  | rw | ro | w1c | w1s | rc | wo | rwl
deriving DecidableEq, Repr

/-- One field of a register: its lowest bit, width, access type, reset value and, where the spec limits what may be
written, the ranges of accepted values (R16); an empty list accepts every value. -/
structure FieldInfo where
  lo : Nat
  w : Nat
  ty : FieldTy
  rst : Nat
  ok : List (Nat × Nat)
deriving DecidableEq, Repr

/-- One register: base address, instances and stride, words per instance and their stride, the classes that may read
and that may write it (bits of `Class.mask`), and its fields. -/
structure RegInfo where
  base : Nat
  count : Nat
  stride : Nat
  sub : Nat
  sstride : Nat
  rd : Nat
  wr : Nat
  fields : List FieldInfo
deriving DecidableEq, Repr

/-- Every register of the spec's register tables. -/
inductive Reg where
  /-- Device identity and silicon steps. (spec/01_architecture.md) -/
  | GLB_ID
  /-- Vendor and family identity. (spec/01_architecture.md) -/
  | GLB_FAMILY
  /-- Boot ROM version. (spec/01_architecture.md) -/
  | GLB_ROMVER
  /-- Version of the running firmware package. (spec/01_architecture.md) -/
  | GLB_FWVER
  /-- Highest interface versions that this silicon step and its shipped firmware support. Actual versions are set by negotiation on each interface. (spec/01_architecture.md) -/
  | GLB_IFVER
  /-- Lifecycle view as latched from fuses. (spec/01_architecture.md) -/
  | GLB_LIFE
  /-- Device state and running configuration. (spec/01_architecture.md) -/
  | GLB_STATE
  /-- Module serial number, low and high words, from the MFG region. (spec/01_architecture.md) -/
  | GLB_SERIAL
  /-- Digest of the running configuration, byte 0 in bits [7:0] of GLB_CFGDIG0. (spec/01_architecture.md) -/
  | GLB_CFGDIG
  /-- First unhandled access violation. (spec/01_architecture.md) -/
  | GLB_AVIOL
  /-- Address of the recorded violation; for HOST, the BAR0 offset. (spec/01_architecture.md) -/
  | GLB_AVADDR
  /-- Count of access violations. (spec/01_architecture.md) -/
  | GLB_AVCNT
  /-- Read mode of RC fields, one bit per master ID. (spec/01_architecture.md) -/
  | GLB_NOCLR
  /-- Link state and B-die state. (spec/01_architecture.md) -/
  | XLK_STAT
  /-- Cross link errors; each flag is set by hardware. (spec/01_architecture.md) -/
  | XLK_ERR
  /-- Retransmissions on both links. (spec/01_architecture.md) -/
  | XLK_RETRYCNT
  /-- The B-die's installed configuration digest (R457), byte 0 in bits [7:0] of XLK_BDIG0, mirrored. (spec/01_architecture.md) -/
  | XLK_BDIG
  /-- SEO_B lines and B-side engine faults, mirrored. (spec/01_architecture.md) -/
  | XLK_BSEO
  /-- SEO_B lines and B-side engine faults, mirrored. (spec/01_architecture.md) -/
  | XLK_BENGF
  /-- Causes of the B-side engine faults of engines 0–7 and 8–15, mirrored. (spec/01_architecture.md) -/
  | XLK_BENGC
  /-- Wrong and missing release reports that the B-die has found since it began to evaluate, over all engines. The count includes reports counted after a latched fault (R151). Mirrored. (spec/01_architecture.md) -/
  | XLK_BRPTCNT
  /-- Filtered DI states in channel B, DI0–DI31 and DI32–DI47, mirrored. (spec/01_architecture.md) -/
  | XLK_BDI
  /-- Test-pulse faults of the DIs in channel B, mirrored. (spec/01_architecture.md) -/
  | XLK_BTPF
  /-- Test-pulse sources and low-side switches as channel B sees them, mirrored. (spec/01_architecture.md) -/
  | XLK_BTP
  /-- Test-pulse sources and low-side switches as channel B sees them, mirrored. (spec/01_architecture.md) -/
  | XLK_BSO
  /-- Field link state in channel B, mirrored. (spec/01_architecture.md) -/
  | XLK_BFLINK
  /-- Path S current of CLIn after factory trim (m of R281), and after user trim (t), mirrored. CLI_SCUR of CLIn reads the same value as XLK_SCURn. (spec/01_architecture.md) -/
  | XLK_SMEAS
  /-- Path S current of CLIn after factory trim (m of R281), and after user trim (t), mirrored. CLI_SCUR of CLIn reads the same value as XLK_SCURn. (spec/01_architecture.md) -/
  | XLK_SCUR
  /-- Path S state of the CLIs, mirrored. (spec/01_architecture.md) -/
  | XLK_SCLI
  /-- Channel B zone bits of zones 0–31 and 32–63, as applied in the verdict (R136), mirrored. (spec/01_architecture.md) -/
  | XLK_BZONE
  /-- B-side envelope state, mirrored. (spec/01_architecture.md) -/
  | XLK_BENV
  /-- B-side envelope state, mirrored. (spec/01_architecture.md) -/
  | XLK_BSEL
  /-- Peer link state in channel B, mirrored. NPS_STAT.STATE_B and VALID_B read the same values. (spec/01_architecture.md) -/
  | XLK_BNPS
  /-- Peer link state in channel B, mirrored. NPS_STAT.STATE_B and VALID_B read the same values. (spec/01_architecture.md) -/
  | XLK_BNPSV
  /-- B-die clock, supply and temperature health, mirrored. (spec/01_architecture.md) -/
  | XLK_BHEALTH
  /-- Controller state. (spec/01_architecture.md) -/
  | DDR_STAT
  /-- Causes of event 126, each set by hardware, and their enables. (spec/01_architecture.md) -/
  | DDR_EVT
  /-- Causes of event 126, each set by hardware, and their enables. (spec/01_architecture.md) -/
  | DDR_IEN
  /-- Corrected and uncorrectable errors. (spec/01_architecture.md) -/
  | DDR_CECNT
  /-- Corrected and uncorrectable errors. (spec/01_architecture.md) -/
  | DDR_UECNT
  /-- Offset within DRAM and master of the last uncorrectable error. (spec/01_architecture.md) -/
  | DDR_UEADDR_LO
  /-- Offset within DRAM and master of the last uncorrectable error. (spec/01_architecture.md) -/
  | DDR_UEADDR_HI
  /-- Offset within DRAM and master of the last uncorrectable error. (spec/01_architecture.md) -/
  | DDR_UEMST
  /-- Patrol scrubber. (spec/01_architecture.md) -/
  | DDR_SCRUB
  /-- Lane enable, lane reset and configuration lock. (spec/02_slice_lanes.md) -/
  | LANE_CTL
  /-- Lane state and negotiated link parameters. (spec/02_slice_lanes.md) -/
  | LANE_STAT
  /-- Ingress link configuration; RWL fields are locked by LANE_CTL.CFGLK. (spec/02_slice_lanes.md) -/
  | LANE_CFG
  /-- Slot period of engine n. (spec/02_slice_lanes.md) -/
  | LANE_SLOT
  /-- Ingress frame check polynomial, initial value and final XOR. (spec/02_slice_lanes.md) -/
  | LANE_CRC_POLY
  /-- Ingress frame check polynomial, initial value and final XOR. (spec/02_slice_lanes.md) -/
  | LANE_CRC_INIT
  /-- Ingress frame check polynomial, initial value and final XOR. (spec/02_slice_lanes.md) -/
  | LANE_CRC_XOR
  /-- Ingress frame check width and reflection. (spec/02_slice_lanes.md) -/
  | LANE_CRC_CFG
  /-- Check value of "123456789" under the ingress parameters, as sent in CAP. (spec/02_slice_lanes.md) -/
  | LANE_CRC_ID
  /-- Capability word last received from the ingress peer. (spec/02_slice_lanes.md) -/
  | LANE_PEER_CAP
  /-- SLICE_SEQ and LAYER of the last accepted frame. (spec/02_slice_lanes.md) -/
  | LANE_SEQ
  /-- SLICE_SEQ and LAYER of the last accepted frame. (spec/02_slice_lanes.md) -/
  | LANE_LAYER
  /-- Slots of engine n since the configuration became active. (spec/02_slice_lanes.md) -/
  | LANE_SLOTCNT
  /-- Ingress error flags; each flag is set by hardware on the error named. (spec/02_slice_lanes.md) -/
  | LANE_ERR
  /-- Frame errors, held slices and slot overruns. (spec/02_slice_lanes.md) -/
  | LANE_ERRCNT
  /-- Frame errors, held slices and slot overruns. (spec/02_slice_lanes.md) -/
  | LANE_HOLDCNT
  /-- Frame errors, held slices and slot overruns. (spec/02_slice_lanes.md) -/
  | LANE_OVRCNT
  /-- Frames accepted since the last LANE reset, POR or WARM reset. (spec/02_slice_lanes.md) -/
  | LANE_FRMCNT
  /-- Causes that raise event LANEn. (spec/02_slice_lanes.md) -/
  | LANE_IEN
  /-- Egress negotiated version and credit state. (spec/02_slice_lanes.md) -/
  | LANE_EG_STAT
  /-- Egress configuration; locked by LANE_CTL.CFGLK. (spec/02_slice_lanes.md) -/
  | LANE_EG_CFG
  /-- Egress check parameters, with the same field layout, types and reset values as LANE_CRC_POLY, LANE_CRC_INIT, LANE_CRC_XOR and LANE_CRC_CFG. (spec/02_slice_lanes.md) -/
  | LANE_EG_CRC_POLY
  /-- Egress check parameters, with the same field layout, types and reset values as LANE_CRC_POLY, LANE_CRC_INIT, LANE_CRC_XOR and LANE_CRC_CFG. (spec/02_slice_lanes.md) -/
  | LANE_EG_CRC_INIT
  /-- Egress check parameters, with the same field layout, types and reset values as LANE_CRC_POLY, LANE_CRC_INIT, LANE_CRC_XOR and LANE_CRC_CFG. (spec/02_slice_lanes.md) -/
  | LANE_EG_CRC_XOR
  /-- Egress check parameters, with the same field layout, types and reset values as LANE_CRC_POLY, LANE_CRC_INIT, LANE_CRC_XOR and LANE_CRC_CFG. (spec/02_slice_lanes.md) -/
  | LANE_EG_CRC_CFG
  /-- Egress CRC_ID and the driver board's capability word, laid out as LANE_CRC_ID and LANE_PEER_CAP. (spec/02_slice_lanes.md) -/
  | LANE_EG_CRC_ID
  /-- Egress CRC_ID and the driver board's capability word, laid out as LANE_CRC_ID and LANE_PEER_CAP. (spec/02_slice_lanes.md) -/
  | LANE_EG_PEER_CAP
  /-- Egress frames sent since the last LANE reset, POR or WARM reset. (spec/02_slice_lanes.md) -/
  | LANE_EG_SEGCNT
  /-- Egress frames sent with BLANKED = 1. (spec/02_slice_lanes.md) -/
  | LANE_EG_BLKCNT
  /-- Egress error flags; each flag is set by hardware on the error named. (spec/02_slice_lanes.md) -/
  | LANE_EG_ERR
  /-- Pool activation, zone-map load and configuration lock. (spec/03_dose_check_pool.md) -/
  | CHK_CTL
  /-- Pool state. (spec/03_dose_check_pool.md) -/
  | CHK_STAT
  /-- Check engines to take out of service. (spec/03_dose_check_pool.md) -/
  | CHK_CEOFF
  /-- Check-engine states. (spec/03_dose_check_pool.md) -/
  | CHK_CESTAT
  /-- Channel A zone bits, zones 0–31 and 32–63, written by ZONE_EMISSION functions. (spec/03_dose_check_pool.md) -/
  | CHK_ZOPEN
  /-- Trip latch vector, zones 0–31 and 32–63. (spec/03_dose_check_pool.md) -/
  | CHK_TRIP
  /-- Zone peak epoch. (spec/03_dose_check_pool.md) -/
  | CHK_PEAK_EP
  /-- Scoreboard stall limit. (spec/03_dose_check_pool.md) -/
  | CHK_HAZ_LIM
  /-- Round-robin pointer. (spec/03_dose_check_pool.md) -/
  | CHK_RR
  /-- Envelope groups of engines 0–7 and 8–15. (spec/03_dose_check_pool.md) -/
  | CHK_EGRP
  /-- Staging offset of the zone map. (spec/03_dose_check_pool.md) -/
  | CHK_ZMAP_SRC
  /-- Envelope load request. (spec/03_dose_check_pool.md) -/
  | CHK_ENV_CTL
  /-- Staging offset of the envelope image. (spec/03_dose_check_pool.md) -/
  | CHK_ENV_SRC
  /-- Envelope load state and result. (spec/03_dose_check_pool.md) -/
  | CHK_ENV_STAT
  /-- Engines whose envelope is confirmed. (spec/03_dose_check_pool.md) -/
  | CHK_ENV_VLD
  /-- Active set of engines 0–7 and 8–15. (spec/03_dose_check_pool.md) -/
  | CHK_ENV_ACT
  /-- Envelope digest of the last load, byte 0 in bits [7:0] of CHK_ENV_DIG0. (spec/03_dose_check_pool.md) -/
  | CHK_ENV_DIG
  /-- Pool error flags; each flag is set by hardware on the error named. (spec/03_dose_check_pool.md) -/
  | CHK_ERR
  /-- Enables of the CHK events. (spec/03_dose_check_pool.md) -/
  | CHK_IEN
  /-- Decay overruns and corrected dose SRAM errors. (spec/03_dose_check_pool.md) -/
  | CHK_OVRCNT
  /-- Decay overruns and corrected dose SRAM errors. (spec/03_dose_check_pool.md) -/
  | CHK_ECCCNT
  /-- Dose SRAM word of the last uncorrectable error. (spec/03_dose_check_pool.md) -/
  | CHK_ECCADDR
  /-- Zone parameters of the active envelope set. (spec/03_dose_check_pool.md) -/
  | ZONE_CFG
  /-- Integrator limit L_z, cold value, cold release level and safe-touch level. (spec/03_dose_check_pool.md) -/
  | ZONE_LIM
  /-- Integrator limit L_z, cold value, cold release level and safe-touch level. (spec/03_dose_check_pool.md) -/
  | ZONE_COLD
  /-- Integrator limit L_z, cold value, cold release level and safe-touch level. (spec/03_dose_check_pool.md) -/
  | ZONE_COLDREL
  /-- Integrator limit L_z, cold value, cold release level and safe-touch level. (spec/03_dose_check_pool.md) -/
  | ZONE_TOUCH
  /-- Zone state in channel A. (spec/03_dose_check_pool.md) -/
  | ZONE_STAT
  /-- Largest integrator written back in the zone in the last complete epoch. (spec/03_dose_check_pool.md) -/
  | ZONE_PEAK
  /-- Ceiling violations and integrator exceedances. (spec/03_dose_check_pool.md) -/
  | ZONE_CNT
  /-- Channel A permit of SEO_An and A-side engine fault clear. (spec/04_tile_check_release_ledger.md) -/
  | REL_SEO
  /-- Release gate and SEO state. (spec/04_tile_check_release_ledger.md) -/
  | REL_STAT
  /-- Verdict timeout; locked by LANE[n].CTL.CFGLK. (spec/04_tile_check_release_ledger.md) -/
  | REL_CFG
  /-- Release error flags; each flag is set by hardware on the error named. (spec/04_tile_check_release_ledger.md) -/
  | REL_ERR
  /-- Causes that raise event RELn. (spec/04_tile_check_release_ledger.md) -/
  | REL_IEN
  /-- Segments released since POR, WARM reset or LANE reset of lane n. (spec/04_tile_check_release_ledger.md) -/
  | REL_RELCNT
  /-- Verdict timeouts, tiles failed by the B-die, and tiles zeroed by the zone mask at release. (spec/04_tile_check_release_ledger.md) -/
  | REL_BTOCNT
  /-- Verdict timeouts, tiles failed by the B-die, and tiles zeroed by the zone mask at release. (spec/04_tile_check_release_ledger.md) -/
  | REL_BFAILCNT
  /-- Verdict timeouts, tiles failed by the B-die, and tiles zeroed by the zone mask at release. (spec/04_tile_check_release_ledger.md) -/
  | REL_ZMCNT
  /-- Release latency in TIMEBASE ticks of 10 ns. (spec/04_tile_check_release_ledger.md) -/
  | REL_LAT
  /-- Ledger enable and configuration lock. (spec/04_tile_check_release_ledger.md) -/
  | LDG_CTL
  /-- Checkpoint interval, full action and close timeout. (spec/04_tile_check_release_ledger.md) -/
  | LDG_CFG
  /-- Engines recorded. (spec/04_tile_check_release_ledger.md) -/
  | LDG_ENGMASK
  /-- Ledger state. (spec/04_tile_check_release_ledger.md) -/
  | LDG_STAT
  /-- Next LSEQ to open, bits [31:0] and [63:32]. (spec/04_tile_check_release_ledger.md) -/
  | LDG_WRSEQ_LO
  /-- Next LSEQ to open, bits [31:0] and [63:32]. (spec/04_tile_check_release_ledger.md) -/
  | LDG_WRSEQ_HI
  /-- Count of closed entries, which is the LSEQ of the newest closed entry plus 1. (spec/04_tile_check_release_ledger.md) -/
  | LDG_CLSEQ_LO
  /-- Count of closed entries, which is the LSEQ of the newest closed entry plus 1. (spec/04_tile_check_release_ledger.md) -/
  | LDG_CLSEQ_HI
  /-- Oldest entry not yet drained (R169, R171). (spec/04_tile_check_release_ledger.md) -/
  | LDG_RDSEQ_LO
  /-- Oldest entry not yet drained (R169, R171). (spec/04_tile_check_release_ledger.md) -/
  | LDG_RDSEQ_HI
  /-- Ledger event causes; each is set by hardware. (spec/04_tile_check_release_ledger.md) -/
  | LDG_EVT
  /-- Causes that raise event 16. (spec/04_tile_check_release_ledger.md) -/
  | LDG_IEN
  /-- Free-slot warning level. (spec/04_tile_check_release_ledger.md) -/
  | LDG_WARN
  /-- Layers not recorded. (spec/04_tile_check_release_ledger.md) -/
  | LDG_LOST
  /-- Activation nonce, byte 0 in bits [7:0] of LDG_NONCE0. (spec/04_tile_check_release_ledger.md) -/
  | LDG_NONCE
  /-- Header digest of the newest closed entry, byte 0 in bits [7:0] of LDG_HDIG0. (spec/04_tile_check_release_ledger.md) -/
  | LDG_HDIG
  /-- Channel A state of function n, and the partner's view of it. (spec/05_safety_functions.md) -/
  | SFN_STAT
  /-- Common parameters of function n, from the configuration. (spec/05_safety_functions.md) -/
  | SFN_CFG
  /-- Input image of function n as channel A used it in the last cycle. (spec/05_safety_functions.md) -/
  | SFN_IN
  /-- Worst-case reaction time of function n. (spec/05_safety_functions.md) -/
  | SFN_TR
  /-- Evaluation cycle, start and configuration lock. (spec/05_safety_functions.md) -/
  | SFN_CTL
  /-- Evaluation cycle length. (spec/05_safety_functions.md) -/
  | SFN_TC
  /-- Current cycle number c. (spec/05_safety_functions.md) -/
  | SFN_CYCLE
  /-- Exchange state; each flag is set by hardware. (spec/05_safety_functions.md) -/
  | SFN_XSTAT
  /-- Missed exchanges (R182) and group overruns (R179). (spec/05_safety_functions.md) -/
  | SFN_XMISS
  /-- Missed exchanges (R182) and group overruns (R179). (spec/05_safety_functions.md) -/
  | SFN_OVRCNT
  /-- Operator reset status per reset index. (spec/05_safety_functions.md) -/
  | SFN_RST
  /-- Pulses seen in one channel only (R194). (spec/05_safety_functions.md) -/
  | SFN_RSTONE
  /-- The 256-bit vectors of the last exchange: (spec/05_safety_functions.md) -/
  | SFN_RESA
  /-- The 256-bit vectors of the last exchange: (spec/05_safety_functions.md) -/
  | SFN_RESB
  /-- The 256-bit vectors of the last exchange: (spec/05_safety_functions.md) -/
  | SFN_CAUSEB
  /-- The 256-bit vectors of the last exchange: (spec/05_safety_functions.md) -/
  | SFN_XDV
  /-- Filter, OSSD tolerance and test-pulse source of DIn; RWL fields are locked by TPG_CTL.CFGLK. (spec/06_inputs_test_pulses.md) -/
  | DI_CFG
  /-- Channel A state of DIn. (spec/06_inputs_test_pulses.md) -/
  | DI_STAT
  /-- Detection result of the last complete period in channel A. (spec/06_inputs_test_pulses.md) -/
  | DI_TPLAST
  /-- Filtered changes of DIn in channel A. (spec/06_inputs_test_pulses.md) -/
  | DI_CHGCNT
  /-- Source enable; locked by TPG_CTL.CFGLK. (spec/06_inputs_test_pulses.md) -/
  | TP_CFG
  /-- Source state as channel A sees it. (spec/06_inputs_test_pulses.md) -/
  | TP_STAT
  /-- Source fault flags; each flag is set by hardware. (spec/06_inputs_test_pulses.md) -/
  | TP_FLT
  /-- Pulses issued by TPn since the schedule started. (spec/06_inputs_test_pulses.md) -/
  | TP_PCNT
  /-- Schedule start and lock of the DI and TP configuration. (spec/06_inputs_test_pulses.md) -/
  | TPG_CTL
  /-- Pulse width and slot length; locked by TPG_CTL.CFGLK. (spec/06_inputs_test_pulses.md) -/
  | TPG_CFG
  /-- Schedule state. (spec/06_inputs_test_pulses.md) -/
  | TPG_STAT
  /-- Periods since the schedule started. (spec/06_inputs_test_pulses.md) -/
  | TPG_PERIOD
  /-- Channel A command of SOn_P and fault clear. (spec/07_outputs_current_loops.md) -/
  | SO_CMD
  /-- Current limit, off-pulses and open-load indication; RWL fields are locked by SUP_CTL.CFGLK. (spec/07_outputs_current_loops.md) -/
  | SO_CFG
  /-- State of the pair as the field die reports it on FLA. (spec/07_outputs_current_loops.md) -/
  | SO_STAT
  /-- Fault flags; bit k is set by hardware when fault code k + 1 latches. (spec/07_outputs_current_loops.md) -/
  | SO_FLT
  /-- Off-pulses passed, and faults latched. (spec/07_outputs_current_loops.md) -/
  | SO_OPCNT
  /-- Off-pulses passed, and faults latched. (spec/07_outputs_current_loops.md) -/
  | SO_FCNT
  /-- Enable and fault clear. (spec/07_outputs_current_loops.md) -/
  | DQ_CTL
  /-- Mode, restart options, current limit and input filter; locked by SUP_CTL.CFGLK. (spec/07_outputs_current_loops.md) -/
  | DQ_CFG
  /-- Output state. (spec/07_outputs_current_loops.md) -/
  | DQ_STAT
  /-- Fault flags; each flag is set by hardware. (spec/07_outputs_current_loops.md) -/
  | DQ_FLT
  /-- Faults latched. (spec/07_outputs_current_loops.md) -/
  | DQ_FCNT
  /-- Characteristic, averaging and low-flow cutoff. (spec/07_outputs_current_loops.md) -/
  | CLI_CFG
  /-- Process values at 4 mA and 20 mA, and the user trim of path P. (spec/07_outputs_current_loops.md) -/
  | CLI_PVLO
  /-- Process values at 4 mA and 20 mA, and the user trim of path P. (spec/07_outputs_current_loops.md) -/
  | CLI_PVHI
  /-- Process values at 4 mA and 20 mA, and the user trim of path P. (spec/07_outputs_current_loops.md) -/
  | CLI_OFS
  /-- Process values at 4 mA and 20 mA, and the user trim of path P. (spec/07_outputs_current_loops.md) -/
  | CLI_GAIN
  /-- Path P code, current after factory trim (m), trimmed current (t), process value (pv), and channel B's trimmed current mirrored from XLK. (spec/07_outputs_current_loops.md) -/
  | CLI_RAW
  /-- Path P code, current after factory trim (m), trimmed current (t), process value (pv), and channel B's trimmed current mirrored from XLK. (spec/07_outputs_current_loops.md) -/
  | CLI_MEAS
  /-- Path P code, current after factory trim (m), trimmed current (t), process value (pv), and channel B's trimmed current mirrored from XLK. (spec/07_outputs_current_loops.md) -/
  | CLI_CUR
  /-- Path P code, current after factory trim (m), trimmed current (t), process value (pv), and channel B's trimmed current mirrored from XLK. (spec/07_outputs_current_loops.md) -/
  | CLI_PV
  /-- Path P code, current after factory trim (m), trimmed current (t), process value (pv), and channel B's trimmed current mirrored from XLK. (spec/07_outputs_current_loops.md) -/
  | CLI_SCUR
  /-- Input state. (spec/07_outputs_current_loops.md) -/
  | CLI_STAT
  /-- Alarm flags; each flag is set by hardware and raises event 60. (spec/07_outputs_current_loops.md) -/
  | CLI_FLT
  /-- Base 0x0009_7000, 8 instances, stride 0x100. Instance n holds the table of CLIn, with point k at offset 4·k, k = 0 to 32. (spec/07_outputs_current_loops.md) -/
  | CLI_TBL
  /-- Enable and fault clear. (spec/07_outputs_current_loops.md) -/
  | CLO_CTL
  /-- Commanded current. (spec/07_outputs_current_loops.md) -/
  | CLO_SET
  /-- Alarm level, ramp-down and supply restore; locked by SUP_CTL.CFGLK. (spec/07_outputs_current_loops.md) -/
  | CLO_CFG
  /-- Output state. (spec/07_outputs_current_loops.md) -/
  | CLO_STAT
  /-- Readback. (spec/07_outputs_current_loops.md) -/
  | CLO_MEAS
  /-- Fault flags; each flag is set by hardware. (spec/07_outputs_current_loops.md) -/
  | CLO_FLT
  /-- Supply state. (spec/07_outputs_current_loops.md) -/
  | SUP_STAT
  /-- Measured voltages and currents, accurate to ±1 % of reading plus ±50 mV or ±20 mA. (spec/07_outputs_current_loops.md) -/
  | SUP_VOLT
  /-- Measured voltages and currents, accurate to ±1 % of reading plus ±50 mV or ±20 mA. (spec/07_outputs_current_loops.md) -/
  | SUP_CUR
  /-- Supply flags; each flag is set by hardware. (spec/07_outputs_current_loops.md) -/
  | SUP_ERR
  /-- Cut-offs of the group. (spec/07_outputs_current_loops.md) -/
  | SUP_CUTCNT
  /-- Lock of the output and current-loop configuration. (spec/07_outputs_current_loops.md) -/
  | SUP_CTL
  /-- State of Pod p. STATE RETIRED, with RCAUSE and MMWIN, is kept at WARM reset (R308, R327, R470). (spec/09_pods.md) -/
  | POD_STAT
  /-- Rejoin restart. (spec/09_pods.md) -/
  | POD_CTL
  /-- Rejoin entry address; locked by SFN_CTL.CFGLK. (spec/09_pods.md) -/
  | POD_CFG
  /-- Last mismatch or comparator fault of Pod p. (spec/09_pods.md) -/
  | POD_MMINFO
  /-- Address on the differing port, as issued by Pea 0. (spec/09_pods.md) -/
  | POD_MMADDR
  /-- TIMEBASE time stamp of the last mismatch, bits [31:0] and [63:32], read with the high, low, high sequence of Timers and Check-Value Units. (spec/09_pods.md) -/
  | POD_MMTIME_LO
  /-- TIMEBASE time stamp of the last mismatch, bits [31:0] and [63:32], read with the high, low, high sequence of Timers and Check-Value Units. (spec/09_pods.md) -/
  | POD_MMTIME_HI
  /-- Mismatches and rejoins of Pod p since POR. (spec/09_pods.md) -/
  | POD_MMCNT
  /-- Injection test progress. (spec/09_pods.md) -/
  | POD_INJ
  /-- Last rejoin. (spec/09_pods.md) -/
  | POD_REJ
  /-- Pair state. Byte p serves pair p. (spec/09_pods.md) -/
  | POD_PAIR
  /-- Owning pair of each SO pair and each SEO line; locked by SFN_CTL.CFGLK. (spec/09_pods.md) -/
  | POD_OWN_SO
  /-- Owning pair of each SO pair and each SEO line; locked by SFN_CTL.CFGLK. (spec/09_pods.md) -/
  | POD_OWN_SEO
  /-- Owning pair of each zone bit of CHK_ZOPEN; locked by SFN_CTL.CFGLK. (spec/09_pods.md) -/
  | POD_OWN_ZONE
  /-- Split sources and result. (spec/09_pods.md) -/
  | POD_SPLITCFG
  /-- Staging offset of pair p's program image, used by cold restart (R324); locked by SFN_CTL.CFGLK. (spec/09_pods.md) -/
  | POD_IMGSRC
  /-- Digest of pair p's program image from the configuration package, byte 0 in bits [7:0] of word 0; locked by SFN_CTL.CFGLK. (spec/09_pods.md) -/
  | POD_IMGDIG
  /-- Prescaler, mode and enable. (spec/10_timers_check_units.md) -/
  | TMR_CTL
  /-- Counter. (spec/10_timers_check_units.md) -/
  | TMR_CNT
  /-- Preload of the wrap value and of the compare value. (spec/10_timers_check_units.md) -/
  | TMR_RELOAD
  /-- Preload of the wrap value and of the compare value. (spec/10_timers_check_units.md) -/
  | TMR_CMP
  /-- Active wrap value and compare value. (spec/10_timers_check_units.md) -/
  | TMR_RELOAD_ACT
  /-- Active wrap value and compare value. (spec/10_timers_check_units.md) -/
  | TMR_CMP_ACT
  /-- Last captured count. (spec/10_timers_check_units.md) -/
  | TMR_CAP
  /-- Capture source, filter and edge prescaler. (spec/10_timers_check_units.md) -/
  | TMR_CAPCFG
  /-- Flags and state; each flag is set by hardware. (spec/10_timers_check_units.md) -/
  | TMR_STAT
  /-- Flags that raise event 64 + n. (spec/10_timers_check_units.md) -/
  | TMR_IEN
  /-- Write binding of the timer. (spec/10_timers_check_units.md) -/
  | TMR_BIND
  /-- Register load, memory-mode start and abort. (spec/10_timers_check_units.md) -/
  | CRC_CTL
  /-- Width and reflection, laid out as LANE_CRC_CFG. (spec/10_timers_check_units.md) -/
  | CRC_CFG
  /-- Polynomial, initial value and final XOR. (spec/10_timers_check_units.md) -/
  | CRC_POLY
  /-- Polynomial, initial value and final XOR. (spec/10_timers_check_units.md) -/
  | CRC_INIT
  /-- Polynomial, initial value and final XOR. (spec/10_timers_check_units.md) -/
  | CRC_XOR
  /-- Data input of 4, 2 and 1 bytes (R353). (spec/10_timers_check_units.md) -/
  | CRC_DATA
  /-- Data input of 4, 2 and 1 bytes (R353). (spec/10_timers_check_units.md) -/
  | CRC_DATA2
  /-- Data input of 4, 2 and 1 bytes (R353). (spec/10_timers_check_units.md) -/
  | CRC_DATA1
  /-- Running register, and the check value after REFOUT and XOROUT. (spec/10_timers_check_units.md) -/
  | CRC_REG
  /-- Running register, and the check value after REFOUT and XOROUT. (spec/10_timers_check_units.md) -/
  | CRC_RESULT
  /-- Memory-mode start address, bits [31:0] and [39:32], and length. (spec/10_timers_check_units.md) -/
  | CRC_ADDR_LO
  /-- Memory-mode start address, bits [31:0] and [39:32], and length. (spec/10_timers_check_units.md) -/
  | CRC_ADDR_HI
  /-- Memory-mode start address, bits [31:0] and [39:32], and length. (spec/10_timers_check_units.md) -/
  | CRC_LEN
  /-- Unit state and flags; each flag is set by hardware. (spec/10_timers_check_units.md) -/
  | CRC_STAT
  /-- Flags that raise event 96 + n, in the clock in which an enabled flag becomes 1. (spec/10_timers_check_units.md) -/
  | CRC_IEN
  /-- Write binding of the unit, laid out as TMR_BIND. (spec/10_timers_check_units.md) -/
  | CRC_BIND
  /-- Message words. (spec/11_messaging.md) -/
  | MBX_MSG
  /-- Send. (spec/11_messaging.md) -/
  | MBX_SEND
  /-- Take. (spec/11_messaging.md) -/
  | MBX_TAKE
  /-- Channel state. (spec/11_messaging.md) -/
  | MBX_STAT
  /-- Binding of the channel. (spec/11_messaging.md) -/
  | MBX_BIND
  /-- Binding lock. (spec/11_messaging.md) -/
  | MBX_LOCK
  /-- FULL of every channel, and TAKEN notices. (spec/11_messaging.md) -/
  | MBX_FULL
  /-- FULL of every channel, and TAKEN notices. (spec/11_messaging.md) -/
  | MBX_TAKEN
  /-- First unhandled binding violation (R363). (spec/11_messaging.md) -/
  | MBX_VIOL
  /-- Binding violations. (spec/11_messaging.md) -/
  | MBX_VIOLCNT
  /-- Semaphore n. (spec/11_messaging.md) -/
  | MBX_SEM
  /-- Semaphores held, read without acquiring; and releases by non-owners. (spec/11_messaging.md) -/
  | MBX_SEMSTAT
  /-- Semaphores held, read without acquiring; and releases by non-owners. (spec/11_messaging.md) -/
  | MBX_SEMERR
  /-- Route of source n. (spec/11_messaging.md) -/
  | EVT_ROUTE
  /-- Pending bits of sources 32·w to 32·w + 31. (spec/11_messaging.md) -/
  | EVT_PEND
  /-- Masks of sources 32·w to 32·w + 31. (spec/11_messaging.md) -/
  | EVT_MASK
  /-- Target levels. (spec/11_messaging.md) -/
  | EVT_SIG
  /-- Events merged into a pending bit (R375). (spec/11_messaging.md) -/
  | EVT_MERGECNT
  /-- Enable, completion event and ring depths. (spec/11_messaging.md) -/
  | QUE_CTL
  /-- Host addresses of the rings, bits [31:0] and [63:32]. (spec/11_messaging.md) -/
  | QUE_SQBA_LO
  /-- Host addresses of the rings, bits [31:0] and [63:32]. (spec/11_messaging.md) -/
  | QUE_SQBA_HI
  /-- Host addresses of the rings, bits [31:0] and [63:32]. (spec/11_messaging.md) -/
  | QUE_CQBA_LO
  /-- Host addresses of the rings, bits [31:0] and [63:32]. (spec/11_messaging.md) -/
  | QUE_CQBA_HI
  /-- Queue state. (spec/11_messaging.md) -/
  | QUE_STAT
  /-- Ring pointers. (spec/11_messaging.md) -/
  | QUE_SQPTR
  /-- Ring pointers. (spec/11_messaging.md) -/
  | QUE_CQPTR
  /-- Queue errors; each flag is set by hardware. (spec/11_messaging.md) -/
  | QUE_ERR
  /-- Entries fetched since the last enable. (spec/11_messaging.md) -/
  | QUE_FETCHCNT
  /-- Peer parameters; RWL fields are locked by NPS_GCTL.CFGLK. (spec/13_peer_link.md) -/
  | NPS_CFG
  /-- Peer identity, connection key, destination address and tag; locked by NPS_GCTL.CFGLK. (spec/13_peer_link.md) -/
  | NPS_REMOTE
  /-- Peer identity, connection key, destination address and tag; locked by NPS_GCTL.CFGLK. (spec/13_peer_link.md) -/
  | NPS_KEY
  /-- Peer identity, connection key, destination address and tag; locked by NPS_GCTL.CFGLK. (spec/13_peer_link.md) -/
  | NPS_MAC_LO
  /-- Peer identity, connection key, destination address and tag; locked by NPS_GCTL.CFGLK. (spec/13_peer_link.md) -/
  | NPS_MAC_HI
  /-- Peer identity, connection key, destination address and tag; locked by NPS_GCTL.CFGLK. (spec/13_peer_link.md) -/
  | NPS_VLAN
  /-- Connection state in both channels. (spec/13_peer_link.md) -/
  | NPS_STAT
  /-- Channel A's PEER_OUT bits 0–31 and 32–63, sent as DATA_A. (spec/13_peer_link.md) -/
  | NPS_TXDATA_LO
  /-- Channel A's PEER_OUT bits 0–31 and 32–63, sent as DATA_A. (spec/13_peer_link.md) -/
  | NPS_TXDATA_HI
  /-- Received bits as channel A uses them (R414), the last SEQ sent, and LAST in channel A. (spec/13_peer_link.md) -/
  | NPS_RXDATA_LO
  /-- Received bits as channel A uses them (R414), the last SEQ sent, and LAST in channel A. (spec/13_peer_link.md) -/
  | NPS_RXDATA_HI
  /-- Received bits as channel A uses them (R414), the last SEQ sent, and LAST in channel A. (spec/13_peer_link.md) -/
  | NPS_SEQ_TX
  /-- Received bits as channel A uses them (R414), the last SEQ sent, and LAST in channel A. (spec/13_peer_link.md) -/
  | NPS_SEQ_RX
  /-- Receive errors in channel A; each flag is set by hardware. (spec/13_peer_link.md) -/
  | NPS_ERR
  /-- Discarded and lost frames, and duplicate copies, in channel A. (spec/13_peer_link.md) -/
  | NPS_CNT
  /-- Discarded and lost frames, and duplicate copies, in channel A. (spec/13_peer_link.md) -/
  | NPS_DUP
  /-- ECHO age in channel A, version 1.1, in units of 10 µs. (spec/13_peer_link.md) -/
  | NPS_AGE
  /-- Local identity and configuration lock. (spec/13_peer_link.md) -/
  | NPS_GCTL
  /-- Source MAC address of ports 0 and 1, from the MFG region, and port link state. (spec/13_peer_link.md) -/
  | NPS_PADDR
  /-- Source MAC address of ports 0 and 1, from the MFG region, and port link state. (spec/13_peer_link.md) -/
  | NPS_PSTAT
  /-- Sensing and command state. (spec/14_fuses_lifecycle_security.md) -/
  | OTP_STAT
  /-- State of region r: 0 MFG, 1 LIFE, 2 KEY, 3 ROT, 4 CFGD (its newest slot), 5 RBK, 6 CRIT, 7 USR. (spec/14_fuses_lifecycle_security.md) -/
  | OTP_REGION
  /-- CFGD slots that are not BLANK, slots that are LOCKED and verify, and the newest slot (R438). (spec/14_fuses_lifecycle_security.md) -/
  | OTP_CFGDUSED
  /-- CFGD slots that are not BLANK, slots that are LOCKED and verify, and the newest slot (R438). (spec/14_fuses_lifecycle_security.md) -/
  | OTP_CFGDOK
  /-- CFGD slots that are not BLANK, slots that are LOCKED and verify, and the newest slot (R438). (spec/14_fuses_lifecycle_security.md) -/
  | OTP_CFGDNEW
  /-- RBK count, CRIT bits as applied, and the first marginal word. (spec/14_fuses_lifecycle_security.md) -/
  | OTP_RBKCNT
  /-- RBK count, CRIT bits as applied, and the first marginal word. (spec/14_fuses_lifecycle_security.md) -/
  | OTP_CRIT
  /-- RBK count, CRIT bits as applied, and the first marginal word. (spec/14_fuses_lifecycle_security.md) -/
  | OTP_MARGW
  /-- Boot lock and hold release. (spec/14_fuses_lifecycle_security.md) -/
  | OTP_CTL
  /-- Operation start. (spec/14_fuses_lifecycle_security.md) -/
  | OTP_CMD
  /-- Word address and bits to burn for PROGRAM. (spec/14_fuses_lifecycle_security.md) -/
  | OTP_ADDR
  /-- Word address and bits to burn for PROGRAM. (spec/14_fuses_lifecycle_security.md) -/
  | OTP_WDATA
  /-- Configuration digest for COMMISSION, byte 0 in bits [7:0] of OTP_CDIG0. (spec/14_fuses_lifecycle_security.md) -/
  | OTP_CDIG
  /-- Result of the last operation. (spec/14_fuses_lifecycle_security.md) -/
  | OTP_RESULT
  /-- Result of the last RESCAN. (spec/14_fuses_lifecycle_security.md) -/
  | OTP_SCAN
  /-- Latched value of logical word w. (spec/14_fuses_lifecycle_security.md) -/
  | OTP_DATA
  /-- Key, Rind and debug state. (spec/14_fuses_lifecycle_security.md) -/
  | SEC_STAT
  /-- Command start. (spec/14_fuses_lifecycle_security.md) -/
  | SEC_CMD
  /-- Domain tag bytes 0–3 and 4–7; source address bits [31:0] and [39:32]; length. (spec/14_fuses_lifecycle_security.md) -/
  | SEC_TAG_LO
  /-- Domain tag bytes 0–3 and 4–7; source address bits [31:0] and [39:32]; length. (spec/14_fuses_lifecycle_security.md) -/
  | SEC_TAG_HI
  /-- Domain tag bytes 0–3 and 4–7; source address bits [31:0] and [39:32]; length. (spec/14_fuses_lifecycle_security.md) -/
  | SEC_SRC_LO
  /-- Domain tag bytes 0–3 and 4–7; source address bits [31:0] and [39:32]; length. (spec/14_fuses_lifecycle_security.md) -/
  | SEC_SRC_HI
  /-- Domain tag bytes 0–3 and 4–7; source address bits [31:0] and [39:32]; length. (spec/14_fuses_lifecycle_security.md) -/
  | SEC_LEN
  /-- Result of the last command. (spec/14_fuses_lifecycle_security.md) -/
  | SEC_RESULT
  /-- Digest of the last hash, byte 0 in bits [7:0] of SEC_DIG0. (spec/14_fuses_lifecycle_security.md) -/
  | SEC_DIG
  /-- Event causes, each set by hardware, and their enables for event 125. A breach raises event 125 whatever SEC_IEN holds. (spec/14_fuses_lifecycle_security.md) -/
  | SEC_EVT
  /-- Event causes, each set by hardware, and their enables for event 125. A breach raises event 125 whatever SEC_IEN holds. (spec/14_fuses_lifecycle_security.md) -/
  | SEC_IEN
  /-- Write binding, laid out as TMR_BIND. (spec/14_fuses_lifecycle_security.md) -/
  | SEC_BIND
  /-- Mesh state. (spec/14_fuses_lifecycle_security.md) -/
  | SEC_RIND
  /-- Current debug challenge, byte 0 in bits [7:0] of word 0 (R462). (spec/14_fuses_lifecycle_security.md) -/
  | SEC_DBGCHAL
  /-- 512-byte operand buffer, with byte i in bits [8·(i mod 4) + 7 : 8·(i mod 4)] of the word at 0x200 + 4·floor(i / 4). It is zeroised by a Rind breach and at every reset. (spec/14_fuses_lifecycle_security.md) -/
  | SEC_BUF
  /-- Clock and supervisor state. (spec/15_startup_reset_clocks.md) -/
  | CLK_STAT
  /-- Causes of the resets since POR; each bit is set by hardware. (spec/15_startup_reset_clocks.md) -/
  | CLK_RSTCAUSE
  /-- WARM reset request. (spec/15_startup_reset_clocks.md) -/
  | CLK_RSTREQ
  /-- Start progress. (spec/15_startup_reset_clocks.md) -/
  | CLK_BOOT
  /-- Clock gates. (spec/15_startup_reset_clocks.md) -/
  | CLK_GATE
  /-- Cross-die clock check. (spec/15_startup_reset_clocks.md) -/
  | CLK_XMON
  /-- Junction temperatures, signed, in 1/16 °C. CLK_TEMP0 holds A-die sensors 0 and 1 and CLK_TEMP1 sensors 2 and 3. CLK_TEMP2 holds the B-die and F0, and CLK_TEMP3 holds F1 and the highest of all. (spec/15_startup_reset_clocks.md) -/
  | CLK_TEMP
  /-- Temperature warning level. (spec/15_startup_reset_clocks.md) -/
  | CLK_THCFG
  /-- Measured supplies, ±1 % of reading. (spec/15_startup_reset_clocks.md) -/
  | CLK_VMON
  /-- Causes of event 127, each set by hardware, and their enables. Loss of REFCLK or PLL_MAIN lock raises event 127 whatever CLK_IEN holds. (spec/15_startup_reset_clocks.md) -/
  | CLK_EVT
  /-- Causes of event 127, each set by hardware, and their enables. Loss of REFCLK or PLL_MAIN lock raises event 127 whatever CLK_IEN holds. (spec/15_startup_reset_clocks.md) -/
  | CLK_IEN
  /-- WARM resets since POR. (spec/15_startup_reset_clocks.md) -/
  | CLK_WARMCNT
deriving DecidableEq, Repr

/-- The table entry of each register. -/
def Reg.info : Reg → RegInfo
  | .GLB_ID => ⟨0x0, 1, 0, 1, 0, 111, 0,
      [⟨16, 16, .ro, 29206, []⟩, ⟨8, 8, .ro, 177, []⟩, ⟨0, 8, .ro, 0, []⟩]⟩
  | .GLB_FAMILY => ⟨0x4, 1, 0, 1, 0, 111, 0,
      [⟨16, 16, .ro, 21068, []⟩, ⟨8, 8, .ro, 10, []⟩]⟩
  | .GLB_ROMVER => ⟨0x8, 1, 0, 1, 0, 111, 0,
      [⟨16, 16, .ro, 1, []⟩, ⟨0, 16, .ro, 3, []⟩]⟩
  | .GLB_FWVER => ⟨0xC, 1, 0, 1, 0, 111, 0,
      [⟨16, 16, .ro, 0, []⟩, ⟨0, 16, .ro, 0, []⟩]⟩
  | .GLB_IFVER => ⟨0x10, 1, 0, 1, 0, 111, 0,
      [⟨28, 4, .ro, 2, []⟩, ⟨24, 4, .ro, 0, []⟩, ⟨20, 4, .ro, 1, []⟩, ⟨16, 4, .ro, 1, []⟩, ⟨12, 4, .ro, 1, []⟩, ⟨8, 4, .ro, 1, []⟩, ⟨4, 4, .ro, 4, []⟩, ⟨0, 4, .ro, 1, []⟩]⟩
  | .GLB_LIFE => ⟨0x20, 1, 0, 1, 0, 111, 0,
      [⟨8, 1, .ro, 0, []⟩, ⟨0, 3, .ro, 0, []⟩]⟩
  | .GLB_STATE => ⟨0x24, 1, 0, 1, 0, 111, 0,
      [⟨23, 1, .ro, 0, []⟩, ⟨18, 5, .ro, 0, []⟩, ⟨8, 4, .ro, 0, []⟩, ⟨0, 4, .ro, 0, []⟩]⟩
  | .GLB_SERIAL => ⟨0x30, 1, 0, 2, 4, 111, 0,
      [⟨0, 32, .ro, 0, []⟩]⟩
  | .GLB_CFGDIG => ⟨0x40, 1, 0, 8, 4, 111, 0,
      [⟨0, 32, .ro, 0, []⟩]⟩
  | .GLB_AVIOL => ⟨0x60, 1, 0, 1, 0, 111, 5,
      [⟨31, 1, .w1c, 0, []⟩, ⟨30, 1, .w1c, 0, []⟩, ⟨8, 1, .ro, 0, []⟩, ⟨0, 5, .ro, 0, []⟩]⟩
  | .GLB_AVADDR => ⟨0x64, 1, 0, 1, 0, 111, 0,
      [⟨0, 32, .ro, 0, []⟩]⟩
  | .GLB_AVCNT => ⟨0x68, 1, 0, 1, 0, 111, 0,
      [⟨0, 16, .rc, 0, []⟩]⟩
  | .GLB_NOCLR => ⟨0x6C, 1, 0, 1, 0, 111, 5,
      [⟨0, 32, .rw, 0, []⟩]⟩
  | .XLK_STAT => ⟨0xB0000, 1, 0, 1, 0, 111, 0,
      [⟨20, 4, .ro, 0, []⟩, ⟨16, 4, .ro, 0, []⟩, ⟨8, 1, .ro, 0, []⟩, ⟨7, 1, .ro, 0, []⟩, ⟨6, 1, .ro, 0, []⟩, ⟨5, 1, .ro, 0, []⟩, ⟨4, 1, .ro, 0, []⟩, ⟨3, 1, .ro, 0, []⟩, ⟨2, 1, .ro, 0, []⟩, ⟨1, 1, .ro, 0, []⟩]⟩
  | .XLK_ERR => ⟨0xB0004, 1, 0, 1, 0, 111, 5,
      [⟨7, 1, .w1c, 0, []⟩, ⟨6, 1, .w1c, 0, []⟩, ⟨5, 1, .w1c, 0, []⟩, ⟨4, 1, .w1c, 0, []⟩, ⟨3, 1, .w1c, 0, []⟩, ⟨2, 1, .w1c, 0, []⟩, ⟨1, 1, .w1c, 0, []⟩, ⟨0, 1, .w1c, 0, []⟩]⟩
  | .XLK_RETRYCNT => ⟨0xB0008, 1, 0, 1, 0, 111, 0,
      [⟨16, 16, .rc, 0, []⟩, ⟨0, 16, .rc, 0, []⟩]⟩
  | .XLK_BDIG => ⟨0xB0020, 1, 0, 8, 4, 111, 0,
      [⟨0, 32, .ro, 0, []⟩]⟩
  | .XLK_BSEO => ⟨0xB0040, 1, 0, 1, 0, 111, 0,
      [⟨16, 16, .ro, 0, []⟩, ⟨0, 16, .ro, 0, []⟩]⟩
  | .XLK_BENGF => ⟨0xB0044, 1, 0, 1, 0, 111, 0,
      [⟨16, 16, .ro, 0, []⟩, ⟨0, 16, .ro, 0, []⟩]⟩
  | .XLK_BENGC => ⟨0xB0048, 1, 0, 2, 4, 111, 0,
      [⟨0, 32, .ro, 0, []⟩]⟩
  | .XLK_BRPTCNT => ⟨0xB0050, 1, 0, 1, 0, 111, 0,
      [⟨0, 32, .ro, 0, []⟩]⟩
  | .XLK_BDI => ⟨0xB0060, 1, 0, 2, 4, 111, 0,
      [⟨0, 32, .ro, 0, []⟩]⟩
  | .XLK_BTPF => ⟨0xB0068, 1, 0, 3, 4, 111, 0,
      [⟨0, 32, .ro, 0, []⟩]⟩
  | .XLK_BTP => ⟨0xB0074, 1, 0, 1, 0, 111, 0,
      [⟨16, 16, .ro, 0, []⟩, ⟨0, 16, .ro, 0, []⟩]⟩
  | .XLK_BSO => ⟨0xB0078, 1, 0, 1, 0, 111, 0,
      [⟨16, 16, .ro, 0, []⟩, ⟨0, 16, .ro, 0, []⟩]⟩
  | .XLK_BFLINK => ⟨0xB007C, 1, 0, 1, 0, 111, 0,
      [⟨1, 1, .ro, 0, []⟩, ⟨0, 1, .ro, 0, []⟩]⟩
  | .XLK_SMEAS => ⟨0xB0080, 1, 0, 8, 4, 111, 0,
      [⟨0, 32, .ro, 0, []⟩]⟩
  | .XLK_SCUR => ⟨0xB00A0, 1, 0, 8, 4, 111, 0,
      [⟨0, 32, .ro, 0, []⟩]⟩
  | .XLK_SCLI => ⟨0xB00C0, 1, 0, 1, 0, 111, 0,
      [⟨16, 8, .ro, 0, []⟩, ⟨8, 8, .ro, 0, []⟩, ⟨0, 8, .ro, 0, []⟩]⟩
  | .XLK_BZONE => ⟨0xB00C4, 1, 0, 2, 4, 111, 0,
      [⟨0, 32, .ro, 0, []⟩]⟩
  | .XLK_BENV => ⟨0xB00CC, 1, 0, 1, 0, 111, 0,
      [⟨0, 32, .ro, 0, []⟩]⟩
  | .XLK_BSEL => ⟨0xB00D0, 1, 0, 2, 4, 111, 0,
      [⟨0, 32, .ro, 0, []⟩]⟩
  | .XLK_BNPS => ⟨0xB00D8, 1, 0, 1, 0, 111, 0,
      [⟨0, 32, .ro, 0, []⟩]⟩
  | .XLK_BNPSV => ⟨0xB00DC, 1, 0, 1, 0, 111, 0,
      [⟨0, 32, .ro, 0, []⟩]⟩
  | .XLK_BHEALTH => ⟨0xB00E0, 1, 0, 1, 0, 111, 0,
      [⟨3, 1, .ro, 0, []⟩, ⟨2, 1, .ro, 0, []⟩, ⟨1, 1, .ro, 0, []⟩, ⟨0, 1, .ro, 0, []⟩]⟩
  | .DDR_STAT => ⟨0xD0000, 1, 0, 1, 0, 111, 0,
      [⟨16, 1, .ro, 0, []⟩, ⟨8, 8, .ro, 0, []⟩, ⟨3, 1, .ro, 0, []⟩, ⟨2, 1, .ro, 0, []⟩, ⟨1, 1, .ro, 0, []⟩]⟩
  | .DDR_EVT => ⟨0xD0004, 1, 0, 1, 0, 111, 5,
      [⟨3, 1, .w1c, 0, []⟩, ⟨2, 1, .w1c, 0, []⟩, ⟨1, 1, .w1c, 0, []⟩, ⟨0, 1, .w1c, 0, []⟩]⟩
  | .DDR_IEN => ⟨0xD0008, 1, 0, 1, 0, 111, 5,
      [⟨3, 1, .rw, 1, []⟩, ⟨2, 1, .rw, 1, []⟩, ⟨1, 1, .rw, 1, []⟩, ⟨0, 1, .rw, 1, []⟩]⟩
  | .DDR_CECNT => ⟨0xD000C, 1, 0, 1, 0, 111, 0,
      [⟨0, 32, .rc, 0, []⟩]⟩
  | .DDR_UECNT => ⟨0xD0010, 1, 0, 1, 0, 111, 0,
      [⟨0, 32, .rc, 0, []⟩]⟩
  | .DDR_UEADDR_LO => ⟨0xD0014, 1, 0, 1, 0, 111, 0,
      [⟨0, 32, .ro, 0, []⟩]⟩
  | .DDR_UEADDR_HI => ⟨0xD0018, 1, 0, 1, 0, 111, 0,
      [⟨0, 32, .ro, 0, []⟩]⟩
  | .DDR_UEMST => ⟨0xD001C, 1, 0, 1, 0, 111, 0,
      [⟨0, 32, .ro, 0, []⟩]⟩
  | .DDR_SCRUB => ⟨0xD0020, 1, 0, 1, 0, 111, 5,
      [⟨8, 8, .rw, 24, [(1, 255)]⟩, ⟨0, 1, .rw, 1, []⟩]⟩
  | .LANE_CTL => ⟨0x100000, 16, 4096, 1, 0, 111, 5,
      [⟨2, 1, .w1s, 0, []⟩, ⟨1, 1, .wo, 0, []⟩, ⟨0, 1, .rw, 0, []⟩]⟩
  | .LANE_STAT => ⟨0x100004, 16, 4096, 1, 0, 111, 0,
      [⟨25, 1, .ro, 0, []⟩, ⟨24, 1, .ro, 0, []⟩, ⟨16, 8, .ro, 0, []⟩, ⟨12, 4, .ro, 0, []⟩, ⟨11, 1, .ro, 0, []⟩, ⟨10, 1, .ro, 0, []⟩, ⟨9, 1, .ro, 0, []⟩, ⟨8, 1, .ro, 0, []⟩, ⟨4, 3, .ro, 0, []⟩, ⟨0, 3, .ro, 0, []⟩]⟩
  | .LANE_CFG => ⟨0x100008, 16, 4096, 1, 0, 111, 5,
      [⟨24, 8, .rwl, 16, [(1, 255)]⟩, ⟨16, 4, .rwl, 15, [(4, 15)]⟩, ⟨12, 3, .rwl, 4, [(0, 4)]⟩, ⟨9, 1, .rwl, 1, []⟩, ⟨8, 1, .rwl, 1, []⟩, ⟨0, 8, .rwl, 32, [(16, 17), (32, 32)]⟩]⟩
  | .LANE_SLOT => ⟨0x10000C, 16, 4096, 1, 0, 111, 5,
      [⟨0, 24, .rwl, 13334, [(13334, 16777215)]⟩]⟩
  | .LANE_CRC_POLY => ⟨0x100010, 16, 4096, 1, 0, 111, 5,
      [⟨0, 32, .rwl, 0, []⟩]⟩
  | .LANE_CRC_INIT => ⟨0x100014, 16, 4096, 1, 0, 111, 5,
      [⟨0, 32, .rwl, 0, []⟩]⟩
  | .LANE_CRC_XOR => ⟨0x100018, 16, 4096, 1, 0, 111, 5,
      [⟨0, 32, .rwl, 0, []⟩]⟩
  | .LANE_CRC_CFG => ⟨0x10001C, 16, 4096, 1, 0, 111, 5,
      [⟨9, 1, .rwl, 0, []⟩, ⟨8, 1, .rwl, 0, []⟩, ⟨0, 6, .rwl, 32, [(3, 32)]⟩]⟩
  | .LANE_CRC_ID => ⟨0x100020, 16, 4096, 1, 0, 111, 0,
      [⟨0, 32, .ro, 0, []⟩]⟩
  | .LANE_PEER_CAP => ⟨0x100024, 16, 4096, 1, 0, 111, 0,
      [⟨16, 8, .ro, 0, []⟩, ⟨8, 8, .ro, 0, []⟩, ⟨0, 8, .ro, 0, []⟩]⟩
  | .LANE_SEQ => ⟨0x100028, 16, 4096, 1, 0, 111, 0,
      [⟨0, 32, .ro, 0, []⟩]⟩
  | .LANE_LAYER => ⟨0x10002C, 16, 4096, 1, 0, 111, 0,
      [⟨0, 32, .ro, 0, []⟩]⟩
  | .LANE_SLOTCNT => ⟨0x100030, 16, 4096, 1, 0, 111, 0,
      [⟨0, 32, .ro, 0, []⟩]⟩
  | .LANE_ERR => ⟨0x100034, 16, 4096, 1, 0, 111, 5,
      [⟨10, 1, .w1c, 0, []⟩, ⟨9, 1, .w1c, 0, []⟩, ⟨8, 1, .w1c, 0, []⟩, ⟨7, 1, .w1c, 0, []⟩, ⟨6, 1, .w1c, 0, []⟩, ⟨5, 1, .w1c, 0, []⟩, ⟨4, 1, .w1c, 0, []⟩, ⟨3, 1, .w1c, 0, []⟩, ⟨2, 1, .w1c, 0, []⟩, ⟨1, 1, .w1c, 0, []⟩, ⟨0, 1, .w1c, 0, []⟩]⟩
  | .LANE_ERRCNT => ⟨0x100038, 16, 4096, 1, 0, 111, 0,
      [⟨0, 32, .rc, 0, []⟩]⟩
  | .LANE_HOLDCNT => ⟨0x100040, 16, 4096, 1, 0, 111, 0,
      [⟨0, 32, .rc, 0, []⟩]⟩
  | .LANE_OVRCNT => ⟨0x100044, 16, 4096, 1, 0, 111, 0,
      [⟨0, 32, .rc, 0, []⟩]⟩
  | .LANE_FRMCNT => ⟨0x10003C, 16, 4096, 1, 0, 111, 0,
      [⟨0, 32, .ro, 0, []⟩]⟩
  | .LANE_IEN => ⟨0x100048, 16, 4096, 1, 0, 111, 5,
      [⟨17, 1, .rw, 1, []⟩, ⟨16, 1, .rw, 1, []⟩, ⟨0, 11, .rw, 2047, []⟩]⟩
  | .LANE_EG_STAT => ⟨0x100804, 16, 4096, 1, 0, 111, 0,
      [⟨8, 4, .ro, 0, []⟩, ⟨0, 8, .ro, 0, []⟩]⟩
  | .LANE_EG_CFG => ⟨0x100808, 16, 4096, 1, 0, 111, 5,
      [⟨16, 10, .rwl, 100, [(10, 1000)]⟩, ⟨0, 8, .rwl, 32, [(16, 17), (32, 32)]⟩]⟩
  | .LANE_EG_CRC_POLY => ⟨0x100810, 16, 4096, 1, 0, 111, 5,
      [⟨0, 32, .rwl, 0, []⟩]⟩
  | .LANE_EG_CRC_INIT => ⟨0x100814, 16, 4096, 1, 0, 111, 5,
      [⟨0, 32, .rwl, 0, []⟩]⟩
  | .LANE_EG_CRC_XOR => ⟨0x100818, 16, 4096, 1, 0, 111, 5,
      [⟨0, 32, .rwl, 0, []⟩]⟩
  | .LANE_EG_CRC_CFG => ⟨0x10081C, 16, 4096, 1, 0, 111, 5,
      [⟨9, 1, .rwl, 0, []⟩, ⟨8, 1, .rwl, 0, []⟩, ⟨0, 6, .rwl, 32, [(3, 32)]⟩]⟩
  | .LANE_EG_CRC_ID => ⟨0x100820, 16, 4096, 1, 0, 111, 0,
      [⟨0, 32, .ro, 0, []⟩]⟩
  | .LANE_EG_PEER_CAP => ⟨0x100824, 16, 4096, 1, 0, 111, 0,
      [⟨16, 8, .ro, 0, []⟩, ⟨8, 8, .ro, 0, []⟩, ⟨0, 8, .ro, 0, []⟩]⟩
  | .LANE_EG_SEGCNT => ⟨0x100828, 16, 4096, 1, 0, 111, 0,
      [⟨0, 32, .ro, 0, []⟩]⟩
  | .LANE_EG_BLKCNT => ⟨0x10082C, 16, 4096, 1, 0, 111, 0,
      [⟨0, 32, .rc, 0, []⟩]⟩
  | .LANE_EG_ERR => ⟨0x100834, 16, 4096, 1, 0, 111, 5,
      [⟨1, 1, .w1c, 0, []⟩, ⟨0, 1, .w1c, 0, []⟩]⟩
  | .CHK_CTL => ⟨0x200000, 1, 0, 1, 0, 111, 1,
      [⟨2, 1, .w1s, 0, []⟩, ⟨1, 1, .wo, 0, []⟩, ⟨0, 1, .w1s, 0, []⟩]⟩
  | .CHK_STAT => ⟨0x200004, 1, 0, 1, 0, 111, 0,
      [⟨16, 5, .ro, 16, []⟩, ⟨14, 1, .ro, 0, []⟩, ⟨13, 1, .ro, 0, []⟩, ⟨12, 1, .ro, 0, []⟩, ⟨0, 10, .ro, 0, []⟩]⟩
  | .CHK_CEOFF => ⟨0x200008, 1, 0, 1, 0, 111, 5,
      [⟨0, 16, .rw, 0, []⟩]⟩
  | .CHK_CESTAT => ⟨0x20000C, 1, 0, 1, 0, 111, 0,
      [⟨0, 32, .ro, 0, []⟩]⟩
  | .CHK_ZOPEN => ⟨0x200010, 1, 0, 2, 4, 111, 1,
      [⟨0, 32, .rw, 0, []⟩]⟩
  | .CHK_TRIP => ⟨0x200018, 1, 0, 2, 4, 111, 0,
      [⟨0, 32, .ro, 0, []⟩]⟩
  | .CHK_PEAK_EP => ⟨0x200020, 1, 0, 1, 0, 111, 1,
      [⟨0, 25, .rwl, 26678, [(26668, 33554431)]⟩]⟩
  | .CHK_HAZ_LIM => ⟨0x200024, 1, 0, 1, 0, 111, 1,
      [⟨0, 10, .rwl, 20, [(1, 1000)]⟩]⟩
  | .CHK_RR => ⟨0x200028, 1, 0, 1, 0, 111, 0,
      [⟨0, 4, .ro, 0, []⟩]⟩
  | .CHK_EGRP => ⟨0x200030, 1, 0, 2, 4, 111, 1,
      [⟨0, 32, .rwl, 0, []⟩]⟩
  | .CHK_ZMAP_SRC => ⟨0x200038, 1, 0, 1, 0, 111, 1,
      [⟨6, 22, .rwl, 0, []⟩]⟩
  | .CHK_ENV_CTL => ⟨0x200040, 1, 0, 1, 0, 111, 1,
      [⟨16, 4, .rw, 0, []⟩, ⟨8, 4, .rw, 0, []⟩, ⟨0, 1, .wo, 0, []⟩]⟩
  | .CHK_ENV_SRC => ⟨0x200044, 1, 0, 1, 0, 111, 1,
      [⟨6, 22, .rw, 0, []⟩]⟩
  | .CHK_ENV_STAT => ⟨0x200048, 1, 0, 1, 0, 111, 0,
      [⟨12, 4, .ro, 0, []⟩, ⟨8, 4, .ro, 0, []⟩, ⟨4, 4, .ro, 0, []⟩, ⟨0, 3, .ro, 0, []⟩]⟩
  | .CHK_ENV_VLD => ⟨0x20004C, 1, 0, 1, 0, 111, 0,
      [⟨0, 16, .ro, 0, []⟩]⟩
  | .CHK_ENV_ACT => ⟨0x200050, 1, 0, 2, 4, 111, 0,
      [⟨0, 32, .ro, 0, []⟩]⟩
  | .CHK_ENV_DIG => ⟨0x200060, 1, 0, 8, 4, 111, 0,
      [⟨0, 32, .ro, 0, []⟩]⟩
  | .CHK_ERR => ⟨0x200080, 1, 0, 1, 0, 111, 5,
      [⟨9, 1, .w1c, 0, []⟩, ⟨8, 1, .w1c, 0, []⟩, ⟨7, 1, .w1c, 0, []⟩, ⟨6, 1, .w1c, 0, []⟩, ⟨5, 1, .w1c, 0, []⟩, ⟨4, 1, .w1c, 0, []⟩, ⟨3, 1, .w1c, 0, []⟩, ⟨2, 1, .w1c, 0, []⟩, ⟨1, 1, .w1c, 0, []⟩, ⟨0, 1, .w1c, 0, []⟩]⟩
  | .CHK_IEN => ⟨0x200084, 1, 0, 1, 0, 111, 5,
      [⟨0, 8, .rw, 255, []⟩]⟩
  | .CHK_OVRCNT => ⟨0x200088, 1, 0, 1, 0, 111, 0,
      [⟨0, 32, .rc, 0, []⟩]⟩
  | .CHK_ECCCNT => ⟨0x20008C, 1, 0, 1, 0, 111, 0,
      [⟨0, 32, .rc, 0, []⟩]⟩
  | .CHK_ECCADDR => ⟨0x200090, 1, 0, 1, 0, 111, 0,
      [⟨31, 1, .ro, 0, []⟩, ⟨0, 20, .ro, 0, []⟩]⟩
  | .ZONE_CFG => ⟨0x201000, 64, 32, 1, 0, 111, 0,
      [⟨16, 16, .ro, 0, []⟩, ⟨8, 8, .ro, 0, []⟩, ⟨6, 1, .ro, 0, []⟩, ⟨4, 2, .ro, 0, []⟩, ⟨0, 4, .ro, 0, []⟩]⟩
  | .ZONE_LIM => ⟨0x201004, 64, 32, 1, 0, 111, 0,
      [⟨0, 32, .ro, 0, []⟩]⟩
  | .ZONE_COLD => ⟨0x201008, 64, 32, 1, 0, 111, 0,
      [⟨0, 32, .ro, 0, []⟩]⟩
  | .ZONE_COLDREL => ⟨0x20100C, 64, 32, 1, 0, 111, 0,
      [⟨0, 32, .ro, 0, []⟩]⟩
  | .ZONE_TOUCH => ⟨0x201010, 64, 32, 1, 0, 111, 0,
      [⟨0, 32, .ro, 0, []⟩]⟩
  | .ZONE_STAT => ⟨0x201014, 64, 32, 1, 0, 111, 1,
      [⟨5, 1, .ro, 0, []⟩, ⟨4, 1, .ro, 0, []⟩, ⟨3, 1, .ro, 0, []⟩, ⟨2, 1, .w1c, 0, []⟩, ⟨1, 1, .ro, 0, []⟩, ⟨0, 1, .ro, 0, []⟩]⟩
  | .ZONE_PEAK => ⟨0x201018, 64, 32, 1, 0, 111, 0,
      [⟨0, 32, .ro, 0, []⟩]⟩
  | .ZONE_CNT => ⟨0x20101C, 64, 32, 1, 0, 111, 0,
      [⟨16, 16, .rc, 0, []⟩, ⟨0, 16, .rc, 0, []⟩]⟩
  | .REL_SEO => ⟨0x300000, 16, 256, 1, 0, 111, 1,
      [⟨1, 1, .wo, 0, []⟩, ⟨0, 1, .rw, 0, []⟩]⟩
  | .REL_STAT => ⟨0x300004, 16, 256, 1, 0, 111, 0,
      [⟨16, 6, .ro, 0, []⟩, ⟨12, 3, .ro, 0, []⟩, ⟨8, 3, .ro, 0, []⟩, ⟨4, 1, .ro, 0, []⟩, ⟨3, 1, .ro, 0, []⟩, ⟨2, 1, .ro, 0, []⟩, ⟨1, 1, .ro, 0, []⟩, ⟨0, 1, .ro, 0, []⟩]⟩
  | .REL_CFG => ⟨0x300008, 16, 256, 1, 0, 111, 5,
      [⟨0, 6, .rwl, 48, [(46, 56)]⟩]⟩
  | .REL_ERR => ⟨0x30000C, 16, 256, 1, 0, 111, 5,
      [⟨5, 1, .w1c, 0, []⟩, ⟨4, 1, .w1c, 0, []⟩, ⟨3, 1, .w1c, 0, []⟩, ⟨2, 1, .w1c, 0, []⟩, ⟨1, 1, .w1c, 0, []⟩, ⟨0, 1, .w1c, 0, []⟩]⟩
  | .REL_IEN => ⟨0x300010, 16, 256, 1, 0, 111, 5,
      [⟨0, 6, .rw, 63, []⟩]⟩
  | .REL_RELCNT => ⟨0x300014, 16, 256, 1, 0, 111, 0,
      [⟨0, 32, .ro, 0, []⟩]⟩
  | .REL_BTOCNT => ⟨0x300018, 16, 256, 1, 0, 111, 0,
      [⟨0, 32, .rc, 0, []⟩]⟩
  | .REL_BFAILCNT => ⟨0x30001C, 16, 256, 1, 0, 111, 0,
      [⟨0, 32, .rc, 0, []⟩]⟩
  | .REL_ZMCNT => ⟨0x300020, 16, 256, 1, 0, 111, 0,
      [⟨0, 32, .rc, 0, []⟩]⟩
  | .REL_LAT => ⟨0x300024, 16, 256, 1, 0, 111, 0,
      [⟨16, 16, .rc, 0, []⟩, ⟨0, 16, .ro, 0, []⟩]⟩
  | .LDG_CTL => ⟨0x400000, 1, 0, 1, 0, 111, 5,
      [⟨1, 1, .w1s, 0, []⟩, ⟨0, 1, .rw, 0, []⟩]⟩
  | .LDG_CFG => ⟨0x400004, 1, 0, 1, 0, 111, 5,
      [⟨20, 12, .rwl, 1000, [(1, 4095)]⟩, ⟨16, 1, .rwl, 0, []⟩, ⟨0, 13, .rwl, 64, [(1, 4096)]⟩]⟩
  | .LDG_ENGMASK => ⟨0x400008, 1, 0, 1, 0, 111, 5,
      [⟨0, 16, .rwl, 65535, []⟩]⟩
  | .LDG_STAT => ⟨0x40000C, 1, 0, 1, 0, 111, 0,
      [⟨6, 1, .ro, 0, []⟩, ⟨5, 1, .ro, 0, []⟩, ⟨4, 1, .ro, 0, []⟩, ⟨0, 3, .ro, 0, []⟩]⟩
  | .LDG_WRSEQ_LO => ⟨0x400010, 1, 0, 1, 0, 111, 0,
      [⟨0, 32, .ro, 0, []⟩]⟩
  | .LDG_WRSEQ_HI => ⟨0x400014, 1, 0, 1, 0, 111, 0,
      [⟨0, 32, .ro, 0, []⟩]⟩
  | .LDG_CLSEQ_LO => ⟨0x400018, 1, 0, 1, 0, 111, 0,
      [⟨0, 32, .ro, 0, []⟩]⟩
  | .LDG_CLSEQ_HI => ⟨0x40001C, 1, 0, 1, 0, 111, 0,
      [⟨0, 32, .ro, 0, []⟩]⟩
  | .LDG_RDSEQ_LO => ⟨0x400020, 1, 0, 1, 0, 111, 4,
      [⟨0, 32, .rw, 0, []⟩]⟩
  | .LDG_RDSEQ_HI => ⟨0x400024, 1, 0, 1, 0, 111, 4,
      [⟨0, 32, .rw, 0, []⟩]⟩
  | .LDG_EVT => ⟨0x400028, 1, 0, 1, 0, 111, 5,
      [⟨5, 1, .w1c, 0, []⟩, ⟨4, 1, .w1c, 0, []⟩, ⟨3, 1, .w1c, 0, []⟩, ⟨2, 1, .w1c, 0, []⟩, ⟨1, 1, .w1c, 0, []⟩, ⟨0, 1, .w1c, 0, []⟩]⟩
  | .LDG_IEN => ⟨0x40002C, 1, 0, 1, 0, 111, 5,
      [⟨0, 6, .rw, 62, []⟩]⟩
  | .LDG_WARN => ⟨0x400030, 1, 0, 1, 0, 111, 5,
      [⟨0, 16, .rw, 1024, []⟩]⟩
  | .LDG_LOST => ⟨0x400034, 1, 0, 1, 0, 111, 0,
      [⟨0, 32, .rc, 0, []⟩]⟩
  | .LDG_NONCE => ⟨0x400040, 1, 0, 4, 4, 111, 0,
      [⟨0, 32, .ro, 0, []⟩]⟩
  | .LDG_HDIG => ⟨0x400060, 1, 0, 8, 4, 111, 0,
      [⟨0, 32, .ro, 0, []⟩]⟩
  | .SFN_STAT => ⟨0xA0000, 256, 16, 1, 0, 111, 1,
      [⟨20, 12, .ro, 0, []⟩, ⟨19, 1, .w1c, 0, []⟩, ⟨18, 1, .ro, 0, []⟩, ⟨17, 1, .ro, 0, []⟩, ⟨16, 1, .rw, 0, []⟩, ⟨8, 8, .rw, 17, [(0, 12), (16, 23)]⟩, ⟨3, 1, .rw, 0, []⟩, ⟨2, 1, .rw, 1, []⟩, ⟨0, 2, .rw, 0, [(0, 2)]⟩]⟩
  | .SFN_CFG => ⟨0xA0004, 256, 16, 1, 0, 111, 1,
      [⟨28, 4, .rwl, 0, []⟩, ⟨27, 1, .rwl, 0, []⟩, ⟨26, 1, .rwl, 1, []⟩, ⟨16, 10, .rwl, 2, [(1, 1023)]⟩, ⟨12, 4, .rwl, 0, []⟩, ⟨8, 2, .rwl, 0, [(0, 2)]⟩, ⟨0, 8, .rwl, 0, [(0, 16)]⟩]⟩
  | .SFN_IN => ⟨0xA0008, 256, 16, 1, 0, 111, 0,
      [⟨4, 4, .ro, 0, []⟩, ⟨0, 4, .ro, 0, []⟩]⟩
  | .SFN_TR => ⟨0xA000C, 256, 16, 1, 0, 111, 1,
      [⟨0, 24, .rwl, 0, []⟩]⟩
  | .SFN_CTL => ⟨0xA1000, 1, 0, 1, 0, 111, 1,
      [⟨8, 1, .w1s, 0, []⟩, ⟨1, 1, .w1s, 0, []⟩]⟩
  | .SFN_TC => ⟨0xA1004, 1, 0, 1, 0, 111, 1,
      [⟨0, 2, .rwl, 1, []⟩]⟩
  | .SFN_CYCLE => ⟨0xA1008, 1, 0, 1, 0, 111, 0,
      [⟨0, 32, .ro, 0, []⟩]⟩
  | .SFN_XSTAT => ⟨0xA100C, 1, 0, 1, 0, 111, 5,
      [⟨16, 8, .ro, 0, []⟩, ⟨8, 8, .ro, 0, []⟩, ⟨5, 1, .w1c, 0, []⟩, ⟨4, 1, .w1c, 0, []⟩, ⟨3, 1, .w1c, 0, []⟩, ⟨2, 1, .w1c, 0, []⟩, ⟨1, 1, .w1c, 0, []⟩, ⟨0, 1, .ro, 0, []⟩]⟩
  | .SFN_XMISS => ⟨0xA1010, 1, 0, 1, 0, 111, 0,
      [⟨0, 32, .rc, 0, []⟩]⟩
  | .SFN_OVRCNT => ⟨0xA1014, 1, 0, 1, 0, 111, 0,
      [⟨0, 32, .rc, 0, []⟩]⟩
  | .SFN_RST => ⟨0xA1018, 1, 0, 1, 0, 111, 0,
      [⟨16, 16, .rc, 0, []⟩, ⟨0, 16, .ro, 0, []⟩]⟩
  | .SFN_RSTONE => ⟨0xA101C, 1, 0, 1, 0, 111, 0,
      [⟨0, 16, .rc, 0, []⟩]⟩
  | .SFN_RESA => ⟨0xA1020, 1, 0, 8, 4, 111, 0,
      [⟨0, 32, .ro, 0, []⟩]⟩
  | .SFN_RESB => ⟨0xA1040, 1, 0, 8, 4, 111, 0,
      [⟨0, 32, .ro, 0, []⟩]⟩
  | .SFN_CAUSEB => ⟨0xA1060, 1, 0, 8, 4, 111, 0,
      [⟨0, 32, .ro, 0, []⟩]⟩
  | .SFN_XDV => ⟨0xA1080, 1, 0, 8, 4, 111, 0,
      [⟨0, 32, .ro, 0, []⟩]⟩
  | .DI_CFG => ⟨0x90000, 48, 16, 1, 0, 111, 1,
      [⟨21, 1, .rw, 0, []⟩, ⟨20, 1, .rwl, 0, []⟩, ⟨16, 4, .rwl, 0, []⟩, ⟨8, 7, .rwl, 0, [(0, 0), (10, 100)]⟩, ⟨0, 8, .rwl, 30, [(5, 200)]⟩]⟩
  | .DI_STAT => ⟨0x90004, 48, 16, 1, 0, 111, 0,
      [⟨16, 4, .ro, 0, []⟩, ⟨10, 1, .ro, 0, []⟩, ⟨8, 2, .ro, 0, []⟩, ⟨4, 1, .ro, 0, []⟩, ⟨3, 1, .ro, 0, []⟩, ⟨2, 1, .ro, 0, []⟩, ⟨1, 1, .ro, 0, []⟩, ⟨0, 1, .ro, 0, []⟩]⟩
  | .DI_TPLAST => ⟨0x90008, 48, 16, 1, 0, 111, 0,
      [⟨16, 16, .ro, 0, []⟩, ⟨4, 2, .ro, 0, []⟩, ⟨2, 1, .ro, 0, []⟩, ⟨0, 2, .ro, 0, []⟩]⟩
  | .DI_CHGCNT => ⟨0x9000C, 48, 16, 1, 0, 111, 0,
      [⟨0, 16, .rc, 0, []⟩]⟩
  | .TP_CFG => ⟨0x93000, 16, 16, 1, 0, 111, 1,
      [⟨0, 1, .rwl, 0, []⟩]⟩
  | .TP_STAT => ⟨0x93004, 16, 16, 1, 0, 111, 0,
      [⟨4, 1, .ro, 0, []⟩, ⟨3, 1, .ro, 0, []⟩, ⟨0, 3, .ro, 0, []⟩]⟩
  | .TP_FLT => ⟨0x93008, 16, 16, 1, 0, 111, 5,
      [⟨3, 1, .w1c, 0, []⟩, ⟨2, 1, .w1c, 0, []⟩, ⟨1, 1, .w1c, 0, []⟩, ⟨0, 1, .w1c, 0, []⟩]⟩
  | .TP_PCNT => ⟨0x9300C, 16, 16, 1, 0, 111, 0,
      [⟨0, 32, .ro, 0, []⟩]⟩
  | .TPG_CTL => ⟨0x93100, 1, 0, 1, 0, 111, 1,
      [⟨1, 1, .w1s, 0, []⟩, ⟨0, 1, .w1s, 0, []⟩]⟩
  | .TPG_CFG => ⟨0x93104, 1, 0, 1, 0, 111, 1,
      [⟨16, 12, .rwl, 100, []⟩, ⟨0, 7, .rwl, 50, []⟩]⟩
  | .TPG_STAT => ⟨0x93108, 1, 0, 1, 0, 111, 0,
      [⟨8, 1, .ro, 0, []⟩, ⟨7, 1, .ro, 0, []⟩, ⟨6, 1, .ro, 0, []⟩, ⟨5, 1, .ro, 0, []⟩, ⟨4, 1, .ro, 0, []⟩, ⟨0, 4, .ro, 0, []⟩]⟩
  | .TPG_PERIOD => ⟨0x9310C, 1, 0, 1, 0, 111, 0,
      [⟨0, 32, .ro, 0, []⟩]⟩
  | .SO_CMD => ⟨0x91000, 16, 32, 1, 0, 111, 1,
      [⟨1, 1, .wo, 0, []⟩, ⟨0, 1, .rw, 0, []⟩]⟩
  | .SO_CFG => ⟨0x91004, 16, 32, 1, 0, 111, 1,
      [⟨16, 13, .rwl, 500, [(100, 5000)]⟩, ⟨8, 7, .rwl, 30, [(10, 100)]⟩, ⟨5, 1, .rwl, 0, []⟩, ⟨4, 1, .rwl, 1, []⟩, ⟨0, 3, .rwl, 2, [(0, 4)]⟩]⟩
  | .SO_STAT => ⟨0x91008, 16, 32, 1, 0, 111, 0,
      [⟨16, 4, .ro, 0, []⟩, ⟨9, 1, .ro, 0, []⟩, ⟨8, 1, .ro, 0, []⟩, ⟨7, 1, .ro, 0, []⟩, ⟨6, 1, .ro, 0, []⟩, ⟨5, 1, .ro, 0, []⟩, ⟨4, 1, .ro, 0, []⟩, ⟨3, 1, .ro, 0, []⟩, ⟨0, 3, .ro, 0, []⟩]⟩
  | .SO_FLT => ⟨0x9100C, 16, 32, 1, 0, 111, 5,
      [⟨0, 9, .w1c, 0, []⟩]⟩
  | .SO_OPCNT => ⟨0x91010, 16, 32, 1, 0, 111, 0,
      [⟨0, 32, .ro, 0, []⟩]⟩
  | .SO_FCNT => ⟨0x91014, 16, 32, 1, 0, 111, 0,
      [⟨0, 32, .rc, 0, []⟩]⟩
  | .DQ_CTL => ⟨0x92000, 16, 32, 1, 0, 111, 5,
      [⟨1, 1, .wo, 0, []⟩, ⟨0, 1, .rw, 0, []⟩]⟩
  | .DQ_CFG => ⟨0x92004, 16, 32, 1, 0, 111, 5,
      [⟨16, 8, .rwl, 30, [(5, 200)]⟩, ⟨5, 1, .rwl, 0, []⟩, ⟨4, 1, .rwl, 0, []⟩, ⟨3, 1, .rwl, 0, []⟩, ⟨0, 3, .rwl, 2, [(0, 4)]⟩]⟩
  | .DQ_STAT => ⟨0x92008, 16, 32, 1, 0, 111, 0,
      [⟨16, 4, .ro, 0, []⟩, ⟨9, 1, .ro, 0, []⟩, ⟨8, 1, .ro, 0, []⟩, ⟨7, 1, .ro, 0, []⟩, ⟨6, 1, .ro, 0, []⟩, ⟨5, 1, .ro, 0, []⟩, ⟨0, 3, .ro, 0, []⟩]⟩
  | .DQ_FLT => ⟨0x9200C, 16, 32, 1, 0, 111, 5,
      [⟨5, 1, .w1c, 0, []⟩, ⟨0, 5, .w1c, 0, []⟩]⟩
  | .DQ_FCNT => ⟨0x92010, 16, 32, 1, 0, 111, 0,
      [⟨0, 32, .rc, 0, []⟩]⟩
  | .CLI_CFG => ⟨0x94000, 8, 64, 1, 0, 111, 1,
      [⟨16, 16, .rwl, 0, []⟩, ⟨8, 8, .rwl, 1, [(1, 100)]⟩, ⟨0, 2, .rwl, 0, [(0, 2)]⟩]⟩
  | .CLI_PVLO => ⟨0x94004, 8, 64, 1, 0, 111, 1,
      [⟨0, 32, .rwl, 0, []⟩]⟩
  | .CLI_PVHI => ⟨0x94008, 8, 64, 1, 0, 111, 1,
      [⟨0, 32, .rwl, 0, []⟩]⟩
  | .CLI_OFS => ⟨0x9400C, 8, 64, 1, 0, 111, 1,
      [⟨0, 32, .rwl, 0, [(0, 200000), (4294767296, 4294967295)]⟩]⟩
  | .CLI_GAIN => ⟨0x94010, 8, 64, 1, 0, 111, 1,
      [⟨0, 32, .rwl, 0, [(0, 2097151), (4292870144, 4294967295)]⟩]⟩
  | .CLI_RAW => ⟨0x94014, 8, 64, 1, 0, 111, 0,
      [⟨0, 32, .ro, 0, []⟩]⟩
  | .CLI_MEAS => ⟨0x94018, 8, 64, 1, 0, 111, 0,
      [⟨0, 32, .ro, 0, []⟩]⟩
  | .CLI_CUR => ⟨0x9401C, 8, 64, 1, 0, 111, 0,
      [⟨0, 32, .ro, 0, []⟩]⟩
  | .CLI_PV => ⟨0x94020, 8, 64, 1, 0, 111, 0,
      [⟨0, 32, .ro, 0, []⟩]⟩
  | .CLI_SCUR => ⟨0x94024, 8, 64, 1, 0, 111, 0,
      [⟨0, 32, .ro, 0, []⟩]⟩
  | .CLI_STAT => ⟨0x94028, 8, 64, 1, 0, 111, 0,
      [⟨5, 1, .ro, 0, []⟩, ⟨4, 1, .ro, 0, []⟩, ⟨3, 1, .ro, 0, []⟩, ⟨2, 1, .ro, 0, []⟩, ⟨1, 1, .ro, 0, []⟩, ⟨0, 1, .ro, 0, []⟩]⟩
  | .CLI_FLT => ⟨0x9402C, 8, 64, 1, 0, 111, 5,
      [⟨2, 1, .w1c, 0, []⟩, ⟨1, 1, .w1c, 0, []⟩, ⟨0, 1, .w1c, 0, []⟩]⟩
  | .CLI_TBL => ⟨0x97000, 8, 256, 33, 4, 111, 1,
      [⟨0, 32, .rwl, 0, []⟩]⟩
  | .CLO_CTL => ⟨0x95000, 4, 64, 1, 0, 111, 5,
      [⟨1, 1, .wo, 0, []⟩, ⟨0, 1, .rw, 0, []⟩]⟩
  | .CLO_SET => ⟨0x95004, 4, 64, 1, 0, 111, 5,
      [⟨0, 15, .rw, 4000, [(0, 24000)]⟩]⟩
  | .CLO_CFG => ⟨0x95008, 4, 64, 1, 0, 111, 5,
      [⟨16, 8, .rwl, 0, [(0, 100)]⟩, ⟨2, 1, .rwl, 0, []⟩, ⟨0, 1, .rwl, 0, []⟩]⟩
  | .CLO_STAT => ⟨0x9500C, 4, 64, 1, 0, 111, 0,
      [⟨8, 4, .ro, 0, []⟩, ⟨7, 1, .ro, 0, []⟩, ⟨6, 1, .ro, 0, []⟩, ⟨5, 1, .ro, 0, []⟩, ⟨4, 1, .ro, 0, []⟩, ⟨0, 3, .ro, 0, []⟩]⟩
  | .CLO_MEAS => ⟨0x95010, 4, 64, 1, 0, 111, 0,
      [⟨16, 16, .ro, 0, []⟩, ⟨0, 16, .ro, 0, []⟩]⟩
  | .CLO_FLT => ⟨0x95014, 4, 64, 1, 0, 111, 5,
      [⟨3, 1, .w1c, 0, []⟩, ⟨2, 1, .w1c, 0, []⟩, ⟨1, 1, .w1c, 0, []⟩, ⟨0, 1, .w1c, 0, []⟩]⟩
  | .SUP_STAT => ⟨0x96000, 2, 32, 1, 0, 111, 0,
      [⟨6, 1, .ro, 0, []⟩, ⟨5, 1, .ro, 0, []⟩, ⟨4, 1, .ro, 0, []⟩, ⟨0, 3, .ro, 3, []⟩]⟩
  | .SUP_VOLT => ⟨0x96004, 2, 32, 1, 0, 111, 0,
      [⟨16, 16, .ro, 0, []⟩, ⟨0, 16, .ro, 0, []⟩]⟩
  | .SUP_CUR => ⟨0x96008, 2, 32, 1, 0, 111, 0,
      [⟨16, 16, .ro, 0, []⟩, ⟨0, 16, .ro, 0, []⟩]⟩
  | .SUP_ERR => ⟨0x9600C, 2, 32, 1, 0, 111, 5,
      [⟨3, 1, .w1c, 0, []⟩, ⟨2, 1, .w1c, 0, []⟩, ⟨1, 1, .w1c, 0, []⟩, ⟨0, 1, .w1c, 0, []⟩]⟩
  | .SUP_CUTCNT => ⟨0x96010, 2, 32, 1, 0, 111, 0,
      [⟨0, 16, .rc, 0, []⟩]⟩
  | .SUP_CTL => ⟨0x96040, 1, 0, 1, 0, 111, 1,
      [⟨0, 1, .w1s, 0, []⟩]⟩
  | .POD_STAT => ⟨0x500000, 6, 4096, 1, 0, 111, 0,
      [⟨24, 8, .ro, 0, []⟩, ⟨16, 4, .ro, 0, []⟩, ⟨12, 1, .ro, 0, []⟩, ⟨11, 1, .ro, 0, []⟩, ⟨10, 1, .ro, 0, []⟩, ⟨9, 1, .ro, 0, []⟩, ⟨8, 1, .ro, 0, []⟩, ⟨0, 4, .ro, 0, []⟩]⟩
  | .POD_CTL => ⟨0x500004, 6, 4096, 1, 0, 111, 5,
      [⟨0, 1, .wo, 0, []⟩]⟩
  | .POD_CFG => ⟨0x500008, 6, 4096, 1, 0, 111, 1,
      [⟨2, 30, .rwl, 536870912, []⟩]⟩
  | .POD_MMINFO => ⟨0x50000C, 6, 4096, 1, 0, 111, 5,
      [⟨31, 1, .w1c, 0, []⟩, ⟨30, 1, .ro, 0, []⟩, ⟨29, 1, .ro, 0, []⟩, ⟨28, 1, .ro, 0, []⟩, ⟨8, 8, .ro, 0, []⟩, ⟨0, 2, .ro, 0, []⟩]⟩
  | .POD_MMADDR => ⟨0x500010, 6, 4096, 1, 0, 111, 0,
      [⟨0, 32, .ro, 0, []⟩]⟩
  | .POD_MMTIME_LO => ⟨0x500014, 6, 4096, 1, 0, 111, 0,
      [⟨0, 32, .ro, 0, []⟩]⟩
  | .POD_MMTIME_HI => ⟨0x500018, 6, 4096, 1, 0, 111, 0,
      [⟨0, 32, .ro, 0, []⟩]⟩
  | .POD_MMCNT => ⟨0x50001C, 6, 4096, 1, 0, 111, 0,
      [⟨16, 16, .ro, 0, []⟩, ⟨0, 16, .ro, 0, []⟩]⟩
  | .POD_INJ => ⟨0x500020, 6, 4096, 1, 0, 111, 0,
      [⟨16, 16, .ro, 0, []⟩, ⟨0, 8, .ro, 0, []⟩]⟩
  | .POD_REJ => ⟨0x500024, 6, 4096, 1, 0, 111, 0,
      [⟨24, 8, .ro, 0, []⟩, ⟨12, 12, .ro, 0, []⟩, ⟨0, 12, .ro, 0, []⟩]⟩
  | .POD_PAIR => ⟨0x508000, 1, 0, 1, 0, 111, 0,
      [⟨3, 1, .ro, 1, []⟩, ⟨2, 1, .ro, 0, []⟩, ⟨1, 1, .ro, 0, []⟩, ⟨0, 1, .ro, 0, []⟩, ⟨11, 1, .ro, 1, []⟩, ⟨10, 1, .ro, 0, []⟩, ⟨9, 1, .ro, 0, []⟩, ⟨8, 1, .ro, 0, []⟩, ⟨19, 1, .ro, 1, []⟩, ⟨18, 1, .ro, 0, []⟩, ⟨17, 1, .ro, 0, []⟩, ⟨16, 1, .ro, 0, []⟩]⟩
  | .POD_OWN_SO => ⟨0x508004, 1, 0, 1, 0, 111, 1,
      [⟨0, 32, .rwl, 4294967295, []⟩]⟩
  | .POD_OWN_SEO => ⟨0x508008, 1, 0, 1, 0, 111, 1,
      [⟨0, 32, .rwl, 4294967295, []⟩]⟩
  | .POD_OWN_ZONE => ⟨0x508010, 1, 0, 4, 4, 111, 1,
      [⟨0, 32, .rwl, 4294967295, []⟩]⟩
  | .POD_SPLITCFG => ⟨0x508020, 1, 0, 1, 0, 111, 0,
      [⟨4, 2, .ro, 0, []⟩, ⟨2, 2, .ro, 0, []⟩, ⟨0, 2, .ro, 0, []⟩]⟩
  | .POD_IMGSRC => ⟨0x508030, 1, 0, 3, 4, 111, 1,
      [⟨6, 22, .rwl, 0, []⟩]⟩
  | .POD_IMGDIG => ⟨0x508040, 1, 0, 24, 4, 111, 1,
      [⟨0, 32, .rwl, 0, []⟩]⟩
  | .TMR_CTL => ⟨0x70000, 32, 64, 1, 0, 111, 7,
      [⟨16, 16, .rw, 0, []⟩, ⟨8, 3, .rw, 0, [(0, 4)]⟩, ⟨6, 2, .rw, 0, [(0, 2)]⟩, ⟨5, 1, .rw, 0, []⟩, ⟨4, 1, .rw, 0, []⟩, ⟨3, 1, .rw, 0, []⟩, ⟨2, 1, .rw, 0, []⟩, ⟨1, 1, .rw, 0, []⟩, ⟨0, 1, .rw, 0, []⟩]⟩
  | .TMR_CNT => ⟨0x70004, 32, 64, 1, 0, 111, 7,
      [⟨0, 32, .rw, 0, []⟩]⟩
  | .TMR_RELOAD => ⟨0x70008, 32, 64, 1, 0, 111, 7,
      [⟨0, 32, .rw, 4294967295, []⟩]⟩
  | .TMR_CMP => ⟨0x70010, 32, 64, 1, 0, 111, 7,
      [⟨0, 32, .rw, 0, []⟩]⟩
  | .TMR_RELOAD_ACT => ⟨0x7000C, 32, 64, 1, 0, 111, 0,
      [⟨0, 32, .ro, 4294967295, []⟩]⟩
  | .TMR_CMP_ACT => ⟨0x70014, 32, 64, 1, 0, 111, 0,
      [⟨0, 32, .ro, 0, []⟩]⟩
  | .TMR_CAP => ⟨0x70018, 32, 64, 1, 0, 111, 0,
      [⟨0, 32, .ro, 0, []⟩]⟩
  | .TMR_CAPCFG => ⟨0x7001C, 32, 64, 1, 0, 111, 7,
      [⟨16, 8, .rw, 0, []⟩, ⟨8, 8, .rw, 0, []⟩, ⟨0, 8, .rw, 0, [(0, 193), (224, 255)]⟩]⟩
  | .TMR_STAT => ⟨0x70020, 32, 64, 1, 0, 111, 7,
      [⟨9, 1, .ro, 0, []⟩, ⟨8, 1, .ro, 0, []⟩, ⟨3, 1, .w1c, 0, []⟩, ⟨2, 1, .w1c, 0, []⟩, ⟨1, 1, .w1c, 0, []⟩, ⟨0, 1, .w1c, 0, []⟩]⟩
  | .TMR_IEN => ⟨0x70024, 32, 64, 1, 0, 111, 7,
      [⟨0, 4, .rw, 0, []⟩]⟩
  | .TMR_BIND => ⟨0x70028, 32, 64, 1, 0, 111, 7,
      [⟨8, 1, .w1s, 0, []⟩, ⟨0, 5, .rwl, 0, []⟩]⟩
  | .CRC_CTL => ⟨0x80000, 8, 64, 1, 0, 111, 7,
      [⟨2, 1, .wo, 0, []⟩, ⟨1, 1, .wo, 0, []⟩, ⟨0, 1, .wo, 0, []⟩]⟩
  | .CRC_CFG => ⟨0x80004, 8, 64, 1, 0, 111, 7,
      [⟨9, 1, .rw, 0, []⟩, ⟨8, 1, .rw, 0, []⟩, ⟨0, 6, .rw, 32, [(3, 32)]⟩]⟩
  | .CRC_POLY => ⟨0x80008, 8, 64, 1, 0, 111, 7,
      [⟨0, 32, .rw, 0, []⟩]⟩
  | .CRC_INIT => ⟨0x8000C, 8, 64, 1, 0, 111, 7,
      [⟨0, 32, .rw, 0, []⟩]⟩
  | .CRC_XOR => ⟨0x80010, 8, 64, 1, 0, 111, 7,
      [⟨0, 32, .rw, 0, []⟩]⟩
  | .CRC_DATA => ⟨0x80014, 8, 64, 1, 0, 0, 7,
      [⟨0, 32, .wo, 0, []⟩]⟩
  | .CRC_DATA2 => ⟨0x80018, 8, 64, 1, 0, 0, 7,
      [⟨0, 32, .wo, 0, []⟩]⟩
  | .CRC_DATA1 => ⟨0x8001C, 8, 64, 1, 0, 0, 7,
      [⟨0, 32, .wo, 0, []⟩]⟩
  | .CRC_REG => ⟨0x80020, 8, 64, 1, 0, 111, 0,
      [⟨0, 32, .ro, 0, []⟩]⟩
  | .CRC_RESULT => ⟨0x80024, 8, 64, 1, 0, 111, 0,
      [⟨0, 32, .ro, 0, []⟩]⟩
  | .CRC_ADDR_LO => ⟨0x80028, 8, 64, 1, 0, 111, 7,
      [⟨0, 32, .rw, 0, []⟩]⟩
  | .CRC_ADDR_HI => ⟨0x8002C, 8, 64, 1, 0, 111, 7,
      [⟨0, 8, .rw, 0, []⟩]⟩
  | .CRC_LEN => ⟨0x80030, 8, 64, 1, 0, 111, 7,
      [⟨0, 29, .rw, 0, []⟩]⟩
  | .CRC_STAT => ⟨0x80034, 8, 64, 1, 0, 111, 7,
      [⟨4, 1, .w1c, 0, []⟩, ⟨3, 1, .w1c, 0, []⟩, ⟨2, 1, .w1c, 0, []⟩, ⟨1, 1, .w1c, 0, []⟩, ⟨0, 1, .ro, 0, []⟩]⟩
  | .CRC_IEN => ⟨0x80038, 8, 64, 1, 0, 111, 7,
      [⟨1, 4, .rw, 0, []⟩]⟩
  | .CRC_BIND => ⟨0x8003C, 8, 64, 1, 0, 111, 7,
      [⟨8, 1, .w1s, 0, []⟩, ⟨0, 5, .rwl, 0, []⟩]⟩
  | .MBX_MSG => ⟨0x30000, 32, 64, 8, 4, 0, 0,
      [⟨0, 32, .rw, 0, []⟩]⟩
  | .MBX_SEND => ⟨0x30020, 32, 64, 1, 0, 0, 0,
      [⟨16, 1, .wo, 0, []⟩, ⟨0, 4, .wo, 0, []⟩]⟩
  | .MBX_TAKE => ⟨0x30024, 32, 64, 1, 0, 0, 0,
      [⟨31, 1, .rc, 0, []⟩, ⟨16, 4, .ro, 0, []⟩, ⟨8, 1, .ro, 0, []⟩, ⟨0, 5, .ro, 0, []⟩]⟩
  | .MBX_STAT => ⟨0x30028, 32, 64, 1, 0, 111, 0,
      [⟨16, 4, .ro, 0, []⟩, ⟨2, 1, .w1c, 0, []⟩, ⟨1, 1, .w1c, 0, []⟩, ⟨0, 1, .ro, 0, []⟩]⟩
  | .MBX_BIND => ⟨0x3002C, 32, 64, 1, 0, 239, 128,
      [⟨31, 1, .rwl, 0, []⟩, ⟨21, 1, .rwl, 0, []⟩, ⟨16, 5, .rwl, 0, []⟩, ⟨5, 1, .rwl, 0, []⟩, ⟨0, 5, .rwl, 0, []⟩]⟩
  | .MBX_LOCK => ⟨0x30800, 1, 0, 1, 0, 239, 128,
      [⟨0, 1, .w1s, 0, []⟩]⟩
  | .MBX_FULL => ⟨0x30804, 1, 0, 1, 0, 111, 5,
      [⟨0, 32, .ro, 0, []⟩]⟩
  | .MBX_TAKEN => ⟨0x30808, 1, 0, 1, 0, 111, 5,
      [⟨0, 32, .w1c, 0, []⟩]⟩
  | .MBX_VIOL => ⟨0x3080C, 1, 0, 1, 0, 111, 5,
      [⟨31, 1, .w1c, 0, []⟩, ⟨30, 1, .w1c, 0, []⟩, ⟨16, 1, .ro, 0, []⟩, ⟨8, 5, .ro, 0, []⟩, ⟨0, 5, .ro, 0, []⟩]⟩
  | .MBX_VIOLCNT => ⟨0x30810, 1, 0, 1, 0, 111, 0,
      [⟨0, 16, .rc, 0, []⟩]⟩
  | .MBX_SEM => ⟨0x31000, 1, 0, 32, 4, 7, 7,
      [⟨31, 1, .ro, 0, []⟩, ⟨30, 1, .ro, 0, []⟩, ⟨16, 1, .wo, 0, []⟩, ⟨8, 1, .ro, 0, []⟩, ⟨0, 5, .ro, 0, []⟩]⟩
  | .MBX_SEMSTAT => ⟨0x31080, 1, 0, 1, 0, 111, 5,
      [⟨0, 32, .ro, 0, []⟩]⟩
  | .MBX_SEMERR => ⟨0x31084, 1, 0, 1, 0, 111, 5,
      [⟨0, 32, .w1c, 0, []⟩]⟩
  | .EVT_ROUTE => ⟨0x20000, 1, 0, 128, 4, 111, 5,
      [⟨31, 1, .w1s, 0, []⟩, ⟨6, 2, .rwl, 0, []⟩, ⟨0, 4, .rwl, 0, []⟩]⟩
  | .EVT_PEND => ⟨0x20200, 1, 0, 4, 4, 111, 13,
      [⟨0, 32, .w1c, 0, []⟩]⟩
  | .EVT_MASK => ⟨0x20210, 1, 0, 4, 4, 111, 5,
      [⟨0, 32, .rw, 0, []⟩]⟩
  | .EVT_SIG => ⟨0x20220, 1, 0, 1, 0, 111, 0,
      [⟨16, 16, .ro, 0, []⟩, ⟨8, 4, .ro, 0, []⟩, ⟨0, 6, .ro, 0, []⟩]⟩
  | .EVT_MERGECNT => ⟨0x20224, 1, 0, 1, 0, 111, 0,
      [⟨0, 32, .rc, 0, []⟩]⟩
  | .QUE_CTL => ⟨0x40000, 16, 256, 1, 0, 111, 12,
      [⟨12, 4, .rw, 1, [(1, 12)]⟩, ⟨8, 4, .rw, 1, [(1, 12)]⟩, ⟨1, 1, .rw, 0, []⟩, ⟨0, 1, .rw, 0, []⟩]⟩
  | .QUE_SQBA_LO => ⟨0x40004, 16, 256, 1, 0, 111, 12,
      [⟨12, 20, .rw, 0, []⟩]⟩
  | .QUE_SQBA_HI => ⟨0x40008, 16, 256, 1, 0, 111, 12,
      [⟨0, 32, .rw, 0, []⟩]⟩
  | .QUE_CQBA_LO => ⟨0x4000C, 16, 256, 1, 0, 111, 12,
      [⟨12, 20, .rw, 0, []⟩]⟩
  | .QUE_CQBA_HI => ⟨0x40010, 16, 256, 1, 0, 111, 12,
      [⟨0, 32, .rw, 0, []⟩]⟩
  | .QUE_STAT => ⟨0x40014, 16, 256, 1, 0, 111, 0,
      [⟨16, 12, .ro, 0, []⟩, ⟨4, 1, .ro, 0, []⟩, ⟨0, 3, .ro, 0, []⟩]⟩
  | .QUE_SQPTR => ⟨0x40018, 16, 256, 1, 0, 111, 0,
      [⟨16, 12, .ro, 0, []⟩, ⟨0, 12, .ro, 0, []⟩]⟩
  | .QUE_CQPTR => ⟨0x4001C, 16, 256, 1, 0, 111, 0,
      [⟨31, 1, .ro, 1, []⟩, ⟨16, 12, .ro, 0, []⟩, ⟨0, 12, .ro, 0, []⟩]⟩
  | .QUE_ERR => ⟨0x40020, 16, 256, 1, 0, 111, 12,
      [⟨4, 1, .w1c, 0, []⟩, ⟨3, 1, .w1c, 0, []⟩, ⟨2, 1, .w1c, 0, []⟩, ⟨1, 1, .w1c, 0, []⟩, ⟨0, 1, .w1c, 0, []⟩]⟩
  | .QUE_FETCHCNT => ⟨0x40024, 16, 256, 1, 0, 111, 0,
      [⟨0, 32, .ro, 0, []⟩]⟩
  | .NPS_CFG => ⟨0xC0000, 16, 128, 1, 0, 111, 1,
      [⟨22, 10, .rwl, 30, [(3, 1000)]⟩, ⟨15, 7, .rwl, 10, [(1, 100)]⟩, ⟨8, 2, .rwl, 0, [(0, 2)]⟩, ⟨7, 1, .rwl, 1, []⟩, ⟨4, 2, .rwl, 1, [(1, 3)]⟩, ⟨0, 1, .rwl, 0, []⟩]⟩
  | .NPS_REMOTE => ⟨0xC0004, 16, 128, 1, 0, 111, 1,
      [⟨0, 16, .rwl, 0, []⟩]⟩
  | .NPS_KEY => ⟨0xC0008, 16, 128, 1, 0, 111, 1,
      [⟨0, 32, .rwl, 0, []⟩]⟩
  | .NPS_MAC_LO => ⟨0xC000C, 16, 128, 1, 0, 111, 1,
      [⟨0, 32, .rwl, 0, []⟩]⟩
  | .NPS_MAC_HI => ⟨0xC0010, 16, 128, 1, 0, 111, 1,
      [⟨0, 16, .rwl, 0, []⟩]⟩
  | .NPS_VLAN => ⟨0xC0014, 16, 128, 1, 0, 111, 1,
      [⟨16, 1, .rwl, 0, []⟩, ⟨13, 3, .rwl, 0, []⟩, ⟨0, 12, .rwl, 0, []⟩]⟩
  | .NPS_STAT => ⟨0xC0018, 16, 128, 1, 0, 111, 0,
      [⟨8, 8, .ro, 0, []⟩, ⟨7, 1, .ro, 0, []⟩, ⟨6, 1, .ro, 0, []⟩, ⟨4, 2, .ro, 0, []⟩, ⟨0, 2, .ro, 0, []⟩]⟩
  | .NPS_TXDATA_LO => ⟨0xC001C, 16, 128, 1, 0, 111, 1,
      [⟨0, 32, .rw, 0, []⟩]⟩
  | .NPS_TXDATA_HI => ⟨0xC0020, 16, 128, 1, 0, 111, 1,
      [⟨0, 32, .rw, 0, []⟩]⟩
  | .NPS_RXDATA_LO => ⟨0xC0024, 16, 128, 1, 0, 111, 0,
      [⟨0, 32, .ro, 0, []⟩]⟩
  | .NPS_RXDATA_HI => ⟨0xC0028, 16, 128, 1, 0, 111, 0,
      [⟨0, 32, .ro, 0, []⟩]⟩
  | .NPS_SEQ_TX => ⟨0xC002C, 16, 128, 1, 0, 111, 0,
      [⟨0, 32, .ro, 0, []⟩]⟩
  | .NPS_SEQ_RX => ⟨0xC0030, 16, 128, 1, 0, 111, 0,
      [⟨0, 32, .ro, 0, []⟩]⟩
  | .NPS_ERR => ⟨0xC0034, 16, 128, 1, 0, 111, 5,
      [⟨7, 1, .w1c, 0, []⟩, ⟨6, 1, .w1c, 0, []⟩, ⟨5, 1, .w1c, 0, []⟩, ⟨4, 1, .w1c, 0, []⟩, ⟨3, 1, .w1c, 0, []⟩, ⟨2, 1, .w1c, 0, []⟩, ⟨1, 1, .w1c, 0, []⟩, ⟨0, 1, .w1c, 0, []⟩]⟩
  | .NPS_CNT => ⟨0xC0038, 16, 128, 1, 0, 111, 0,
      [⟨16, 16, .rc, 0, []⟩, ⟨0, 16, .rc, 0, []⟩]⟩
  | .NPS_DUP => ⟨0xC003C, 16, 128, 1, 0, 111, 0,
      [⟨0, 32, .rc, 0, []⟩]⟩
  | .NPS_AGE => ⟨0xC0040, 16, 128, 1, 0, 111, 0,
      [⟨16, 16, .rc, 0, []⟩, ⟨0, 16, .ro, 0, []⟩]⟩
  | .NPS_GCTL => ⟨0xC0800, 1, 0, 1, 0, 111, 1,
      [⟨31, 1, .w1s, 0, []⟩, ⟨0, 16, .rwl, 0, []⟩]⟩
  | .NPS_PADDR => ⟨0xC0810, 1, 0, 4, 4, 111, 0,
      [⟨0, 32, .ro, 0, []⟩]⟩
  | .NPS_PSTAT => ⟨0xC0820, 1, 0, 1, 0, 111, 0,
      [⟨0, 32, .ro, 0, []⟩]⟩
  | .OTP_STAT => ⟨0x50000, 1, 0, 1, 0, 111, 5,
      [⟨7, 1, .w1c, 0, []⟩, ⟨6, 1, .ro, 0, []⟩, ⟨5, 1, .ro, 0, []⟩, ⟨4, 1, .w1c, 0, []⟩, ⟨3, 1, .ro, 0, []⟩, ⟨2, 1, .ro, 0, []⟩, ⟨1, 1, .ro, 0, []⟩, ⟨0, 1, .ro, 0, []⟩]⟩
  | .OTP_REGION => ⟨0x50010, 1, 0, 8, 4, 111, 0,
      [⟨31, 1, .ro, 0, []⟩, ⟨16, 10, .ro, 0, []⟩, ⟨8, 8, .ro, 0, []⟩, ⟨0, 3, .ro, 0, []⟩]⟩
  | .OTP_CFGDUSED => ⟨0x50030, 1, 0, 1, 0, 111, 0,
      [⟨0, 32, .ro, 0, []⟩]⟩
  | .OTP_CFGDOK => ⟨0x50034, 1, 0, 1, 0, 111, 0,
      [⟨0, 32, .ro, 0, []⟩]⟩
  | .OTP_CFGDNEW => ⟨0x50038, 1, 0, 1, 0, 111, 0,
      [⟨0, 32, .ro, 0, []⟩]⟩
  | .OTP_RBKCNT => ⟨0x5003C, 1, 0, 1, 0, 111, 0,
      [⟨0, 32, .ro, 0, []⟩]⟩
  | .OTP_CRIT => ⟨0x50040, 1, 0, 1, 0, 111, 0,
      [⟨0, 32, .ro, 0, []⟩]⟩
  | .OTP_MARGW => ⟨0x50044, 1, 0, 1, 0, 111, 0,
      [⟨0, 32, .ro, 0, []⟩]⟩
  | .OTP_CTL => ⟨0x50080, 1, 0, 1, 0, 239, 128,
      [⟨1, 1, .w1s, 0, []⟩, ⟨0, 1, .w1s, 0, []⟩]⟩
  | .OTP_CMD => ⟨0x50084, 1, 0, 1, 0, 0, 69,
      [⟨8, 8, .wo, 0, []⟩, ⟨0, 4, .wo, 0, []⟩]⟩
  | .OTP_ADDR => ⟨0x50088, 1, 0, 1, 0, 111, 69,
      [⟨0, 10, .rw, 0, []⟩]⟩
  | .OTP_WDATA => ⟨0x5008C, 1, 0, 1, 0, 111, 69,
      [⟨0, 32, .rw, 0, []⟩]⟩
  | .OTP_CDIG => ⟨0x50090, 1, 0, 8, 4, 111, 5,
      [⟨0, 32, .rw, 0, []⟩]⟩
  | .OTP_RESULT => ⟨0x500B0, 1, 0, 1, 0, 111, 0,
      [⟨4, 4, .ro, 0, []⟩, ⟨0, 4, .ro, 0, []⟩]⟩
  | .OTP_SCAN => ⟨0x500B4, 1, 0, 1, 0, 111, 0,
      [⟨31, 1, .ro, 0, []⟩, ⟨16, 8, .ro, 0, []⟩, ⟨0, 10, .ro, 0, []⟩]⟩
  | .OTP_DATA => ⟨0x51000, 1, 0, 1024, 4, 111, 0,
      [⟨0, 32, .ro, 0, []⟩]⟩
  | .SEC_STAT => ⟨0x60000, 1, 0, 1, 0, 111, 0,
      [⟨8, 8, .ro, 0, []⟩, ⟨6, 1, .ro, 0, []⟩, ⟨5, 1, .ro, 0, []⟩, ⟨4, 1, .ro, 0, []⟩, ⟨3, 1, .ro, 0, []⟩, ⟨2, 1, .ro, 0, []⟩, ⟨1, 1, .ro, 0, []⟩, ⟨0, 1, .ro, 0, []⟩]⟩
  | .SEC_CMD => ⟨0x60004, 1, 0, 1, 0, 0, 5,
      [⟨8, 4, .wo, 0, []⟩, ⟨0, 4, .wo, 0, []⟩]⟩
  | .SEC_TAG_LO => ⟨0x60008, 1, 0, 1, 0, 111, 5,
      [⟨0, 32, .rw, 0, []⟩]⟩
  | .SEC_TAG_HI => ⟨0x6000C, 1, 0, 1, 0, 111, 5,
      [⟨0, 32, .rw, 0, []⟩]⟩
  | .SEC_SRC_LO => ⟨0x60010, 1, 0, 1, 0, 111, 5,
      [⟨0, 32, .rw, 0, []⟩]⟩
  | .SEC_SRC_HI => ⟨0x60014, 1, 0, 1, 0, 111, 5,
      [⟨0, 8, .rw, 0, []⟩]⟩
  | .SEC_LEN => ⟨0x60018, 1, 0, 1, 0, 111, 5,
      [⟨0, 32, .rw, 0, []⟩]⟩
  | .SEC_RESULT => ⟨0x6001C, 1, 0, 1, 0, 111, 0,
      [⟨0, 4, .ro, 0, []⟩]⟩
  | .SEC_DIG => ⟨0x60020, 1, 0, 8, 4, 111, 0,
      [⟨0, 32, .ro, 0, []⟩]⟩
  | .SEC_EVT => ⟨0x60040, 1, 0, 1, 0, 111, 5,
      [⟨0, 5, .w1c, 0, []⟩]⟩
  | .SEC_IEN => ⟨0x60044, 1, 0, 1, 0, 111, 5,
      [⟨0, 5, .rw, 31, []⟩]⟩
  | .SEC_BIND => ⟨0x60048, 1, 0, 1, 0, 111, 5,
      [⟨8, 1, .w1s, 0, []⟩, ⟨0, 5, .rwl, 0, []⟩]⟩
  | .SEC_RIND => ⟨0x60050, 1, 0, 1, 0, 111, 0,
      [⟨0, 8, .ro, 0, []⟩]⟩
  | .SEC_DBGCHAL => ⟨0x60060, 1, 0, 8, 4, 111, 0,
      [⟨0, 32, .ro, 0, []⟩]⟩
  | .SEC_BUF => ⟨0x60200, 1, 0, 128, 4, 5, 5,
      [⟨0, 32, .rw, 0, []⟩]⟩
  | .CLK_STAT => ⟨0x10000, 1, 0, 1, 0, 111, 0,
      [⟨7, 1, .ro, 0, []⟩, ⟨6, 1, .ro, 0, []⟩, ⟨5, 1, .ro, 0, []⟩, ⟨4, 1, .ro, 0, []⟩, ⟨3, 1, .ro, 0, []⟩, ⟨2, 1, .ro, 0, []⟩, ⟨1, 1, .ro, 0, []⟩, ⟨0, 1, .ro, 0, []⟩]⟩
  | .CLK_RSTCAUSE => ⟨0x10004, 1, 0, 1, 0, 111, 5,
      [⟨6, 1, .w1c, 0, []⟩, ⟨5, 1, .w1c, 0, []⟩, ⟨4, 1, .w1c, 0, []⟩, ⟨3, 1, .w1c, 0, []⟩, ⟨2, 1, .w1c, 0, []⟩, ⟨1, 1, .w1c, 0, []⟩, ⟨0, 1, .w1c, 1, []⟩]⟩
  | .CLK_RSTREQ => ⟨0x10008, 1, 0, 1, 0, 0, 4,
      [⟨16, 16, .wo, 0, []⟩, ⟨0, 1, .wo, 0, []⟩]⟩
  | .CLK_BOOT => ⟨0x1000C, 1, 0, 1, 0, 239, 132,
      [⟨16, 16, .ro, 0, []⟩, ⟨0, 4, .rw, 1, [(1, 8), (15, 15)]⟩]⟩
  | .CLK_GATE => ⟨0x10010, 1, 0, 1, 0, 111, 5,
      [⟨1, 4, .rw, 15, []⟩, ⟨0, 1, .rw, 1, []⟩]⟩
  | .CLK_XMON => ⟨0x10014, 1, 0, 1, 0, 111, 0,
      [⟨30, 2, .ro, 0, []⟩, ⟨28, 2, .ro, 0, []⟩, ⟨18, 10, .ro, 0, []⟩, ⟨0, 17, .ro, 0, []⟩]⟩
  | .CLK_TEMP => ⟨0x10020, 1, 0, 4, 4, 111, 0,
      [⟨16, 16, .ro, 0, []⟩, ⟨0, 16, .ro, 0, []⟩]⟩
  | .CLK_THCFG => ⟨0x10030, 1, 0, 1, 0, 111, 5,
      [⟨0, 8, .rw, 105, [(70, 125)]⟩]⟩
  | .CLK_VMON => ⟨0x10034, 1, 0, 1, 0, 111, 0,
      [⟨16, 16, .ro, 0, []⟩, ⟨0, 16, .ro, 0, []⟩]⟩
  | .CLK_EVT => ⟨0x10038, 1, 0, 1, 0, 111, 5,
      [⟨7, 1, .w1c, 0, []⟩, ⟨6, 1, .w1c, 0, []⟩, ⟨5, 1, .w1c, 0, []⟩, ⟨4, 1, .w1c, 0, []⟩, ⟨3, 1, .w1c, 0, []⟩, ⟨2, 1, .w1c, 0, []⟩, ⟨1, 1, .w1c, 0, []⟩, ⟨0, 1, .w1c, 0, []⟩]⟩
  | .CLK_IEN => ⟨0x1003C, 1, 0, 1, 0, 111, 5,
      [⟨7, 1, .rw, 1, []⟩, ⟨6, 1, .rw, 1, []⟩, ⟨5, 1, .rw, 1, []⟩, ⟨4, 1, .rw, 1, []⟩, ⟨3, 1, .rw, 1, []⟩, ⟨2, 1, .rw, 1, []⟩, ⟨1, 1, .rw, 1, []⟩, ⟨0, 1, .rw, 1, []⟩]⟩
  | .CLK_WARMCNT => ⟨0x10040, 1, 0, 1, 0, 111, 0,
      [⟨0, 16, .ro, 0, []⟩]⟩

/-- Registers of GLB. -/
def regs0 : List Reg :=
  [.GLB_ID, .GLB_FAMILY, .GLB_ROMVER, .GLB_FWVER, .GLB_IFVER, .GLB_LIFE, .GLB_STATE, .GLB_SERIAL, .GLB_CFGDIG, .GLB_AVIOL, .GLB_AVADDR, .GLB_AVCNT, .GLB_NOCLR]

/-- Registers of XLK. -/
def regs1 : List Reg :=
  [.XLK_STAT, .XLK_ERR, .XLK_RETRYCNT, .XLK_BDIG, .XLK_BSEO, .XLK_BENGF, .XLK_BENGC, .XLK_BRPTCNT, .XLK_BDI, .XLK_BTPF, .XLK_BTP, .XLK_BSO, .XLK_BFLINK, .XLK_SMEAS, .XLK_SCUR, .XLK_SCLI, .XLK_BZONE, .XLK_BENV, .XLK_BSEL, .XLK_BNPS, .XLK_BNPSV, .XLK_BHEALTH]

/-- Registers of DDR. -/
def regs2 : List Reg :=
  [.DDR_STAT, .DDR_EVT, .DDR_IEN, .DDR_CECNT, .DDR_UECNT, .DDR_UEADDR_LO, .DDR_UEADDR_HI, .DDR_UEMST, .DDR_SCRUB]

/-- Registers of LANE. -/
def regs3 : List Reg :=
  [.LANE_CTL, .LANE_STAT, .LANE_CFG, .LANE_SLOT, .LANE_CRC_POLY, .LANE_CRC_INIT, .LANE_CRC_XOR, .LANE_CRC_CFG, .LANE_CRC_ID, .LANE_PEER_CAP, .LANE_SEQ, .LANE_LAYER, .LANE_SLOTCNT, .LANE_ERR, .LANE_ERRCNT, .LANE_HOLDCNT, .LANE_OVRCNT, .LANE_FRMCNT, .LANE_IEN, .LANE_EG_STAT, .LANE_EG_CFG, .LANE_EG_CRC_POLY, .LANE_EG_CRC_INIT, .LANE_EG_CRC_XOR, .LANE_EG_CRC_CFG, .LANE_EG_CRC_ID, .LANE_EG_PEER_CAP, .LANE_EG_SEGCNT, .LANE_EG_BLKCNT, .LANE_EG_ERR]

/-- Registers of CHK. -/
def regs4 : List Reg :=
  [.CHK_CTL, .CHK_STAT, .CHK_CEOFF, .CHK_CESTAT, .CHK_ZOPEN, .CHK_TRIP, .CHK_PEAK_EP, .CHK_HAZ_LIM, .CHK_RR, .CHK_EGRP, .CHK_ZMAP_SRC, .CHK_ENV_CTL, .CHK_ENV_SRC, .CHK_ENV_STAT, .CHK_ENV_VLD, .CHK_ENV_ACT, .CHK_ENV_DIG, .CHK_ERR, .CHK_IEN, .CHK_OVRCNT, .CHK_ECCCNT, .CHK_ECCADDR]

/-- Registers of ZONE. -/
def regs5 : List Reg :=
  [.ZONE_CFG, .ZONE_LIM, .ZONE_COLD, .ZONE_COLDREL, .ZONE_TOUCH, .ZONE_STAT, .ZONE_PEAK, .ZONE_CNT]

/-- Registers of REL. -/
def regs6 : List Reg :=
  [.REL_SEO, .REL_STAT, .REL_CFG, .REL_ERR, .REL_IEN, .REL_RELCNT, .REL_BTOCNT, .REL_BFAILCNT, .REL_ZMCNT, .REL_LAT]

/-- Registers of LDG. -/
def regs7 : List Reg :=
  [.LDG_CTL, .LDG_CFG, .LDG_ENGMASK, .LDG_STAT, .LDG_WRSEQ_LO, .LDG_WRSEQ_HI, .LDG_CLSEQ_LO, .LDG_CLSEQ_HI, .LDG_RDSEQ_LO, .LDG_RDSEQ_HI, .LDG_EVT, .LDG_IEN, .LDG_WARN, .LDG_LOST, .LDG_NONCE, .LDG_HDIG]

/-- Registers of SFN. -/
def regs8 : List Reg :=
  [.SFN_STAT, .SFN_CFG, .SFN_IN, .SFN_TR, .SFN_CTL, .SFN_TC, .SFN_CYCLE, .SFN_XSTAT, .SFN_XMISS, .SFN_OVRCNT, .SFN_RST, .SFN_RSTONE, .SFN_RESA, .SFN_RESB, .SFN_CAUSEB, .SFN_XDV]

/-- Registers of DI. -/
def regs9 : List Reg :=
  [.DI_CFG, .DI_STAT, .DI_TPLAST, .DI_CHGCNT]

/-- Registers of TP. -/
def regs10 : List Reg :=
  [.TP_CFG, .TP_STAT, .TP_FLT, .TP_PCNT]

/-- Registers of TPG. -/
def regs11 : List Reg :=
  [.TPG_CTL, .TPG_CFG, .TPG_STAT, .TPG_PERIOD]

/-- Registers of SO. -/
def regs12 : List Reg :=
  [.SO_CMD, .SO_CFG, .SO_STAT, .SO_FLT, .SO_OPCNT, .SO_FCNT]

/-- Registers of DQ. -/
def regs13 : List Reg :=
  [.DQ_CTL, .DQ_CFG, .DQ_STAT, .DQ_FLT, .DQ_FCNT]

/-- Registers of CLI. -/
def regs14 : List Reg :=
  [.CLI_CFG, .CLI_PVLO, .CLI_PVHI, .CLI_OFS, .CLI_GAIN, .CLI_RAW, .CLI_MEAS, .CLI_CUR, .CLI_PV, .CLI_SCUR, .CLI_STAT, .CLI_FLT, .CLI_TBL]

/-- Registers of CLO. -/
def regs15 : List Reg :=
  [.CLO_CTL, .CLO_SET, .CLO_CFG, .CLO_STAT, .CLO_MEAS, .CLO_FLT]

/-- Registers of SUP. -/
def regs16 : List Reg :=
  [.SUP_STAT, .SUP_VOLT, .SUP_CUR, .SUP_ERR, .SUP_CUTCNT, .SUP_CTL]

/-- Registers of POD. -/
def regs17 : List Reg :=
  [.POD_STAT, .POD_CTL, .POD_CFG, .POD_MMINFO, .POD_MMADDR, .POD_MMTIME_LO, .POD_MMTIME_HI, .POD_MMCNT, .POD_INJ, .POD_REJ, .POD_PAIR, .POD_OWN_SO, .POD_OWN_SEO, .POD_OWN_ZONE, .POD_SPLITCFG, .POD_IMGSRC, .POD_IMGDIG]

/-- Registers of TMR. -/
def regs18 : List Reg :=
  [.TMR_CTL, .TMR_CNT, .TMR_RELOAD, .TMR_CMP, .TMR_RELOAD_ACT, .TMR_CMP_ACT, .TMR_CAP, .TMR_CAPCFG, .TMR_STAT, .TMR_IEN, .TMR_BIND]

/-- Registers of CRC. -/
def regs19 : List Reg :=
  [.CRC_CTL, .CRC_CFG, .CRC_POLY, .CRC_INIT, .CRC_XOR, .CRC_DATA, .CRC_DATA2, .CRC_DATA1, .CRC_REG, .CRC_RESULT, .CRC_ADDR_LO, .CRC_ADDR_HI, .CRC_LEN, .CRC_STAT, .CRC_IEN, .CRC_BIND]

/-- Registers of MBX. -/
def regs20 : List Reg :=
  [.MBX_MSG, .MBX_SEND, .MBX_TAKE, .MBX_STAT, .MBX_BIND, .MBX_LOCK, .MBX_FULL, .MBX_TAKEN, .MBX_VIOL, .MBX_VIOLCNT, .MBX_SEM, .MBX_SEMSTAT, .MBX_SEMERR]

/-- Registers of EVT. -/
def regs21 : List Reg :=
  [.EVT_ROUTE, .EVT_PEND, .EVT_MASK, .EVT_SIG, .EVT_MERGECNT]

/-- Registers of QUE. -/
def regs22 : List Reg :=
  [.QUE_CTL, .QUE_SQBA_LO, .QUE_SQBA_HI, .QUE_CQBA_LO, .QUE_CQBA_HI, .QUE_STAT, .QUE_SQPTR, .QUE_CQPTR, .QUE_ERR, .QUE_FETCHCNT]

/-- Registers of NPS. -/
def regs23 : List Reg :=
  [.NPS_CFG, .NPS_REMOTE, .NPS_KEY, .NPS_MAC_LO, .NPS_MAC_HI, .NPS_VLAN, .NPS_STAT, .NPS_TXDATA_LO, .NPS_TXDATA_HI, .NPS_RXDATA_LO, .NPS_RXDATA_HI, .NPS_SEQ_TX, .NPS_SEQ_RX, .NPS_ERR, .NPS_CNT, .NPS_DUP, .NPS_AGE, .NPS_GCTL, .NPS_PADDR, .NPS_PSTAT]

/-- Registers of OTP. -/
def regs24 : List Reg :=
  [.OTP_STAT, .OTP_REGION, .OTP_CFGDUSED, .OTP_CFGDOK, .OTP_CFGDNEW, .OTP_RBKCNT, .OTP_CRIT, .OTP_MARGW, .OTP_CTL, .OTP_CMD, .OTP_ADDR, .OTP_WDATA, .OTP_CDIG, .OTP_RESULT, .OTP_SCAN, .OTP_DATA]

/-- Registers of SEC. -/
def regs25 : List Reg :=
  [.SEC_STAT, .SEC_CMD, .SEC_TAG_LO, .SEC_TAG_HI, .SEC_SRC_LO, .SEC_SRC_HI, .SEC_LEN, .SEC_RESULT, .SEC_DIG, .SEC_EVT, .SEC_IEN, .SEC_BIND, .SEC_RIND, .SEC_DBGCHAL, .SEC_BUF]

/-- Registers of CLK. -/
def regs26 : List Reg :=
  [.CLK_STAT, .CLK_RSTCAUSE, .CLK_RSTREQ, .CLK_BOOT, .CLK_GATE, .CLK_XMON, .CLK_TEMP, .CLK_THCFG, .CLK_VMON, .CLK_EVT, .CLK_IEN, .CLK_WARMCNT]

/-- Every register, in the order of `Reg`. -/
def allRegs : List Reg :=
  regs0 ++ regs1 ++ regs2 ++ regs3 ++ regs4 ++ regs5 ++ regs6 ++ regs7 ++ regs8 ++ regs9 ++ regs10 ++ regs11 ++ regs12 ++ regs13 ++ regs14 ++ regs15 ++ regs16 ++ regs17 ++ regs18 ++ regs19 ++ regs20 ++ regs21 ++ regs22 ++ regs23 ++ regs24 ++ regs25 ++ regs26

/-- The number of a register in `allRegs`. -/
def Reg.idx (r : Reg) : Nat := r.ctorIdx

/-- The word a register holds at POR and WARM reset (R17). -/
def Reg.resetWord (r : Reg) : Word :=
  BitVec.ofNat 32 (r.info.fields.foldl (fun a f => a + f.rst * 2 ^ f.lo) 0)

/-- The place of word `n` of register `r` in the register file. -/
def Reg.key (r : Reg) (n : Nat) : Nat := n * 512 + r.idx

/-- What an unlisted place of the register file reads as: the reset value of its register. -/
def regDefault (k : Nat) : Word := (allRegs.getD (k % 512) .GLB_ID).resetWord

/-- A named field of a register. -/
structure Fld where
  reg : Reg
  lo : Nat
  w : Nat
deriving DecidableEq, Repr

end Sys2Proof.Machine

namespace Sys2Proof.Machine.F

/-- GLB_ID.DEVICE -/
abbrev GLB_ID_DEVICE : Fld := ⟨.GLB_ID, 16, 16⟩
/-- GLB_ID.ASTEP -/
abbrev GLB_ID_ASTEP : Fld := ⟨.GLB_ID, 8, 8⟩
/-- GLB_ID.BSTEP -/
abbrev GLB_ID_BSTEP : Fld := ⟨.GLB_ID, 0, 8⟩
/-- GLB_FAMILY.VENDOR -/
abbrev GLB_FAMILY_VENDOR : Fld := ⟨.GLB_FAMILY, 16, 16⟩
/-- GLB_FAMILY.FAMILY -/
abbrev GLB_FAMILY_FAMILY : Fld := ⟨.GLB_FAMILY, 8, 8⟩
/-- GLB_ROMVER.MAJOR -/
abbrev GLB_ROMVER_MAJOR : Fld := ⟨.GLB_ROMVER, 16, 16⟩
/-- GLB_ROMVER.MINOR -/
abbrev GLB_ROMVER_MINOR : Fld := ⟨.GLB_ROMVER, 0, 16⟩
/-- GLB_FWVER.MAJOR -/
abbrev GLB_FWVER_MAJOR : Fld := ⟨.GLB_FWVER, 16, 16⟩
/-- GLB_FWVER.MINOR -/
abbrev GLB_FWVER_MINOR : Fld := ⟨.GLB_FWVER, 0, 16⟩
/-- GLB_IFVER.NSL_MAJ -/
abbrev GLB_IFVER_NSL_MAJ : Fld := ⟨.GLB_IFVER, 28, 4⟩
/-- GLB_IFVER.NSL_MIN -/
abbrev GLB_IFVER_NSL_MIN : Fld := ⟨.GLB_IFVER, 24, 4⟩
/-- GLB_IFVER.NPS_MAJ -/
abbrev GLB_IFVER_NPS_MAJ : Fld := ⟨.GLB_IFVER, 20, 4⟩
/-- GLB_IFVER.NPS_MIN -/
abbrev GLB_IFVER_NPS_MIN : Fld := ⟨.GLB_IFVER, 16, 4⟩
/-- GLB_IFVER.PKG -/
abbrev GLB_IFVER_PKG : Fld := ⟨.GLB_IFVER, 12, 4⟩
/-- GLB_IFVER.XLK -/
abbrev GLB_IFVER_XLK : Fld := ⟨.GLB_IFVER, 8, 4⟩
/-- GLB_IFVER.NCP1_MIN -/
abbrev GLB_IFVER_NCP1_MIN : Fld := ⟨.GLB_IFVER, 4, 4⟩
/-- GLB_IFVER.NCP2_MIN -/
abbrev GLB_IFVER_NCP2_MIN : Fld := ⟨.GLB_IFVER, 0, 4⟩
/-- GLB_LIFE.INTEGRITY -/
abbrev GLB_LIFE_INTEGRITY : Fld := ⟨.GLB_LIFE, 8, 1⟩
/-- GLB_LIFE.LC -/
abbrev GLB_LIFE_LC : Fld := ⟨.GLB_LIFE, 0, 3⟩
/-- GLB_STATE.SLOT_VALID -/
abbrev GLB_STATE_SLOT_VALID : Fld := ⟨.GLB_STATE, 23, 1⟩
/-- GLB_STATE.CFG_SLOT -/
abbrev GLB_STATE_CFG_SLOT : Fld := ⟨.GLB_STATE, 18, 5⟩
/-- GLB_STATE.HOLD_CAUSE -/
abbrev GLB_STATE_HOLD_CAUSE : Fld := ⟨.GLB_STATE, 8, 4⟩
/-- GLB_STATE.STATE -/
abbrev GLB_STATE_STATE : Fld := ⟨.GLB_STATE, 0, 4⟩
/-- GLB_SERIAL.SERIAL -/
abbrev GLB_SERIAL_SERIAL : Fld := ⟨.GLB_SERIAL, 0, 32⟩
/-- GLB_CFGDIG.DIGEST -/
abbrev GLB_CFGDIG_DIGEST : Fld := ⟨.GLB_CFGDIG, 0, 32⟩
/-- GLB_AVIOL.VALID -/
abbrev GLB_AVIOL_VALID : Fld := ⟨.GLB_AVIOL, 31, 1⟩
/-- GLB_AVIOL.OVF -/
abbrev GLB_AVIOL_OVF : Fld := ⟨.GLB_AVIOL, 30, 1⟩
/-- GLB_AVIOL.WRITE -/
abbrev GLB_AVIOL_WRITE : Fld := ⟨.GLB_AVIOL, 8, 1⟩
/-- GLB_AVIOL.MASTER -/
abbrev GLB_AVIOL_MASTER : Fld := ⟨.GLB_AVIOL, 0, 5⟩
/-- GLB_AVADDR.ADDR -/
abbrev GLB_AVADDR_ADDR : Fld := ⟨.GLB_AVADDR, 0, 32⟩
/-- GLB_AVCNT.COUNT -/
abbrev GLB_AVCNT_COUNT : Fld := ⟨.GLB_AVCNT, 0, 16⟩
/-- GLB_NOCLR.NOCLR -/
abbrev GLB_NOCLR_NOCLR : Fld := ⟨.GLB_NOCLR, 0, 32⟩
/-- XLK_STAT.BSTATE -/
abbrev XLK_STAT_BSTATE : Fld := ⟨.XLK_STAT, 20, 4⟩
/-- XLK_STAT.BVER -/
abbrev XLK_STAT_BVER : Fld := ⟨.XLK_STAT, 16, 4⟩
/-- XLK_STAT.BRUN -/
abbrev XLK_STAT_BRUN : Fld := ⟨.XLK_STAT, 8, 1⟩
/-- XLK_STAT.CFGOK -/
abbrev XLK_STAT_CFGOK : Fld := ⟨.XLK_STAT, 7, 1⟩
/-- XLK_STAT.DIGVALID -/
abbrev XLK_STAT_DIGVALID : Fld := ⟨.XLK_STAT, 6, 1⟩
/-- XLK_STAT.SELFTEST_OK -/
abbrev XLK_STAT_SELFTEST_OK : Fld := ⟨.XLK_STAT, 5, 1⟩
/-- XLK_STAT.VER_OK -/
abbrev XLK_STAT_VER_OK : Fld := ⟨.XLK_STAT, 4, 1⟩
/-- XLK_STAT.MIRROR_VALID -/
abbrev XLK_STAT_MIRROR_VALID : Fld := ⟨.XLK_STAT, 3, 1⟩
/-- XLK_STAT.XLKC_UP -/
abbrev XLK_STAT_XLKC_UP : Fld := ⟨.XLK_STAT, 2, 1⟩
/-- XLK_STAT.XLKD_UP -/
abbrev XLK_STAT_XLKD_UP : Fld := ⟨.XLK_STAT, 1, 1⟩
/-- XLK_ERR.VERSION -/
abbrev XLK_ERR_VERSION : Fld := ⟨.XLK_ERR, 7, 1⟩
/-- XLK_ERR.BSTAT_LATE -/
abbrev XLK_ERR_BSTAT_LATE : Fld := ⟨.XLK_ERR, 6, 1⟩
/-- XLK_ERR.XLKC_DROP -/
abbrev XLK_ERR_XLKC_DROP : Fld := ⟨.XLK_ERR, 5, 1⟩
/-- XLK_ERR.XLKD_DROP -/
abbrev XLK_ERR_XLKD_DROP : Fld := ⟨.XLK_ERR, 4, 1⟩
/-- XLK_ERR.XLKC_DOWN -/
abbrev XLK_ERR_XLKC_DOWN : Fld := ⟨.XLK_ERR, 3, 1⟩
/-- XLK_ERR.XLKD_DOWN -/
abbrev XLK_ERR_XLKD_DOWN : Fld := ⟨.XLK_ERR, 2, 1⟩
/-- XLK_ERR.XLKC_RETRY -/
abbrev XLK_ERR_XLKC_RETRY : Fld := ⟨.XLK_ERR, 1, 1⟩
/-- XLK_ERR.XLKD_RETRY -/
abbrev XLK_ERR_XLKD_RETRY : Fld := ⟨.XLK_ERR, 0, 1⟩
/-- XLK_RETRYCNT.XLKC -/
abbrev XLK_RETRYCNT_XLKC : Fld := ⟨.XLK_RETRYCNT, 16, 16⟩
/-- XLK_RETRYCNT.XLKD -/
abbrev XLK_RETRYCNT_XLKD : Fld := ⟨.XLK_RETRYCNT, 0, 16⟩
/-- XLK_BDIG.DIGEST -/
abbrev XLK_BDIG_DIGEST : Fld := ⟨.XLK_BDIG, 0, 32⟩
/-- XLK_BSEO.HI -/
abbrev XLK_BSEO_HI : Fld := ⟨.XLK_BSEO, 16, 16⟩
/-- XLK_BSEO.LO -/
abbrev XLK_BSEO_LO : Fld := ⟨.XLK_BSEO, 0, 16⟩
/-- XLK_BENGF.HI -/
abbrev XLK_BENGF_HI : Fld := ⟨.XLK_BENGF, 16, 16⟩
/-- XLK_BENGF.LO -/
abbrev XLK_BENGF_LO : Fld := ⟨.XLK_BENGF, 0, 16⟩
/-- XLK_BENGC.CAUSE -/
abbrev XLK_BENGC_CAUSE : Fld := ⟨.XLK_BENGC, 0, 32⟩
/-- XLK_BRPTCNT.COUNT -/
abbrev XLK_BRPTCNT_COUNT : Fld := ⟨.XLK_BRPTCNT, 0, 32⟩
/-- XLK_BDI.FILT -/
abbrev XLK_BDI_FILT : Fld := ⟨.XLK_BDI, 0, 32⟩
/-- XLK_BTPF.TPF -/
abbrev XLK_BTPF_TPF : Fld := ⟨.XLK_BTPF, 0, 32⟩
/-- XLK_BTP.HI -/
abbrev XLK_BTP_HI : Fld := ⟨.XLK_BTP, 16, 16⟩
/-- XLK_BTP.LO -/
abbrev XLK_BTP_LO : Fld := ⟨.XLK_BTP, 0, 16⟩
/-- XLK_BSO.HI -/
abbrev XLK_BSO_HI : Fld := ⟨.XLK_BSO, 16, 16⟩
/-- XLK_BSO.LO -/
abbrev XLK_BSO_LO : Fld := ⟨.XLK_BSO, 0, 16⟩
/-- XLK_BFLINK.F1 -/
abbrev XLK_BFLINK_F1 : Fld := ⟨.XLK_BFLINK, 1, 1⟩
/-- XLK_BFLINK.F0 -/
abbrev XLK_BFLINK_F0 : Fld := ⟨.XLK_BFLINK, 0, 1⟩
/-- XLK_SMEAS.VALUE -/
abbrev XLK_SMEAS_VALUE : Fld := ⟨.XLK_SMEAS, 0, 32⟩
/-- XLK_SCUR.VALUE -/
abbrev XLK_SCUR_VALUE : Fld := ⟨.XLK_SCUR, 0, 32⟩
/-- XLK_SCLI.VALID -/
abbrev XLK_SCLI_VALID : Fld := ⟨.XLK_SCLI, 16, 8⟩
/-- XLK_SCLI.NE_HI -/
abbrev XLK_SCLI_NE_HI : Fld := ⟨.XLK_SCLI, 8, 8⟩
/-- XLK_SCLI.NE_LO -/
abbrev XLK_SCLI_NE_LO : Fld := ⟨.XLK_SCLI, 0, 8⟩
/-- XLK_BZONE.OPEN -/
abbrev XLK_BZONE_OPEN : Fld := ⟨.XLK_BZONE, 0, 32⟩
/-- XLK_BENV.VALUE -/
abbrev XLK_BENV_VALUE : Fld := ⟨.XLK_BENV, 0, 32⟩
/-- XLK_BSEL.VALUE -/
abbrev XLK_BSEL_VALUE : Fld := ⟨.XLK_BSEL, 0, 32⟩
/-- XLK_BNPS.VALUE -/
abbrev XLK_BNPS_VALUE : Fld := ⟨.XLK_BNPS, 0, 32⟩
/-- XLK_BNPSV.VALUE -/
abbrev XLK_BNPSV_VALUE : Fld := ⟨.XLK_BNPSV, 0, 32⟩
/-- XLK_BHEALTH.THERM -/
abbrev XLK_BHEALTH_THERM : Fld := ⟨.XLK_BHEALTH, 3, 1⟩
/-- XLK_BHEALTH.VSYSB_OK -/
abbrev XLK_BHEALTH_VSYSB_OK : Fld := ⟨.XLK_BHEALTH, 2, 1⟩
/-- XLK_BHEALTH.BPLL_LOCK -/
abbrev XLK_BHEALTH_BPLL_LOCK : Fld := ⟨.XLK_BHEALTH, 1, 1⟩
/-- XLK_BHEALTH.XB_OK -/
abbrev XLK_BHEALTH_XB_OK : Fld := ⟨.XLK_BHEALTH, 0, 1⟩
/-- DDR_STAT.SCRUB_RUN -/
abbrev DDR_STAT_SCRUB_RUN : Fld := ⟨.DDR_STAT, 16, 1⟩
/-- DDR_STAT.REFRATE -/
abbrev DDR_STAT_REFRATE : Fld := ⟨.DDR_STAT, 8, 8⟩
/-- DDR_STAT.WIPED -/
abbrev DDR_STAT_WIPED : Fld := ⟨.DDR_STAT, 3, 1⟩
/-- DDR_STAT.ECC_ON -/
abbrev DDR_STAT_ECC_ON : Fld := ⟨.DDR_STAT, 2, 1⟩
/-- DDR_STAT.TRAINED -/
abbrev DDR_STAT_TRAINED : Fld := ⟨.DDR_STAT, 1, 1⟩
/-- DDR_EVT.TEMP -/
abbrev DDR_EVT_TEMP : Fld := ⟨.DDR_EVT, 3, 1⟩
/-- DDR_EVT.TRAIN_FAIL -/
abbrev DDR_EVT_TRAIN_FAIL : Fld := ⟨.DDR_EVT, 2, 1⟩
/-- DDR_EVT.UE -/
abbrev DDR_EVT_UE : Fld := ⟨.DDR_EVT, 1, 1⟩
/-- DDR_EVT.CE -/
abbrev DDR_EVT_CE : Fld := ⟨.DDR_EVT, 0, 1⟩
/-- DDR_IEN.TEMP -/
abbrev DDR_IEN_TEMP : Fld := ⟨.DDR_IEN, 3, 1⟩
/-- DDR_IEN.TRAIN_FAIL -/
abbrev DDR_IEN_TRAIN_FAIL : Fld := ⟨.DDR_IEN, 2, 1⟩
/-- DDR_IEN.UE -/
abbrev DDR_IEN_UE : Fld := ⟨.DDR_IEN, 1, 1⟩
/-- DDR_IEN.CE -/
abbrev DDR_IEN_CE : Fld := ⟨.DDR_IEN, 0, 1⟩
/-- DDR_CECNT.COUNT -/
abbrev DDR_CECNT_COUNT : Fld := ⟨.DDR_CECNT, 0, 32⟩
/-- DDR_UECNT.COUNT -/
abbrev DDR_UECNT_COUNT : Fld := ⟨.DDR_UECNT, 0, 32⟩
/-- DDR_UEADDR_LO.VALUE -/
abbrev DDR_UEADDR_LO_VALUE : Fld := ⟨.DDR_UEADDR_LO, 0, 32⟩
/-- DDR_UEADDR_HI.VALUE -/
abbrev DDR_UEADDR_HI_VALUE : Fld := ⟨.DDR_UEADDR_HI, 0, 32⟩
/-- DDR_UEMST.VALUE -/
abbrev DDR_UEMST_VALUE : Fld := ⟨.DDR_UEMST, 0, 32⟩
/-- DDR_SCRUB.HOURS -/
abbrev DDR_SCRUB_HOURS : Fld := ⟨.DDR_SCRUB, 8, 8⟩
/-- DDR_SCRUB.EN -/
abbrev DDR_SCRUB_EN : Fld := ⟨.DDR_SCRUB, 0, 1⟩
/-- LANE_CTL.CFGLK -/
abbrev LANE_CTL_CFGLK : Fld := ⟨.LANE_CTL, 2, 1⟩
/-- LANE_CTL.LRST -/
abbrev LANE_CTL_LRST : Fld := ⟨.LANE_CTL, 1, 1⟩
/-- LANE_CTL.EN -/
abbrev LANE_CTL_EN : Fld := ⟨.LANE_CTL, 0, 1⟩
/-- LANE_STAT.DS_ON -/
abbrev LANE_STAT_DS_ON : Fld := ⟨.LANE_STAT, 25, 1⟩
/-- LANE_STAT.P12_ON -/
abbrev LANE_STAT_P12_ON : Fld := ⟨.LANE_STAT, 24, 1⟩
/-- LANE_STAT.NEGVER -/
abbrev LANE_STAT_NEGVER : Fld := ⟨.LANE_STAT, 16, 8⟩
/-- LANE_STAT.FCAUSE -/
abbrev LANE_STAT_FCAUSE : Fld := ⟨.LANE_STAT, 12, 4⟩
/-- LANE_STAT.EG_LOCK -/
abbrev LANE_STAT_EG_LOCK : Fld := ⟨.LANE_STAT, 11, 1⟩
/-- LANE_STAT.IN_LOCK -/
abbrev LANE_STAT_IN_LOCK : Fld := ⟨.LANE_STAT, 10, 1⟩
/-- LANE_STAT.INSERVICE -/
abbrev LANE_STAT_INSERVICE : Fld := ⟨.LANE_STAT, 9, 1⟩
/-- LANE_STAT.PEND -/
abbrev LANE_STAT_PEND : Fld := ⟨.LANE_STAT, 8, 1⟩
/-- LANE_STAT.EG_STATE -/
abbrev LANE_STAT_EG_STATE : Fld := ⟨.LANE_STAT, 4, 3⟩
/-- LANE_STAT.IN_STATE -/
abbrev LANE_STAT_IN_STATE : Fld := ⟨.LANE_STAT, 0, 3⟩
/-- LANE_CFG.ERRLIM -/
abbrev LANE_CFG_ERRLIM : Fld := ⟨.LANE_CFG, 24, 8⟩
/-- LANE_CFG.CREDITS -/
abbrev LANE_CFG_CREDITS : Fld := ⟨.LANE_CFG, 16, 4⟩
/-- LANE_CFG.P12_SHIFT -/
abbrev LANE_CFG_P12_SHIFT : Fld := ⟨.LANE_CFG, 12, 3⟩
/-- LANE_CFG.DS_EN -/
abbrev LANE_CFG_DS_EN : Fld := ⟨.LANE_CFG, 9, 1⟩
/-- LANE_CFG.P12_EN -/
abbrev LANE_CFG_P12_EN : Fld := ⟨.LANE_CFG, 8, 1⟩
/-- LANE_CFG.MAXVER -/
abbrev LANE_CFG_MAXVER : Fld := ⟨.LANE_CFG, 0, 8⟩
/-- LANE_SLOT.TS -/
abbrev LANE_SLOT_TS : Fld := ⟨.LANE_SLOT, 0, 24⟩
/-- LANE_CRC_POLY.VALUE -/
abbrev LANE_CRC_POLY_VALUE : Fld := ⟨.LANE_CRC_POLY, 0, 32⟩
/-- LANE_CRC_INIT.VALUE -/
abbrev LANE_CRC_INIT_VALUE : Fld := ⟨.LANE_CRC_INIT, 0, 32⟩
/-- LANE_CRC_XOR.VALUE -/
abbrev LANE_CRC_XOR_VALUE : Fld := ⟨.LANE_CRC_XOR, 0, 32⟩
/-- LANE_CRC_CFG.REFOUT -/
abbrev LANE_CRC_CFG_REFOUT : Fld := ⟨.LANE_CRC_CFG, 9, 1⟩
/-- LANE_CRC_CFG.REFIN -/
abbrev LANE_CRC_CFG_REFIN : Fld := ⟨.LANE_CRC_CFG, 8, 1⟩
/-- LANE_CRC_CFG.WIDTH -/
abbrev LANE_CRC_CFG_WIDTH : Fld := ⟨.LANE_CRC_CFG, 0, 6⟩
/-- LANE_CRC_ID.ID -/
abbrev LANE_CRC_ID_ID : Fld := ⟨.LANE_CRC_ID, 0, 32⟩
/-- LANE_PEER_CAP.ROLE -/
abbrev LANE_PEER_CAP_ROLE : Fld := ⟨.LANE_PEER_CAP, 16, 8⟩
/-- LANE_PEER_CAP.FEAT -/
abbrev LANE_PEER_CAP_FEAT : Fld := ⟨.LANE_PEER_CAP, 8, 8⟩
/-- LANE_PEER_CAP.VER -/
abbrev LANE_PEER_CAP_VER : Fld := ⟨.LANE_PEER_CAP, 0, 8⟩
/-- LANE_SEQ.VALUE -/
abbrev LANE_SEQ_VALUE : Fld := ⟨.LANE_SEQ, 0, 32⟩
/-- LANE_LAYER.VALUE -/
abbrev LANE_LAYER_VALUE : Fld := ⟨.LANE_LAYER, 0, 32⟩
/-- LANE_SLOTCNT.COUNT -/
abbrev LANE_SLOTCNT_COUNT : Fld := ⟨.LANE_SLOTCNT, 0, 32⟩
/-- LANE_ERR.LINK_LOSS -/
abbrev LANE_ERR_LINK_LOSS : Fld := ⟨.LANE_ERR, 10, 1⟩
/-- LANE_ERR.SLOT_OVR -/
abbrev LANE_ERR_SLOT_OVR : Fld := ⟨.LANE_ERR, 9, 1⟩
/-- LANE_ERR.CREDIT -/
abbrev LANE_ERR_CREDIT : Fld := ⟨.LANE_ERR, 8, 1⟩
/-- LANE_ERR.DS -/
abbrev LANE_ERR_DS : Fld := ⟨.LANE_ERR, 7, 1⟩
/-- LANE_ERR.SEG -/
abbrev LANE_ERR_SEG : Fld := ⟨.LANE_ERR, 6, 1⟩
/-- LANE_ERR.SEQ -/
abbrev LANE_ERR_SEQ : Fld := ⟨.LANE_ERR, 5, 1⟩
/-- LANE_ERR.ENGINE -/
abbrev LANE_ERR_ENGINE : Fld := ⟨.LANE_ERR, 4, 1⟩
/-- LANE_ERR.VER -/
abbrev LANE_ERR_VER : Fld := ⟨.LANE_ERR, 3, 1⟩
/-- LANE_ERR.MAGIC -/
abbrev LANE_ERR_MAGIC : Fld := ⟨.LANE_ERR, 2, 1⟩
/-- LANE_ERR.LEN -/
abbrev LANE_ERR_LEN : Fld := ⟨.LANE_ERR, 1, 1⟩
/-- LANE_ERR.CHK -/
abbrev LANE_ERR_CHK : Fld := ⟨.LANE_ERR, 0, 1⟩
/-- LANE_ERRCNT.COUNT -/
abbrev LANE_ERRCNT_COUNT : Fld := ⟨.LANE_ERRCNT, 0, 32⟩
/-- LANE_HOLDCNT.COUNT -/
abbrev LANE_HOLDCNT_COUNT : Fld := ⟨.LANE_HOLDCNT, 0, 32⟩
/-- LANE_OVRCNT.COUNT -/
abbrev LANE_OVRCNT_COUNT : Fld := ⟨.LANE_OVRCNT, 0, 32⟩
/-- LANE_FRMCNT.COUNT -/
abbrev LANE_FRMCNT_COUNT : Fld := ⟨.LANE_FRMCNT, 0, 32⟩
/-- LANE_IEN.TRAIN_DONE -/
abbrev LANE_IEN_TRAIN_DONE : Fld := ⟨.LANE_IEN, 17, 1⟩
/-- LANE_IEN.STATE_CHG -/
abbrev LANE_IEN_STATE_CHG : Fld := ⟨.LANE_IEN, 16, 1⟩
/-- LANE_IEN.ERR -/
abbrev LANE_IEN_ERR : Fld := ⟨.LANE_IEN, 0, 11⟩
/-- LANE_EG_STAT.CREDITS -/
abbrev LANE_EG_STAT_CREDITS : Fld := ⟨.LANE_EG_STAT, 8, 4⟩
/-- LANE_EG_STAT.NEGVER -/
abbrev LANE_EG_STAT_NEGVER : Fld := ⟨.LANE_EG_STAT, 0, 8⟩
/-- LANE_EG_CFG.STALL -/
abbrev LANE_EG_CFG_STALL : Fld := ⟨.LANE_EG_CFG, 16, 10⟩
/-- LANE_EG_CFG.MAXVER -/
abbrev LANE_EG_CFG_MAXVER : Fld := ⟨.LANE_EG_CFG, 0, 8⟩
/-- LANE_EG_CRC_POLY.VALUE -/
abbrev LANE_EG_CRC_POLY_VALUE : Fld := ⟨.LANE_EG_CRC_POLY, 0, 32⟩
/-- LANE_EG_CRC_INIT.VALUE -/
abbrev LANE_EG_CRC_INIT_VALUE : Fld := ⟨.LANE_EG_CRC_INIT, 0, 32⟩
/-- LANE_EG_CRC_XOR.VALUE -/
abbrev LANE_EG_CRC_XOR_VALUE : Fld := ⟨.LANE_EG_CRC_XOR, 0, 32⟩
/-- LANE_EG_CRC_CFG.REFOUT -/
abbrev LANE_EG_CRC_CFG_REFOUT : Fld := ⟨.LANE_EG_CRC_CFG, 9, 1⟩
/-- LANE_EG_CRC_CFG.REFIN -/
abbrev LANE_EG_CRC_CFG_REFIN : Fld := ⟨.LANE_EG_CRC_CFG, 8, 1⟩
/-- LANE_EG_CRC_CFG.WIDTH -/
abbrev LANE_EG_CRC_CFG_WIDTH : Fld := ⟨.LANE_EG_CRC_CFG, 0, 6⟩
/-- LANE_EG_CRC_ID.ID -/
abbrev LANE_EG_CRC_ID_ID : Fld := ⟨.LANE_EG_CRC_ID, 0, 32⟩
/-- LANE_EG_PEER_CAP.ROLE -/
abbrev LANE_EG_PEER_CAP_ROLE : Fld := ⟨.LANE_EG_PEER_CAP, 16, 8⟩
/-- LANE_EG_PEER_CAP.FEAT -/
abbrev LANE_EG_PEER_CAP_FEAT : Fld := ⟨.LANE_EG_PEER_CAP, 8, 8⟩
/-- LANE_EG_PEER_CAP.VER -/
abbrev LANE_EG_PEER_CAP_VER : Fld := ⟨.LANE_EG_PEER_CAP, 0, 8⟩
/-- LANE_EG_SEGCNT.COUNT -/
abbrev LANE_EG_SEGCNT_COUNT : Fld := ⟨.LANE_EG_SEGCNT, 0, 32⟩
/-- LANE_EG_BLKCNT.COUNT -/
abbrev LANE_EG_BLKCNT_COUNT : Fld := ⟨.LANE_EG_BLKCNT, 0, 32⟩
/-- LANE_EG_ERR.LINK_LOSS -/
abbrev LANE_EG_ERR_LINK_LOSS : Fld := ⟨.LANE_EG_ERR, 1, 1⟩
/-- LANE_EG_ERR.STALL -/
abbrev LANE_EG_ERR_STALL : Fld := ⟨.LANE_EG_ERR, 0, 1⟩
/-- CHK_CTL.CFGLK -/
abbrev CHK_CTL_CFGLK : Fld := ⟨.CHK_CTL, 2, 1⟩
/-- CHK_CTL.ZMLOAD -/
abbrev CHK_CTL_ZMLOAD : Fld := ⟨.CHK_CTL, 1, 1⟩
/-- CHK_CTL.ACTIVATE -/
abbrev CHK_CTL_ACTIVATE : Fld := ⟨.CHK_CTL, 0, 1⟩
/-- CHK_STAT.ONLINE -/
abbrev CHK_STAT_ONLINE : Fld := ⟨.CHK_STAT, 16, 5⟩
/-- CHK_STAT.ZMAP_OK -/
abbrev CHK_STAT_ZMAP_OK : Fld := ⟨.CHK_STAT, 14, 1⟩
/-- CHK_STAT.ACTIVE -/
abbrev CHK_STAT_ACTIVE : Fld := ⟨.CHK_STAT, 13, 1⟩
/-- CHK_STAT.COLDINIT -/
abbrev CHK_STAT_COLDINIT : Fld := ⟨.CHK_STAT, 12, 1⟩
/-- CHK_STAT.INFLIGHT -/
abbrev CHK_STAT_INFLIGHT : Fld := ⟨.CHK_STAT, 0, 10⟩
/-- CHK_CEOFF.OFF -/
abbrev CHK_CEOFF_OFF : Fld := ⟨.CHK_CEOFF, 0, 16⟩
/-- CHK_CESTAT.STATE -/
abbrev CHK_CESTAT_STATE : Fld := ⟨.CHK_CESTAT, 0, 32⟩
/-- CHK_ZOPEN.OPEN -/
abbrev CHK_ZOPEN_OPEN : Fld := ⟨.CHK_ZOPEN, 0, 32⟩
/-- CHK_TRIP.TRIP -/
abbrev CHK_TRIP_TRIP : Fld := ⟨.CHK_TRIP, 0, 32⟩
/-- CHK_PEAK_EP.TICKS -/
abbrev CHK_PEAK_EP_TICKS : Fld := ⟨.CHK_PEAK_EP, 0, 25⟩
/-- CHK_HAZ_LIM.US -/
abbrev CHK_HAZ_LIM_US : Fld := ⟨.CHK_HAZ_LIM, 0, 10⟩
/-- CHK_RR.PTR -/
abbrev CHK_RR_PTR : Fld := ⟨.CHK_RR, 0, 4⟩
/-- CHK_EGRP.GROUP -/
abbrev CHK_EGRP_GROUP : Fld := ⟨.CHK_EGRP, 0, 32⟩
/-- CHK_ZMAP_SRC.ADDR -/
abbrev CHK_ZMAP_SRC_ADDR : Fld := ⟨.CHK_ZMAP_SRC, 6, 22⟩
/-- CHK_ENV_CTL.GROUP -/
abbrev CHK_ENV_CTL_GROUP : Fld := ⟨.CHK_ENV_CTL, 16, 4⟩
/-- CHK_ENV_CTL.SET -/
abbrev CHK_ENV_CTL_SET : Fld := ⟨.CHK_ENV_CTL, 8, 4⟩
/-- CHK_ENV_CTL.START -/
abbrev CHK_ENV_CTL_START : Fld := ⟨.CHK_ENV_CTL, 0, 1⟩
/-- CHK_ENV_SRC.ADDR -/
abbrev CHK_ENV_SRC_ADDR : Fld := ⟨.CHK_ENV_SRC, 6, 22⟩
/-- CHK_ENV_STAT.GROUP -/
abbrev CHK_ENV_STAT_GROUP : Fld := ⟨.CHK_ENV_STAT, 12, 4⟩
/-- CHK_ENV_STAT.SET -/
abbrev CHK_ENV_STAT_SET : Fld := ⟨.CHK_ENV_STAT, 8, 4⟩
/-- CHK_ENV_STAT.RESULT -/
abbrev CHK_ENV_STAT_RESULT : Fld := ⟨.CHK_ENV_STAT, 4, 4⟩
/-- CHK_ENV_STAT.STATE -/
abbrev CHK_ENV_STAT_STATE : Fld := ⟨.CHK_ENV_STAT, 0, 3⟩
/-- CHK_ENV_VLD.VLD -/
abbrev CHK_ENV_VLD_VLD : Fld := ⟨.CHK_ENV_VLD, 0, 16⟩
/-- CHK_ENV_ACT.SET -/
abbrev CHK_ENV_ACT_SET : Fld := ⟨.CHK_ENV_ACT, 0, 32⟩
/-- CHK_ENV_DIG.DIGEST -/
abbrev CHK_ENV_DIG_DIGEST : Fld := ⟨.CHK_ENV_DIG, 0, 32⟩
/-- CHK_ERR.ZMAP_BAD -/
abbrev CHK_ERR_ZMAP_BAD : Fld := ⟨.CHK_ERR, 9, 1⟩
/-- CHK_ERR.ACT_REFUSED -/
abbrev CHK_ERR_ACT_REFUSED : Fld := ⟨.CHK_ERR, 8, 1⟩
/-- CHK_ERR.RPT_MISMATCH -/
abbrev CHK_ERR_RPT_MISMATCH : Fld := ⟨.CHK_ERR, 7, 1⟩
/-- CHK_ERR.B_TIMEOUT -/
abbrev CHK_ERR_B_TIMEOUT : Fld := ⟨.CHK_ERR, 6, 1⟩
/-- CHK_ERR.ENV_REFUSED -/
abbrev CHK_ERR_ENV_REFUSED : Fld := ⟨.CHK_ERR, 5, 1⟩
/-- CHK_ERR.ECC_INTG -/
abbrev CHK_ERR_ECC_INTG : Fld := ⟨.CHK_ERR, 4, 1⟩
/-- CHK_ERR.ECC_CEIL -/
abbrev CHK_ERR_ECC_CEIL : Fld := ⟨.CHK_ERR, 3, 1⟩
/-- CHK_ERR.CE_FAIL -/
abbrev CHK_ERR_CE_FAIL : Fld := ⟨.CHK_ERR, 2, 1⟩
/-- CHK_ERR.HAZ_STALL -/
abbrev CHK_ERR_HAZ_STALL : Fld := ⟨.CHK_ERR, 1, 1⟩
/-- CHK_ERR.DECAY_OVR -/
abbrev CHK_ERR_DECAY_OVR : Fld := ⟨.CHK_ERR, 0, 1⟩
/-- CHK_IEN.EN -/
abbrev CHK_IEN_EN : Fld := ⟨.CHK_IEN, 0, 8⟩
/-- CHK_OVRCNT.COUNT -/
abbrev CHK_OVRCNT_COUNT : Fld := ⟨.CHK_OVRCNT, 0, 32⟩
/-- CHK_ECCCNT.COUNT -/
abbrev CHK_ECCCNT_COUNT : Fld := ⟨.CHK_ECCCNT, 0, 32⟩
/-- CHK_ECCADDR.INTG -/
abbrev CHK_ECCADDR_INTG : Fld := ⟨.CHK_ECCADDR, 31, 1⟩
/-- CHK_ECCADDR.EMITTER -/
abbrev CHK_ECCADDR_EMITTER : Fld := ⟨.CHK_ECCADDR, 0, 20⟩
/-- ZONE_CFG.EXLIM -/
abbrev ZONE_CFG_EXLIM : Fld := ⟨.ZONE_CFG, 16, 16⟩
/-- ZONE_CFG.TRIPFN -/
abbrev ZONE_CFG_TRIPFN : Fld := ⟨.ZONE_CFG, 8, 8⟩
/-- ZONE_CFG.COLDSEL -/
abbrev ZONE_CFG_COLDSEL : Fld := ⟨.ZONE_CFG, 6, 1⟩
/-- ZONE_CFG.POLICY -/
abbrev ZONE_CFG_POLICY : Fld := ⟨.ZONE_CFG, 4, 2⟩
/-- ZONE_CFG.K -/
abbrev ZONE_CFG_K : Fld := ⟨.ZONE_CFG, 0, 4⟩
/-- ZONE_LIM.VALUE -/
abbrev ZONE_LIM_VALUE : Fld := ⟨.ZONE_LIM, 0, 32⟩
/-- ZONE_COLD.VALUE -/
abbrev ZONE_COLD_VALUE : Fld := ⟨.ZONE_COLD, 0, 32⟩
/-- ZONE_COLDREL.VALUE -/
abbrev ZONE_COLDREL_VALUE : Fld := ⟨.ZONE_COLDREL, 0, 32⟩
/-- ZONE_TOUCH.VALUE -/
abbrev ZONE_TOUCH_VALUE : Fld := ⟨.ZONE_TOUCH, 0, 32⟩
/-- ZONE_STAT.LOADED -/
abbrev ZONE_STAT_LOADED : Fld := ⟨.ZONE_STAT, 5, 1⟩
/-- ZONE_STAT.TOUCH_OK -/
abbrev ZONE_STAT_TOUCH_OK : Fld := ⟨.ZONE_STAT, 4, 1⟩
/-- ZONE_STAT.PKVALID -/
abbrev ZONE_STAT_PKVALID : Fld := ⟨.ZONE_STAT, 3, 1⟩
/-- ZONE_STAT.TRIP -/
abbrev ZONE_STAT_TRIP : Fld := ⟨.ZONE_STAT, 2, 1⟩
/-- ZONE_STAT.COLD -/
abbrev ZONE_STAT_COLD : Fld := ⟨.ZONE_STAT, 1, 1⟩
/-- ZONE_STAT.OPEN_EFF -/
abbrev ZONE_STAT_OPEN_EFF : Fld := ⟨.ZONE_STAT, 0, 1⟩
/-- ZONE_PEAK.VALUE -/
abbrev ZONE_PEAK_VALUE : Fld := ⟨.ZONE_PEAK, 0, 32⟩
/-- ZONE_CNT.EXCEED -/
abbrev ZONE_CNT_EXCEED : Fld := ⟨.ZONE_CNT, 16, 16⟩
/-- ZONE_CNT.VIOL -/
abbrev ZONE_CNT_VIOL : Fld := ⟨.ZONE_CNT, 0, 16⟩
/-- REL_SEO.FLT_CLR -/
abbrev REL_SEO_FLT_CLR : Fld := ⟨.REL_SEO, 1, 1⟩
/-- REL_SEO.PERMIT -/
abbrev REL_SEO_PERMIT : Fld := ⟨.REL_SEO, 0, 1⟩
/-- REL_STAT.ROB -/
abbrev REL_STAT_ROB : Fld := ⟨.REL_STAT, 16, 6⟩
/-- REL_STAT.BFCAUSE -/
abbrev REL_STAT_BFCAUSE : Fld := ⟨.REL_STAT, 12, 3⟩
/-- REL_STAT.AFCAUSE -/
abbrev REL_STAT_AFCAUSE : Fld := ⟨.REL_STAT, 8, 3⟩
/-- REL_STAT.SEOB -/
abbrev REL_STAT_SEOB : Fld := ⟨.REL_STAT, 4, 1⟩
/-- REL_STAT.BFAULT -/
abbrev REL_STAT_BFAULT : Fld := ⟨.REL_STAT, 3, 1⟩
/-- REL_STAT.AFAULT -/
abbrev REL_STAT_AFAULT : Fld := ⟨.REL_STAT, 2, 1⟩
/-- REL_STAT.SEOA_RB -/
abbrev REL_STAT_SEOA_RB : Fld := ⟨.REL_STAT, 1, 1⟩
/-- REL_STAT.SEOA -/
abbrev REL_STAT_SEOA : Fld := ⟨.REL_STAT, 0, 1⟩
/-- REL_CFG.VTO -/
abbrev REL_CFG_VTO : Fld := ⟨.REL_CFG, 0, 6⟩
/-- REL_ERR.VERDICT_UNK -/
abbrev REL_ERR_VERDICT_UNK : Fld := ⟨.REL_ERR, 5, 1⟩
/-- REL_ERR.ROB_ECC -/
abbrev REL_ERR_ROB_ECC : Fld := ⟨.REL_ERR, 4, 1⟩
/-- REL_ERR.SEO_RB -/
abbrev REL_ERR_SEO_RB : Fld := ⟨.REL_ERR, 3, 1⟩
/-- REL_ERR.RPT_MISSING -/
abbrev REL_ERR_RPT_MISSING : Fld := ⟨.REL_ERR, 2, 1⟩
/-- REL_ERR.RPT_WRONG -/
abbrev REL_ERR_RPT_WRONG : Fld := ⟨.REL_ERR, 1, 1⟩
/-- REL_ERR.B_TIMEOUT -/
abbrev REL_ERR_B_TIMEOUT : Fld := ⟨.REL_ERR, 0, 1⟩
/-- REL_IEN.ERR -/
abbrev REL_IEN_ERR : Fld := ⟨.REL_IEN, 0, 6⟩
/-- REL_RELCNT.COUNT -/
abbrev REL_RELCNT_COUNT : Fld := ⟨.REL_RELCNT, 0, 32⟩
/-- REL_BTOCNT.COUNT -/
abbrev REL_BTOCNT_COUNT : Fld := ⟨.REL_BTOCNT, 0, 32⟩
/-- REL_BFAILCNT.COUNT -/
abbrev REL_BFAILCNT_COUNT : Fld := ⟨.REL_BFAILCNT, 0, 32⟩
/-- REL_ZMCNT.COUNT -/
abbrev REL_ZMCNT_COUNT : Fld := ⟨.REL_ZMCNT, 0, 32⟩
/-- REL_LAT.MAX -/
abbrev REL_LAT_MAX : Fld := ⟨.REL_LAT, 16, 16⟩
/-- REL_LAT.LAST -/
abbrev REL_LAT_LAST : Fld := ⟨.REL_LAT, 0, 16⟩
/-- LDG_CTL.CFGLK -/
abbrev LDG_CTL_CFGLK : Fld := ⟨.LDG_CTL, 1, 1⟩
/-- LDG_CTL.EN -/
abbrev LDG_CTL_EN : Fld := ⟨.LDG_CTL, 0, 1⟩
/-- LDG_CFG.CLOSE_TO -/
abbrev LDG_CFG_CLOSE_TO : Fld := ⟨.LDG_CFG, 20, 12⟩
/-- LDG_CFG.FULL_ACT -/
abbrev LDG_CFG_FULL_ACT : Fld := ⟨.LDG_CFG, 16, 1⟩
/-- LDG_CFG.CKINT -/
abbrev LDG_CFG_CKINT : Fld := ⟨.LDG_CFG, 0, 13⟩
/-- LDG_ENGMASK.MASK -/
abbrev LDG_ENGMASK_MASK : Fld := ⟨.LDG_ENGMASK, 0, 16⟩
/-- LDG_STAT.SIGNING -/
abbrev LDG_STAT_SIGNING : Fld := ⟨.LDG_STAT, 6, 1⟩
/-- LDG_STAT.CLOSING -/
abbrev LDG_STAT_CLOSING : Fld := ⟨.LDG_STAT, 5, 1⟩
/-- LDG_STAT.FULL -/
abbrev LDG_STAT_FULL : Fld := ⟨.LDG_STAT, 4, 1⟩
/-- LDG_STAT.OPEN -/
abbrev LDG_STAT_OPEN : Fld := ⟨.LDG_STAT, 0, 3⟩
/-- LDG_WRSEQ_LO.VALUE -/
abbrev LDG_WRSEQ_LO_VALUE : Fld := ⟨.LDG_WRSEQ_LO, 0, 32⟩
/-- LDG_WRSEQ_HI.VALUE -/
abbrev LDG_WRSEQ_HI_VALUE : Fld := ⟨.LDG_WRSEQ_HI, 0, 32⟩
/-- LDG_CLSEQ_LO.VALUE -/
abbrev LDG_CLSEQ_LO_VALUE : Fld := ⟨.LDG_CLSEQ_LO, 0, 32⟩
/-- LDG_CLSEQ_HI.VALUE -/
abbrev LDG_CLSEQ_HI_VALUE : Fld := ⟨.LDG_CLSEQ_HI, 0, 32⟩
/-- LDG_RDSEQ_LO.VALUE -/
abbrev LDG_RDSEQ_LO_VALUE : Fld := ⟨.LDG_RDSEQ_LO, 0, 32⟩
/-- LDG_RDSEQ_HI.VALUE -/
abbrev LDG_RDSEQ_HI_VALUE : Fld := ⟨.LDG_RDSEQ_HI, 0, 32⟩
/-- LDG_EVT.DRAM_ERR -/
abbrev LDG_EVT_DRAM_ERR : Fld := ⟨.LDG_EVT, 5, 1⟩
/-- LDG_EVT.GAP -/
abbrev LDG_EVT_GAP : Fld := ⟨.LDG_EVT, 4, 1⟩
/-- LDG_EVT.FULL -/
abbrev LDG_EVT_FULL : Fld := ⟨.LDG_EVT, 3, 1⟩
/-- LDG_EVT.WARN -/
abbrev LDG_EVT_WARN : Fld := ⟨.LDG_EVT, 2, 1⟩
/-- LDG_EVT.CKPT -/
abbrev LDG_EVT_CKPT : Fld := ⟨.LDG_EVT, 1, 1⟩
/-- LDG_EVT.CLOSED -/
abbrev LDG_EVT_CLOSED : Fld := ⟨.LDG_EVT, 0, 1⟩
/-- LDG_IEN.EN -/
abbrev LDG_IEN_EN : Fld := ⟨.LDG_IEN, 0, 6⟩
/-- LDG_WARN.SLOTS -/
abbrev LDG_WARN_SLOTS : Fld := ⟨.LDG_WARN, 0, 16⟩
/-- LDG_LOST.COUNT -/
abbrev LDG_LOST_COUNT : Fld := ⟨.LDG_LOST, 0, 32⟩
/-- LDG_NONCE.NONCE -/
abbrev LDG_NONCE_NONCE : Fld := ⟨.LDG_NONCE, 0, 32⟩
/-- LDG_HDIG.DIGEST -/
abbrev LDG_HDIG_DIGEST : Fld := ⟨.LDG_HDIG, 0, 32⟩
/-- SFN_STAT.XDCNT -/
abbrev SFN_STAT_XDCNT : Fld := ⟨.SFN_STAT, 20, 12⟩
/-- SFN_STAT.RST_REFUSED -/
abbrev SFN_STAT_RST_REFUSED : Fld := ⟨.SFN_STAT, 19, 1⟩
/-- SFN_STAT.BCAUSE -/
abbrev SFN_STAT_BCAUSE : Fld := ⟨.SFN_STAT, 18, 1⟩
/-- SFN_STAT.BRES -/
abbrev SFN_STAT_BRES : Fld := ⟨.SFN_STAT, 17, 1⟩
/-- SFN_STAT.CAUSE_ON -/
abbrev SFN_STAT_CAUSE_ON : Fld := ⟨.SFN_STAT, 16, 1⟩
/-- SFN_STAT.CAUSE -/
abbrev SFN_STAT_CAUSE : Fld := ⟨.SFN_STAT, 8, 8⟩
/-- SFN_STAT.TRIPPED -/
abbrev SFN_STAT_TRIPPED : Fld := ⟨.SFN_STAT, 3, 1⟩
/-- SFN_STAT.RSTREQ -/
abbrev SFN_STAT_RSTREQ : Fld := ⟨.SFN_STAT, 2, 1⟩
/-- SFN_STAT.STATE -/
abbrev SFN_STAT_STATE : Fld := ⟨.SFN_STAT, 0, 2⟩
/-- SFN_CFG.RIDX -/
abbrev SFN_CFG_RIDX : Fld := ⟨.SFN_CFG, 28, 4⟩
/-- SFN_CFG.HASRST -/
abbrev SFN_CFG_HASRST : Fld := ⟨.SFN_CFG, 27, 1⟩
/-- SFN_CFG.RESTART -/
abbrev SFN_CFG_RESTART : Fld := ⟨.SFN_CFG, 26, 1⟩
/-- SFN_CFG.DISC -/
abbrev SFN_CFG_DISC : Fld := ⟨.SFN_CFG, 16, 10⟩
/-- SFN_CFG.FGRP -/
abbrev SFN_CFG_FGRP : Fld := ⟨.SFN_CFG, 12, 4⟩
/-- SFN_CFG.PAIR -/
abbrev SFN_CFG_PAIR : Fld := ⟨.SFN_CFG, 8, 2⟩
/-- SFN_CFG.TYPE -/
abbrev SFN_CFG_TYPE : Fld := ⟨.SFN_CFG, 0, 8⟩
/-- SFN_IN.USED -/
abbrev SFN_IN_USED : Fld := ⟨.SFN_IN, 4, 4⟩
/-- SFN_IN.VAL -/
abbrev SFN_IN_VAL : Fld := ⟨.SFN_IN, 0, 4⟩
/-- SFN_TR.TR -/
abbrev SFN_TR_TR : Fld := ⟨.SFN_TR, 0, 24⟩
/-- SFN_CTL.START -/
abbrev SFN_CTL_START : Fld := ⟨.SFN_CTL, 8, 1⟩
/-- SFN_CTL.CFGLK -/
abbrev SFN_CTL_CFGLK : Fld := ⟨.SFN_CTL, 1, 1⟩
/-- SFN_TC.TC -/
abbrev SFN_TC_TC : Fld := ⟨.SFN_TC, 0, 2⟩
/-- SFN_CYCLE.COUNT -/
abbrev SFN_CYCLE_COUNT : Fld := ⟨.SFN_CYCLE, 0, 32⟩
/-- SFN_XSTAT.PHASE -/
abbrev SFN_XSTAT_PHASE : Fld := ⟨.SFN_XSTAT, 16, 8⟩
/-- SFN_XSTAT.GSAFE -/
abbrev SFN_XSTAT_GSAFE : Fld := ⟨.SFN_XSTAT, 8, 8⟩
/-- SFN_XSTAT.BMISS -/
abbrev SFN_XSTAT_BMISS : Fld := ⟨.SFN_XSTAT, 5, 1⟩
/-- SFN_XSTAT.CFGFRAG -/
abbrev SFN_XSTAT_CFGFRAG : Fld := ⟨.SFN_XSTAT, 4, 1⟩
/-- SFN_XSTAT.CYCLE -/
abbrev SFN_XSTAT_CYCLE : Fld := ⟨.SFN_XSTAT, 3, 1⟩
/-- SFN_XSTAT.LATE -/
abbrev SFN_XSTAT_LATE : Fld := ⟨.SFN_XSTAT, 2, 1⟩
/-- SFN_XSTAT.CHECK -/
abbrev SFN_XSTAT_CHECK : Fld := ⟨.SFN_XSTAT, 1, 1⟩
/-- SFN_XSTAT.OK -/
abbrev SFN_XSTAT_OK : Fld := ⟨.SFN_XSTAT, 0, 1⟩
/-- SFN_XMISS.COUNT -/
abbrev SFN_XMISS_COUNT : Fld := ⟨.SFN_XMISS, 0, 32⟩
/-- SFN_OVRCNT.COUNT -/
abbrev SFN_OVRCNT_COUNT : Fld := ⟨.SFN_OVRCNT, 0, 32⟩
/-- SFN_RST.ACCEPTED -/
abbrev SFN_RST_ACCEPTED : Fld := ⟨.SFN_RST, 16, 16⟩
/-- SFN_RST.STUCK -/
abbrev SFN_RST_STUCK : Fld := ⟨.SFN_RST, 0, 16⟩
/-- SFN_RSTONE.COUNT -/
abbrev SFN_RSTONE_COUNT : Fld := ⟨.SFN_RSTONE, 0, 16⟩
/-- SFN_RESA.BITS -/
abbrev SFN_RESA_BITS : Fld := ⟨.SFN_RESA, 0, 32⟩
/-- SFN_RESB.BITS -/
abbrev SFN_RESB_BITS : Fld := ⟨.SFN_RESB, 0, 32⟩
/-- SFN_CAUSEB.BITS -/
abbrev SFN_CAUSEB_BITS : Fld := ⟨.SFN_CAUSEB, 0, 32⟩
/-- SFN_XDV.BITS -/
abbrev SFN_XDV_BITS : Fld := ⟨.SFN_XDV, 0, 32⟩
/-- DI_CFG.EVEN -/
abbrev DI_CFG_EVEN : Fld := ⟨.DI_CFG, 21, 1⟩
/-- DI_CFG.TPEN -/
abbrev DI_CFG_TPEN : Fld := ⟨.DI_CFG, 20, 1⟩
/-- DI_CFG.TPSRC -/
abbrev DI_CFG_TPSRC : Fld := ⟨.DI_CFG, 16, 4⟩
/-- DI_CFG.OSSD -/
abbrev DI_CFG_OSSD : Fld := ⟨.DI_CFG, 8, 7⟩
/-- DI_CFG.FILT -/
abbrev DI_CFG_FILT : Fld := ⟨.DI_CFG, 0, 8⟩
/-- DI_STAT.XSRC -/
abbrev DI_STAT_XSRC : Fld := ⟨.DI_STAT, 16, 4⟩
/-- DI_STAT.SRC -/
abbrev DI_STAT_SRC : Fld := ⟨.DI_STAT, 10, 1⟩
/-- DI_STAT.TPF -/
abbrev DI_STAT_TPF : Fld := ⟨.DI_STAT, 8, 2⟩
/-- DI_STAT.UNPROVEN -/
abbrev DI_STAT_UNPROVEN : Fld := ⟨.DI_STAT, 4, 1⟩
/-- DI_STAT.FORCED -/
abbrev DI_STAT_FORCED : Fld := ⟨.DI_STAT, 3, 1⟩
/-- DI_STAT.BLANK -/
abbrev DI_STAT_BLANK : Fld := ⟨.DI_STAT, 2, 1⟩
/-- DI_STAT.FILT -/
abbrev DI_STAT_FILT : Fld := ⟨.DI_STAT, 1, 1⟩
/-- DI_STAT.RAW -/
abbrev DI_STAT_RAW : Fld := ⟨.DI_STAT, 0, 1⟩
/-- DI_TPLAST.FOREIGN -/
abbrev DI_TPLAST_FOREIGN : Fld := ⟨.DI_TPLAST, 16, 16⟩
/-- DI_TPLAST.CONF -/
abbrev DI_TPLAST_CONF : Fld := ⟨.DI_TPLAST, 4, 2⟩
/-- DI_TPLAST.OWN_LOW -/
abbrev DI_TPLAST_OWN_LOW : Fld := ⟨.DI_TPLAST, 2, 1⟩
/-- DI_TPLAST.FIND -/
abbrev DI_TPLAST_FIND : Fld := ⟨.DI_TPLAST, 0, 2⟩
/-- DI_CHGCNT.COUNT -/
abbrev DI_CHGCNT_COUNT : Fld := ⟨.DI_CHGCNT, 0, 16⟩
/-- TP_CFG.EN -/
abbrev TP_CFG_EN : Fld := ⟨.TP_CFG, 0, 1⟩
/-- TP_STAT.FAULT -/
abbrev TP_STAT_FAULT : Fld := ⟨.TP_STAT, 4, 1⟩
/-- TP_STAT.RB -/
abbrev TP_STAT_RB : Fld := ⟨.TP_STAT, 3, 1⟩
/-- TP_STAT.STATE -/
abbrev TP_STAT_STATE : Fld := ⟨.TP_STAT, 0, 3⟩
/-- TP_FLT.NOSYNC -/
abbrev TP_FLT_NOSYNC : Fld := ⟨.TP_FLT, 3, 1⟩
/-- TP_FLT.OVLD -/
abbrev TP_FLT_OVLD : Fld := ⟨.TP_FLT, 2, 1⟩
/-- TP_FLT.SRC_LOW -/
abbrev TP_FLT_SRC_LOW : Fld := ⟨.TP_FLT, 1, 1⟩
/-- TP_FLT.SRC_HIGH -/
abbrev TP_FLT_SRC_HIGH : Fld := ⟨.TP_FLT, 0, 1⟩
/-- TP_PCNT.COUNT -/
abbrev TP_PCNT_COUNT : Fld := ⟨.TP_PCNT, 0, 32⟩
/-- TPG_CTL.CFGLK -/
abbrev TPG_CTL_CFGLK : Fld := ⟨.TPG_CTL, 1, 1⟩
/-- TPG_CTL.RUN -/
abbrev TPG_CTL_RUN : Fld := ⟨.TPG_CTL, 0, 1⟩
/-- TPG_CFG.L -/
abbrev TPG_CFG_L : Fld := ⟨.TPG_CFG, 16, 12⟩
/-- TPG_CFG.W -/
abbrev TPG_CFG_W : Fld := ⟨.TPG_CFG, 0, 7⟩
/-- TPG_STAT.SUPP_F1 -/
abbrev TPG_STAT_SUPP_F1 : Fld := ⟨.TPG_STAT, 8, 1⟩
/-- TPG_STAT.SUPP_F0 -/
abbrev TPG_STAT_SUPP_F0 : Fld := ⟨.TPG_STAT, 7, 1⟩
/-- TPG_STAT.SYNC_F1 -/
abbrev TPG_STAT_SYNC_F1 : Fld := ⟨.TPG_STAT, 6, 1⟩
/-- TPG_STAT.SYNC_F0 -/
abbrev TPG_STAT_SYNC_F0 : Fld := ⟨.TPG_STAT, 5, 1⟩
/-- TPG_STAT.RUNNING -/
abbrev TPG_STAT_RUNNING : Fld := ⟨.TPG_STAT, 4, 1⟩
/-- TPG_STAT.SLOT -/
abbrev TPG_STAT_SLOT : Fld := ⟨.TPG_STAT, 0, 4⟩
/-- TPG_PERIOD.COUNT -/
abbrev TPG_PERIOD_COUNT : Fld := ⟨.TPG_PERIOD, 0, 32⟩
/-- SO_CMD.FLT_CLR -/
abbrev SO_CMD_FLT_CLR : Fld := ⟨.SO_CMD, 1, 1⟩
/-- SO_CMD.P_ON -/
abbrev SO_CMD_P_ON : Fld := ⟨.SO_CMD, 0, 1⟩
/-- SO_CFG.OPP -/
abbrev SO_CFG_OPP : Fld := ⟨.SO_CFG, 16, 13⟩
/-- SO_CFG.OPW -/
abbrev SO_CFG_OPW : Fld := ⟨.SO_CFG, 8, 7⟩
/-- SO_CFG.OLEN -/
abbrev SO_CFG_OLEN : Fld := ⟨.SO_CFG, 5, 1⟩
/-- SO_CFG.OPULSE -/
abbrev SO_CFG_OPULSE : Fld := ⟨.SO_CFG, 4, 1⟩
/-- SO_CFG.ILIM -/
abbrev SO_CFG_ILIM : Fld := ⟨.SO_CFG, 0, 3⟩
/-- SO_STAT.FCODE -/
abbrev SO_STAT_FCODE : Fld := ⟨.SO_STAT, 16, 4⟩
/-- SO_STAT.OPEN -/
abbrev SO_STAT_OPEN : Fld := ⟨.SO_STAT, 9, 1⟩
/-- SO_STAT.COND -/
abbrev SO_STAT_COND : Fld := ⟨.SO_STAT, 8, 1⟩
/-- SO_STAT.SUPP -/
abbrev SO_STAT_SUPP : Fld := ⟨.SO_STAT, 7, 1⟩
/-- SO_STAT.M_RB -/
abbrev SO_STAT_M_RB : Fld := ⟨.SO_STAT, 6, 1⟩
/-- SO_STAT.P_RB -/
abbrev SO_STAT_P_RB : Fld := ⟨.SO_STAT, 5, 1⟩
/-- SO_STAT.M_CMD -/
abbrev SO_STAT_M_CMD : Fld := ⟨.SO_STAT, 4, 1⟩
/-- SO_STAT.P_CMD -/
abbrev SO_STAT_P_CMD : Fld := ⟨.SO_STAT, 3, 1⟩
/-- SO_STAT.STATE -/
abbrev SO_STAT_STATE : Fld := ⟨.SO_STAT, 0, 3⟩
/-- SO_FLT.FLT -/
abbrev SO_FLT_FLT : Fld := ⟨.SO_FLT, 0, 9⟩
/-- SO_OPCNT.COUNT -/
abbrev SO_OPCNT_COUNT : Fld := ⟨.SO_OPCNT, 0, 32⟩
/-- SO_FCNT.COUNT -/
abbrev SO_FCNT_COUNT : Fld := ⟨.SO_FCNT, 0, 32⟩
/-- DQ_CTL.FLT_CLR -/
abbrev DQ_CTL_FLT_CLR : Fld := ⟨.DQ_CTL, 1, 1⟩
/-- DQ_CTL.EN -/
abbrev DQ_CTL_EN : Fld := ⟨.DQ_CTL, 0, 1⟩
/-- DQ_CFG.FILT -/
abbrev DQ_CFG_FILT : Fld := ⟨.DQ_CFG, 16, 8⟩
/-- DQ_CFG.UV_RESTORE -/
abbrev DQ_CFG_UV_RESTORE : Fld := ⟨.DQ_CFG, 5, 1⟩
/-- DQ_CFG.TH_RESTART -/
abbrev DQ_CFG_TH_RESTART : Fld := ⟨.DQ_CFG, 4, 1⟩
/-- DQ_CFG.MODE -/
abbrev DQ_CFG_MODE : Fld := ⟨.DQ_CFG, 3, 1⟩
/-- DQ_CFG.ILIM -/
abbrev DQ_CFG_ILIM : Fld := ⟨.DQ_CFG, 0, 3⟩
/-- DQ_STAT.FCODE -/
abbrev DQ_STAT_FCODE : Fld := ⟨.DQ_STAT, 16, 4⟩
/-- DQ_STAT.PEND -/
abbrev DQ_STAT_PEND : Fld := ⟨.DQ_STAT, 9, 1⟩
/-- DQ_STAT.COND -/
abbrev DQ_STAT_COND : Fld := ⟨.DQ_STAT, 8, 1⟩
/-- DQ_STAT.SUPP -/
abbrev DQ_STAT_SUPP : Fld := ⟨.DQ_STAT, 7, 1⟩
/-- DQ_STAT.FILT -/
abbrev DQ_STAT_FILT : Fld := ⟨.DQ_STAT, 6, 1⟩
/-- DQ_STAT.RB -/
abbrev DQ_STAT_RB : Fld := ⟨.DQ_STAT, 5, 1⟩
/-- DQ_STAT.STATE -/
abbrev DQ_STAT_STATE : Fld := ⟨.DQ_STAT, 0, 3⟩
/-- DQ_FLT.HOT_REF -/
abbrev DQ_FLT_HOT_REF : Fld := ⟨.DQ_FLT, 5, 1⟩
/-- DQ_FLT.FLT -/
abbrev DQ_FLT_FLT : Fld := ⟨.DQ_FLT, 0, 5⟩
/-- DQ_FCNT.COUNT -/
abbrev DQ_FCNT_COUNT : Fld := ⟨.DQ_FCNT, 0, 32⟩
/-- CLI_CFG.CUT -/
abbrev CLI_CFG_CUT : Fld := ⟨.CLI_CFG, 16, 16⟩
/-- CLI_CFG.AVG -/
abbrev CLI_CFG_AVG : Fld := ⟨.CLI_CFG, 8, 8⟩
/-- CLI_CFG.CHAR -/
abbrev CLI_CFG_CHAR : Fld := ⟨.CLI_CFG, 0, 2⟩
/-- CLI_PVLO.VALUE -/
abbrev CLI_PVLO_VALUE : Fld := ⟨.CLI_PVLO, 0, 32⟩
/-- CLI_PVHI.VALUE -/
abbrev CLI_PVHI_VALUE : Fld := ⟨.CLI_PVHI, 0, 32⟩
/-- CLI_OFS.VALUE -/
abbrev CLI_OFS_VALUE : Fld := ⟨.CLI_OFS, 0, 32⟩
/-- CLI_GAIN.VALUE -/
abbrev CLI_GAIN_VALUE : Fld := ⟨.CLI_GAIN, 0, 32⟩
/-- CLI_RAW.VALUE -/
abbrev CLI_RAW_VALUE : Fld := ⟨.CLI_RAW, 0, 32⟩
/-- CLI_MEAS.VALUE -/
abbrev CLI_MEAS_VALUE : Fld := ⟨.CLI_MEAS, 0, 32⟩
/-- CLI_CUR.VALUE -/
abbrev CLI_CUR_VALUE : Fld := ⟨.CLI_CUR, 0, 32⟩
/-- CLI_PV.VALUE -/
abbrev CLI_PV_VALUE : Fld := ⟨.CLI_PV, 0, 32⟩
/-- CLI_SCUR.VALUE -/
abbrev CLI_SCUR_VALUE : Fld := ⟨.CLI_SCUR, 0, 32⟩
/-- CLI_STAT.S_NE43 -/
abbrev CLI_STAT_S_NE43 : Fld := ⟨.CLI_STAT, 5, 1⟩
/-- CLI_STAT.NOTRIM -/
abbrev CLI_STAT_NOTRIM : Fld := ⟨.CLI_STAT, 4, 1⟩
/-- CLI_STAT.PDISC -/
abbrev CLI_STAT_PDISC : Fld := ⟨.CLI_STAT, 3, 1⟩
/-- CLI_STAT.NE_HI -/
abbrev CLI_STAT_NE_HI : Fld := ⟨.CLI_STAT, 2, 1⟩
/-- CLI_STAT.NE_LO -/
abbrev CLI_STAT_NE_LO : Fld := ⟨.CLI_STAT, 1, 1⟩
/-- CLI_STAT.VALID -/
abbrev CLI_STAT_VALID : Fld := ⟨.CLI_STAT, 0, 1⟩
/-- CLI_FLT.PDISC -/
abbrev CLI_FLT_PDISC : Fld := ⟨.CLI_FLT, 2, 1⟩
/-- CLI_FLT.NE_HI -/
abbrev CLI_FLT_NE_HI : Fld := ⟨.CLI_FLT, 1, 1⟩
/-- CLI_FLT.NE_LO -/
abbrev CLI_FLT_NE_LO : Fld := ⟨.CLI_FLT, 0, 1⟩
/-- CLI_TBL.VALUE -/
abbrev CLI_TBL_VALUE : Fld := ⟨.CLI_TBL, 0, 32⟩
/-- CLO_CTL.FLT_CLR -/
abbrev CLO_CTL_FLT_CLR : Fld := ⟨.CLO_CTL, 1, 1⟩
/-- CLO_CTL.EN -/
abbrev CLO_CTL_EN : Fld := ⟨.CLO_CTL, 0, 1⟩
/-- CLO_SET.UA -/
abbrev CLO_SET_UA : Fld := ⟨.CLO_SET, 0, 15⟩
/-- CLO_CFG.RAMP -/
abbrev CLO_CFG_RAMP : Fld := ⟨.CLO_CFG, 16, 8⟩
/-- CLO_CFG.UV_RESTORE -/
abbrev CLO_CFG_UV_RESTORE : Fld := ⟨.CLO_CFG, 2, 1⟩
/-- CLO_CFG.ALM_HI -/
abbrev CLO_CFG_ALM_HI : Fld := ⟨.CLO_CFG, 0, 1⟩
/-- CLO_STAT.FCODE -/
abbrev CLO_STAT_FCODE : Fld := ⟨.CLO_STAT, 8, 4⟩
/-- CLO_STAT.COND -/
abbrev CLO_STAT_COND : Fld := ⟨.CLO_STAT, 7, 1⟩
/-- CLO_STAT.FORCED_LOW -/
abbrev CLO_STAT_FORCED_LOW : Fld := ⟨.CLO_STAT, 6, 1⟩
/-- CLO_STAT.COMPLIANCE_LOW -/
abbrev CLO_STAT_COMPLIANCE_LOW : Fld := ⟨.CLO_STAT, 5, 1⟩
/-- CLO_STAT.PEND -/
abbrev CLO_STAT_PEND : Fld := ⟨.CLO_STAT, 4, 1⟩
/-- CLO_STAT.STATE -/
abbrev CLO_STAT_STATE : Fld := ⟨.CLO_STAT, 0, 3⟩
/-- CLO_MEAS.HEADROOM -/
abbrev CLO_MEAS_HEADROOM : Fld := ⟨.CLO_MEAS, 16, 16⟩
/-- CLO_MEAS.UA -/
abbrev CLO_MEAS_UA : Fld := ⟨.CLO_MEAS, 0, 16⟩
/-- CLO_FLT.UV -/
abbrev CLO_FLT_UV : Fld := ⟨.CLO_FLT, 3, 1⟩
/-- CLO_FLT.RB -/
abbrev CLO_FLT_RB : Fld := ⟨.CLO_FLT, 2, 1⟩
/-- CLO_FLT.COMPLIANCE -/
abbrev CLO_FLT_COMPLIANCE : Fld := ⟨.CLO_FLT, 1, 1⟩
/-- CLO_FLT.OPEN -/
abbrev CLO_FLT_OPEN : Fld := ⟨.CLO_FLT, 0, 1⟩
/-- SUP_STAT.OVC -/
abbrev SUP_STAT_OVC : Fld := ⟨.SUP_STAT, 6, 1⟩
/-- SUP_STAT.VFOUT_ON -/
abbrev SUP_STAT_VFOUT_ON : Fld := ⟨.SUP_STAT, 5, 1⟩
/-- SUP_STAT.SUPP -/
abbrev SUP_STAT_SUPP : Fld := ⟨.SUP_STAT, 4, 1⟩
/-- SUP_STAT.STATE -/
abbrev SUP_STAT_STATE : Fld := ⟨.SUP_STAT, 0, 3⟩
/-- SUP_VOLT.OUT -/
abbrev SUP_VOLT_OUT : Fld := ⟨.SUP_VOLT, 16, 16⟩
/-- SUP_VOLT.IN -/
abbrev SUP_VOLT_IN : Fld := ⟨.SUP_VOLT, 0, 16⟩
/-- SUP_CUR.OUT -/
abbrev SUP_CUR_OUT : Fld := ⟨.SUP_CUR, 16, 16⟩
/-- SUP_CUR.IN -/
abbrev SUP_CUR_IN : Fld := ⟨.SUP_CUR, 0, 16⟩
/-- SUP_ERR.VFOUT_OVLD -/
abbrev SUP_ERR_VFOUT_OVLD : Fld := ⟨.SUP_ERR, 3, 1⟩
/-- SUP_ERR.OVC -/
abbrev SUP_ERR_OVC : Fld := ⟨.SUP_ERR, 2, 1⟩
/-- SUP_ERR.CUT -/
abbrev SUP_ERR_CUT : Fld := ⟨.SUP_ERR, 1, 1⟩
/-- SUP_ERR.WARN -/
abbrev SUP_ERR_WARN : Fld := ⟨.SUP_ERR, 0, 1⟩
/-- SUP_CUTCNT.COUNT -/
abbrev SUP_CUTCNT_COUNT : Fld := ⟨.SUP_CUTCNT, 0, 16⟩
/-- SUP_CTL.CFGLK -/
abbrev SUP_CTL_CFGLK : Fld := ⟨.SUP_CTL, 0, 1⟩
/-- POD_STAT.MMWIN -/
abbrev POD_STAT_MMWIN : Fld := ⟨.POD_STAT, 24, 8⟩
/-- POD_STAT.RCAUSE -/
abbrev POD_STAT_RCAUSE : Fld := ⟨.POD_STAT, 16, 4⟩
/-- POD_STAT.REJFAIL -/
abbrev POD_STAT_REJFAIL : Fld := ⟨.POD_STAT, 12, 1⟩
/-- POD_STAT.SPLIT -/
abbrev POD_STAT_SPLIT : Fld := ⟨.POD_STAT, 11, 1⟩
/-- POD_STAT.DBG -/
abbrev POD_STAT_DBG : Fld := ⟨.POD_STAT, 10, 1⟩
/-- POD_STAT.LOCKSTEP_BROKEN -/
abbrev POD_STAT_LOCKSTEP_BROKEN : Fld := ⟨.POD_STAT, 9, 1⟩
/-- POD_STAT.VOTE -/
abbrev POD_STAT_VOTE : Fld := ⟨.POD_STAT, 8, 1⟩
/-- POD_STAT.STATE -/
abbrev POD_STAT_STATE : Fld := ⟨.POD_STAT, 0, 4⟩
/-- POD_CTL.REJOIN -/
abbrev POD_CTL_REJOIN : Fld := ⟨.POD_CTL, 0, 1⟩
/-- POD_CFG.ENTRY -/
abbrev POD_CFG_ENTRY : Fld := ⟨.POD_CFG, 2, 30⟩
/-- POD_MMINFO.VALID -/
abbrev POD_MMINFO_VALID : Fld := ⟨.POD_MMINFO, 31, 1⟩
/-- POD_MMINFO.CMPF -/
abbrev POD_MMINFO_CMPF : Fld := ⟨.POD_MMINFO, 30, 1⟩
/-- POD_MMINFO.INJ -/
abbrev POD_MMINFO_INJ : Fld := ⟨.POD_MMINFO, 29, 1⟩
/-- POD_MMINFO.PRIM -/
abbrev POD_MMINFO_PRIM : Fld := ⟨.POD_MMINFO, 28, 1⟩
/-- POD_MMINFO.BIT -/
abbrev POD_MMINFO_BIT : Fld := ⟨.POD_MMINFO, 8, 8⟩
/-- POD_MMINFO.PORT -/
abbrev POD_MMINFO_PORT : Fld := ⟨.POD_MMINFO, 0, 2⟩
/-- POD_MMADDR.ADDR -/
abbrev POD_MMADDR_ADDR : Fld := ⟨.POD_MMADDR, 0, 32⟩
/-- POD_MMTIME_LO.VALUE -/
abbrev POD_MMTIME_LO_VALUE : Fld := ⟨.POD_MMTIME_LO, 0, 32⟩
/-- POD_MMTIME_HI.VALUE -/
abbrev POD_MMTIME_HI_VALUE : Fld := ⟨.POD_MMTIME_HI, 0, 32⟩
/-- POD_MMCNT.REJOINS -/
abbrev POD_MMCNT_REJOINS : Fld := ⟨.POD_MMCNT, 16, 16⟩
/-- POD_MMCNT.MISMATCH -/
abbrev POD_MMCNT_MISMATCH : Fld := ⟨.POD_MMCNT, 0, 16⟩
/-- POD_INJ.PASS -/
abbrev POD_INJ_PASS : Fld := ⟨.POD_INJ, 16, 16⟩
/-- POD_INJ.NEXT -/
abbrev POD_INJ_NEXT : Fld := ⟨.POD_INJ, 0, 8⟩
/-- POD_REJ.PASSES -/
abbrev POD_REJ_PASSES : Fld := ⟨.POD_REJ, 24, 8⟩
/-- POD_REJ.DIRTY -/
abbrev POD_REJ_DIRTY : Fld := ⟨.POD_REJ, 12, 12⟩
/-- POD_REJ.STALL -/
abbrev POD_REJ_STALL : Fld := ⟨.POD_REJ, 0, 12⟩
/-- POD_PAIR.NOGRP0 -/
abbrev POD_PAIR_NOGRP0 : Fld := ⟨.POD_PAIR, 3, 1⟩
/-- POD_PAIR.HEALTHY0 -/
abbrev POD_PAIR_HEALTHY0 : Fld := ⟨.POD_PAIR, 2, 1⟩
/-- POD_PAIR.GSAFE0 -/
abbrev POD_PAIR_GSAFE0 : Fld := ⟨.POD_PAIR, 1, 1⟩
/-- POD_PAIR.VOTE0 -/
abbrev POD_PAIR_VOTE0 : Fld := ⟨.POD_PAIR, 0, 1⟩
/-- POD_PAIR.NOGRP1 -/
abbrev POD_PAIR_NOGRP1 : Fld := ⟨.POD_PAIR, 11, 1⟩
/-- POD_PAIR.HEALTHY1 -/
abbrev POD_PAIR_HEALTHY1 : Fld := ⟨.POD_PAIR, 10, 1⟩
/-- POD_PAIR.GSAFE1 -/
abbrev POD_PAIR_GSAFE1 : Fld := ⟨.POD_PAIR, 9, 1⟩
/-- POD_PAIR.VOTE1 -/
abbrev POD_PAIR_VOTE1 : Fld := ⟨.POD_PAIR, 8, 1⟩
/-- POD_PAIR.NOGRP2 -/
abbrev POD_PAIR_NOGRP2 : Fld := ⟨.POD_PAIR, 19, 1⟩
/-- POD_PAIR.HEALTHY2 -/
abbrev POD_PAIR_HEALTHY2 : Fld := ⟨.POD_PAIR, 18, 1⟩
/-- POD_PAIR.GSAFE2 -/
abbrev POD_PAIR_GSAFE2 : Fld := ⟨.POD_PAIR, 17, 1⟩
/-- POD_PAIR.VOTE2 -/
abbrev POD_PAIR_VOTE2 : Fld := ⟨.POD_PAIR, 16, 1⟩
/-- POD_OWN_SO.OWN -/
abbrev POD_OWN_SO_OWN : Fld := ⟨.POD_OWN_SO, 0, 32⟩
/-- POD_OWN_SEO.OWN -/
abbrev POD_OWN_SEO_OWN : Fld := ⟨.POD_OWN_SEO, 0, 32⟩
/-- POD_OWN_ZONE.OWN -/
abbrev POD_OWN_ZONE_OWN : Fld := ⟨.POD_OWN_ZONE, 0, 32⟩
/-- POD_SPLITCFG.SPLIT -/
abbrev POD_SPLITCFG_SPLIT : Fld := ⟨.POD_SPLITCFG, 4, 2⟩
/-- POD_SPLITCFG.STRAP -/
abbrev POD_SPLITCFG_STRAP : Fld := ⟨.POD_SPLITCFG, 2, 2⟩
/-- POD_SPLITCFG.FUSE -/
abbrev POD_SPLITCFG_FUSE : Fld := ⟨.POD_SPLITCFG, 0, 2⟩
/-- POD_IMGSRC.ADDR -/
abbrev POD_IMGSRC_ADDR : Fld := ⟨.POD_IMGSRC, 6, 22⟩
/-- POD_IMGDIG.DIGEST -/
abbrev POD_IMGDIG_DIGEST : Fld := ⟨.POD_IMGDIG, 0, 32⟩
/-- TMR_CTL.PSC -/
abbrev TMR_CTL_PSC : Fld := ⟨.TMR_CTL, 16, 16⟩
/-- TMR_CTL.OUTMODE -/
abbrev TMR_CTL_OUTMODE : Fld := ⟨.TMR_CTL, 8, 3⟩
/-- TMR_CTL.CAPEDGE -/
abbrev TMR_CTL_CAPEDGE : Fld := ⟨.TMR_CTL, 6, 2⟩
/-- TMR_CTL.CAPRST -/
abbrev TMR_CTL_CAPRST : Fld := ⟨.TMR_CTL, 5, 1⟩
/-- TMR_CTL.CAPEN -/
abbrev TMR_CTL_CAPEN : Fld := ⟨.TMR_CTL, 4, 1⟩
/-- TMR_CTL.CHAIN -/
abbrev TMR_CTL_CHAIN : Fld := ⟨.TMR_CTL, 3, 1⟩
/-- TMR_CTL.ONESHOT -/
abbrev TMR_CTL_ONESHOT : Fld := ⟨.TMR_CTL, 2, 1⟩
/-- TMR_CTL.IMM -/
abbrev TMR_CTL_IMM : Fld := ⟨.TMR_CTL, 1, 1⟩
/-- TMR_CTL.EN -/
abbrev TMR_CTL_EN : Fld := ⟨.TMR_CTL, 0, 1⟩
/-- TMR_CNT.COUNT -/
abbrev TMR_CNT_COUNT : Fld := ⟨.TMR_CNT, 0, 32⟩
/-- TMR_RELOAD.VALUE -/
abbrev TMR_RELOAD_VALUE : Fld := ⟨.TMR_RELOAD, 0, 32⟩
/-- TMR_CMP.VALUE -/
abbrev TMR_CMP_VALUE : Fld := ⟨.TMR_CMP, 0, 32⟩
/-- TMR_RELOAD_ACT.VALUE -/
abbrev TMR_RELOAD_ACT_VALUE : Fld := ⟨.TMR_RELOAD_ACT, 0, 32⟩
/-- TMR_CMP_ACT.VALUE -/
abbrev TMR_CMP_ACT_VALUE : Fld := ⟨.TMR_CMP_ACT, 0, 32⟩
/-- TMR_CAP.VALUE -/
abbrev TMR_CAP_VALUE : Fld := ⟨.TMR_CAP, 0, 32⟩
/-- TMR_CAPCFG.DIV -/
abbrev TMR_CAPCFG_DIV : Fld := ⟨.TMR_CAPCFG, 16, 8⟩
/-- TMR_CAPCFG.FLT -/
abbrev TMR_CAPCFG_FLT : Fld := ⟨.TMR_CAPCFG, 8, 8⟩
/-- TMR_CAPCFG.SRC -/
abbrev TMR_CAPCFG_SRC : Fld := ⟨.TMR_CAPCFG, 0, 8⟩
/-- TMR_STAT.RUN -/
abbrev TMR_STAT_RUN : Fld := ⟨.TMR_STAT, 9, 1⟩
/-- TMR_STAT.OUT -/
abbrev TMR_STAT_OUT : Fld := ⟨.TMR_STAT, 8, 1⟩
/-- TMR_STAT.CAPOVR -/
abbrev TMR_STAT_CAPOVR : Fld := ⟨.TMR_STAT, 3, 1⟩
/-- TMR_STAT.CAP -/
abbrev TMR_STAT_CAP : Fld := ⟨.TMR_STAT, 2, 1⟩
/-- TMR_STAT.CMP -/
abbrev TMR_STAT_CMP : Fld := ⟨.TMR_STAT, 1, 1⟩
/-- TMR_STAT.WRAP -/
abbrev TMR_STAT_WRAP : Fld := ⟨.TMR_STAT, 0, 1⟩
/-- TMR_IEN.EN -/
abbrev TMR_IEN_EN : Fld := ⟨.TMR_IEN, 0, 4⟩
/-- TMR_BIND.LOCK -/
abbrev TMR_BIND_LOCK : Fld := ⟨.TMR_BIND, 8, 1⟩
/-- TMR_BIND.OWNER -/
abbrev TMR_BIND_OWNER : Fld := ⟨.TMR_BIND, 0, 5⟩
/-- CRC_CTL.ABORT -/
abbrev CRC_CTL_ABORT : Fld := ⟨.CRC_CTL, 2, 1⟩
/-- CRC_CTL.GO -/
abbrev CRC_CTL_GO : Fld := ⟨.CRC_CTL, 1, 1⟩
/-- CRC_CTL.INIT -/
abbrev CRC_CTL_INIT : Fld := ⟨.CRC_CTL, 0, 1⟩
/-- CRC_CFG.REFOUT -/
abbrev CRC_CFG_REFOUT : Fld := ⟨.CRC_CFG, 9, 1⟩
/-- CRC_CFG.REFIN -/
abbrev CRC_CFG_REFIN : Fld := ⟨.CRC_CFG, 8, 1⟩
/-- CRC_CFG.WIDTH -/
abbrev CRC_CFG_WIDTH : Fld := ⟨.CRC_CFG, 0, 6⟩
/-- CRC_POLY.VALUE -/
abbrev CRC_POLY_VALUE : Fld := ⟨.CRC_POLY, 0, 32⟩
/-- CRC_INIT.VALUE -/
abbrev CRC_INIT_VALUE : Fld := ⟨.CRC_INIT, 0, 32⟩
/-- CRC_XOR.VALUE -/
abbrev CRC_XOR_VALUE : Fld := ⟨.CRC_XOR, 0, 32⟩
/-- CRC_DATA.DATA -/
abbrev CRC_DATA_DATA : Fld := ⟨.CRC_DATA, 0, 32⟩
/-- CRC_DATA2.DATA -/
abbrev CRC_DATA2_DATA : Fld := ⟨.CRC_DATA2, 0, 32⟩
/-- CRC_DATA1.DATA -/
abbrev CRC_DATA1_DATA : Fld := ⟨.CRC_DATA1, 0, 32⟩
/-- CRC_REG.VALUE -/
abbrev CRC_REG_VALUE : Fld := ⟨.CRC_REG, 0, 32⟩
/-- CRC_RESULT.VALUE -/
abbrev CRC_RESULT_VALUE : Fld := ⟨.CRC_RESULT, 0, 32⟩
/-- CRC_ADDR_LO.VALUE -/
abbrev CRC_ADDR_LO_VALUE : Fld := ⟨.CRC_ADDR_LO, 0, 32⟩
/-- CRC_ADDR_HI.VALUE -/
abbrev CRC_ADDR_HI_VALUE : Fld := ⟨.CRC_ADDR_HI, 0, 8⟩
/-- CRC_LEN.VALUE -/
abbrev CRC_LEN_VALUE : Fld := ⟨.CRC_LEN, 0, 29⟩
/-- CRC_STAT.ERR_DENIED -/
abbrev CRC_STAT_ERR_DENIED : Fld := ⟨.CRC_STAT, 4, 1⟩
/-- CRC_STAT.ERR_RD -/
abbrev CRC_STAT_ERR_RD : Fld := ⟨.CRC_STAT, 3, 1⟩
/-- CRC_STAT.ERR_BUSYWR -/
abbrev CRC_STAT_ERR_BUSYWR : Fld := ⟨.CRC_STAT, 2, 1⟩
/-- CRC_STAT.DONE -/
abbrev CRC_STAT_DONE : Fld := ⟨.CRC_STAT, 1, 1⟩
/-- CRC_STAT.BUSY -/
abbrev CRC_STAT_BUSY : Fld := ⟨.CRC_STAT, 0, 1⟩
/-- CRC_IEN.EN -/
abbrev CRC_IEN_EN : Fld := ⟨.CRC_IEN, 1, 4⟩
/-- CRC_BIND.LOCK -/
abbrev CRC_BIND_LOCK : Fld := ⟨.CRC_BIND, 8, 1⟩
/-- CRC_BIND.OWNER -/
abbrev CRC_BIND_OWNER : Fld := ⟨.CRC_BIND, 0, 5⟩
/-- MBX_MSG.WORD -/
abbrev MBX_MSG_WORD : Fld := ⟨.MBX_MSG, 0, 32⟩
/-- MBX_SEND.NOTIFY -/
abbrev MBX_SEND_NOTIFY : Fld := ⟨.MBX_SEND, 16, 1⟩
/-- MBX_SEND.LEN -/
abbrev MBX_SEND_LEN : Fld := ⟨.MBX_SEND, 0, 4⟩
/-- MBX_TAKE.WASFULL -/
abbrev MBX_TAKE_WASFULL : Fld := ⟨.MBX_TAKE, 31, 1⟩
/-- MBX_TAKE.LEN -/
abbrev MBX_TAKE_LEN : Fld := ⟨.MBX_TAKE, 16, 4⟩
/-- MBX_TAKE.NOTIFY -/
abbrev MBX_TAKE_NOTIFY : Fld := ⟨.MBX_TAKE, 8, 1⟩
/-- MBX_TAKE.SENDER -/
abbrev MBX_TAKE_SENDER : Fld := ⟨.MBX_TAKE, 0, 5⟩
/-- MBX_STAT.LEN -/
abbrev MBX_STAT_LEN : Fld := ⟨.MBX_STAT, 16, 4⟩
/-- MBX_STAT.BADLEN -/
abbrev MBX_STAT_BADLEN : Fld := ⟨.MBX_STAT, 2, 1⟩
/-- MBX_STAT.OVERRUN -/
abbrev MBX_STAT_OVERRUN : Fld := ⟨.MBX_STAT, 1, 1⟩
/-- MBX_STAT.FULL -/
abbrev MBX_STAT_FULL : Fld := ⟨.MBX_STAT, 0, 1⟩
/-- MBX_BIND.EN -/
abbrev MBX_BIND_EN : Fld := ⟨.MBX_BIND, 31, 1⟩
/-- MBX_BIND.RPAIR -/
abbrev MBX_BIND_RPAIR : Fld := ⟨.MBX_BIND, 21, 1⟩
/-- MBX_BIND.RECV -/
abbrev MBX_BIND_RECV : Fld := ⟨.MBX_BIND, 16, 5⟩
/-- MBX_BIND.SPAIR -/
abbrev MBX_BIND_SPAIR : Fld := ⟨.MBX_BIND, 5, 1⟩
/-- MBX_BIND.SEND -/
abbrev MBX_BIND_SEND : Fld := ⟨.MBX_BIND, 0, 5⟩
/-- MBX_LOCK.LOCK -/
abbrev MBX_LOCK_LOCK : Fld := ⟨.MBX_LOCK, 0, 1⟩
/-- MBX_FULL.CH -/
abbrev MBX_FULL_CH : Fld := ⟨.MBX_FULL, 0, 32⟩
/-- MBX_TAKEN.CH -/
abbrev MBX_TAKEN_CH : Fld := ⟨.MBX_TAKEN, 0, 32⟩
/-- MBX_VIOL.VALID -/
abbrev MBX_VIOL_VALID : Fld := ⟨.MBX_VIOL, 31, 1⟩
/-- MBX_VIOL.OVF -/
abbrev MBX_VIOL_OVF : Fld := ⟨.MBX_VIOL, 30, 1⟩
/-- MBX_VIOL.WRITE -/
abbrev MBX_VIOL_WRITE : Fld := ⟨.MBX_VIOL, 16, 1⟩
/-- MBX_VIOL.CH -/
abbrev MBX_VIOL_CH : Fld := ⟨.MBX_VIOL, 8, 5⟩
/-- MBX_VIOL.MASTER -/
abbrev MBX_VIOL_MASTER : Fld := ⟨.MBX_VIOL, 0, 5⟩
/-- MBX_VIOLCNT.COUNT -/
abbrev MBX_VIOLCNT_COUNT : Fld := ⟨.MBX_VIOLCNT, 0, 16⟩
/-- MBX_SEM.GOT -/
abbrev MBX_SEM_GOT : Fld := ⟨.MBX_SEM, 31, 1⟩
/-- MBX_SEM.HELD -/
abbrev MBX_SEM_HELD : Fld := ⟨.MBX_SEM, 30, 1⟩
/-- MBX_SEM.REL -/
abbrev MBX_SEM_REL : Fld := ⟨.MBX_SEM, 16, 1⟩
/-- MBX_SEM.PAIR -/
abbrev MBX_SEM_PAIR : Fld := ⟨.MBX_SEM, 8, 1⟩
/-- MBX_SEM.OWNER -/
abbrev MBX_SEM_OWNER : Fld := ⟨.MBX_SEM, 0, 5⟩
/-- MBX_SEMSTAT.SEM -/
abbrev MBX_SEMSTAT_SEM : Fld := ⟨.MBX_SEMSTAT, 0, 32⟩
/-- MBX_SEMERR.SEM -/
abbrev MBX_SEMERR_SEM : Fld := ⟨.MBX_SEMERR, 0, 32⟩
/-- EVT_ROUTE.LOCK -/
abbrev EVT_ROUTE_LOCK : Fld := ⟨.EVT_ROUTE, 31, 1⟩
/-- EVT_ROUTE.KIND -/
abbrev EVT_ROUTE_KIND : Fld := ⟨.EVT_ROUTE, 6, 2⟩
/-- EVT_ROUTE.INDEX -/
abbrev EVT_ROUTE_INDEX : Fld := ⟨.EVT_ROUTE, 0, 4⟩
/-- EVT_PEND.PEND -/
abbrev EVT_PEND_PEND : Fld := ⟨.EVT_PEND, 0, 32⟩
/-- EVT_MASK.MASK -/
abbrev EVT_MASK_MASK : Fld := ⟨.EVT_MASK, 0, 32⟩
/-- EVT_SIG.MSIX -/
abbrev EVT_SIG_MSIX : Fld := ⟨.EVT_SIG, 16, 16⟩
/-- EVT_SIG.SVC -/
abbrev EVT_SIG_SVC : Fld := ⟨.EVT_SIG, 8, 4⟩
/-- EVT_SIG.POD -/
abbrev EVT_SIG_POD : Fld := ⟨.EVT_SIG, 0, 6⟩
/-- EVT_MERGECNT.COUNT -/
abbrev EVT_MERGECNT_COUNT : Fld := ⟨.EVT_MERGECNT, 0, 32⟩
/-- QUE_CTL.CQSZ -/
abbrev QUE_CTL_CQSZ : Fld := ⟨.QUE_CTL, 12, 4⟩
/-- QUE_CTL.SQSZ -/
abbrev QUE_CTL_SQSZ : Fld := ⟨.QUE_CTL, 8, 4⟩
/-- QUE_CTL.IEN -/
abbrev QUE_CTL_IEN : Fld := ⟨.QUE_CTL, 1, 1⟩
/-- QUE_CTL.EN -/
abbrev QUE_CTL_EN : Fld := ⟨.QUE_CTL, 0, 1⟩
/-- QUE_SQBA_LO.ADDR -/
abbrev QUE_SQBA_LO_ADDR : Fld := ⟨.QUE_SQBA_LO, 12, 20⟩
/-- QUE_SQBA_HI.ADDR -/
abbrev QUE_SQBA_HI_ADDR : Fld := ⟨.QUE_SQBA_HI, 0, 32⟩
/-- QUE_CQBA_LO.ADDR -/
abbrev QUE_CQBA_LO_ADDR : Fld := ⟨.QUE_CQBA_LO, 12, 20⟩
/-- QUE_CQBA_HI.ADDR -/
abbrev QUE_CQBA_HI_ADDR : Fld := ⟨.QUE_CQBA_HI, 0, 32⟩
/-- QUE_STAT.OUTST -/
abbrev QUE_STAT_OUTST : Fld := ⟨.QUE_STAT, 16, 12⟩
/-- QUE_STAT.PEND -/
abbrev QUE_STAT_PEND : Fld := ⟨.QUE_STAT, 4, 1⟩
/-- QUE_STAT.STATE -/
abbrev QUE_STAT_STATE : Fld := ⟨.QUE_STAT, 0, 3⟩
/-- QUE_SQPTR.HEAD -/
abbrev QUE_SQPTR_HEAD : Fld := ⟨.QUE_SQPTR, 16, 12⟩
/-- QUE_SQPTR.TAIL -/
abbrev QUE_SQPTR_TAIL : Fld := ⟨.QUE_SQPTR, 0, 12⟩
/-- QUE_CQPTR.PHASE -/
abbrev QUE_CQPTR_PHASE : Fld := ⟨.QUE_CQPTR, 31, 1⟩
/-- QUE_CQPTR.HEAD -/
abbrev QUE_CQPTR_HEAD : Fld := ⟨.QUE_CQPTR, 16, 12⟩
/-- QUE_CQPTR.TAIL -/
abbrev QUE_CQPTR_TAIL : Fld := ⟨.QUE_CQPTR, 0, 12⟩
/-- QUE_ERR.WRITE -/
abbrev QUE_ERR_WRITE : Fld := ⟨.QUE_ERR, 4, 1⟩
/-- QUE_ERR.FETCH -/
abbrev QUE_ERR_FETCH : Fld := ⟨.QUE_ERR, 3, 1⟩
/-- QUE_ERR.DB_OFF -/
abbrev QUE_ERR_DB_OFF : Fld := ⟨.QUE_ERR, 2, 1⟩
/-- QUE_ERR.CQDB_RANGE -/
abbrev QUE_ERR_CQDB_RANGE : Fld := ⟨.QUE_ERR, 1, 1⟩
/-- QUE_ERR.SQDB_RANGE -/
abbrev QUE_ERR_SQDB_RANGE : Fld := ⟨.QUE_ERR, 0, 1⟩
/-- QUE_FETCHCNT.COUNT -/
abbrev QUE_FETCHCNT_COUNT : Fld := ⟨.QUE_FETCHCNT, 0, 32⟩
/-- NPS_CFG.WD -/
abbrev NPS_CFG_WD : Fld := ⟨.NPS_CFG, 22, 10⟩
/-- NPS_CFG.CYCLE -/
abbrev NPS_CFG_CYCLE : Fld := ⟨.NPS_CFG, 15, 7⟩
/-- NPS_CFG.PAIR -/
abbrev NPS_CFG_PAIR : Fld := ⟨.NPS_CFG, 8, 2⟩
/-- NPS_CFG.V11 -/
abbrev NPS_CFG_V11 : Fld := ⟨.NPS_CFG, 7, 1⟩
/-- NPS_CFG.PORTS -/
abbrev NPS_CFG_PORTS : Fld := ⟨.NPS_CFG, 4, 2⟩
/-- NPS_CFG.EN -/
abbrev NPS_CFG_EN : Fld := ⟨.NPS_CFG, 0, 1⟩
/-- NPS_REMOTE.VALUE -/
abbrev NPS_REMOTE_VALUE : Fld := ⟨.NPS_REMOTE, 0, 16⟩
/-- NPS_KEY.VALUE -/
abbrev NPS_KEY_VALUE : Fld := ⟨.NPS_KEY, 0, 32⟩
/-- NPS_MAC_LO.VALUE -/
abbrev NPS_MAC_LO_VALUE : Fld := ⟨.NPS_MAC_LO, 0, 32⟩
/-- NPS_MAC_HI.VALUE -/
abbrev NPS_MAC_HI_VALUE : Fld := ⟨.NPS_MAC_HI, 0, 16⟩
/-- NPS_VLAN.TAG -/
abbrev NPS_VLAN_TAG : Fld := ⟨.NPS_VLAN, 16, 1⟩
/-- NPS_VLAN.PCP -/
abbrev NPS_VLAN_PCP : Fld := ⟨.NPS_VLAN, 13, 3⟩
/-- NPS_VLAN.VID -/
abbrev NPS_VLAN_VID : Fld := ⟨.NPS_VLAN, 0, 12⟩
/-- NPS_STAT.NEGVER -/
abbrev NPS_STAT_NEGVER : Fld := ⟨.NPS_STAT, 8, 8⟩
/-- NPS_STAT.VALID_B -/
abbrev NPS_STAT_VALID_B : Fld := ⟨.NPS_STAT, 7, 1⟩
/-- NPS_STAT.VALID_A -/
abbrev NPS_STAT_VALID_A : Fld := ⟨.NPS_STAT, 6, 1⟩
/-- NPS_STAT.STATE_B -/
abbrev NPS_STAT_STATE_B : Fld := ⟨.NPS_STAT, 4, 2⟩
/-- NPS_STAT.STATE_A -/
abbrev NPS_STAT_STATE_A : Fld := ⟨.NPS_STAT, 0, 2⟩
/-- NPS_TXDATA_LO.BITS -/
abbrev NPS_TXDATA_LO_BITS : Fld := ⟨.NPS_TXDATA_LO, 0, 32⟩
/-- NPS_TXDATA_HI.BITS -/
abbrev NPS_TXDATA_HI_BITS : Fld := ⟨.NPS_TXDATA_HI, 0, 32⟩
/-- NPS_RXDATA_LO.VALUE -/
abbrev NPS_RXDATA_LO_VALUE : Fld := ⟨.NPS_RXDATA_LO, 0, 32⟩
/-- NPS_RXDATA_HI.VALUE -/
abbrev NPS_RXDATA_HI_VALUE : Fld := ⟨.NPS_RXDATA_HI, 0, 32⟩
/-- NPS_SEQ_TX.VALUE -/
abbrev NPS_SEQ_TX_VALUE : Fld := ⟨.NPS_SEQ_TX, 0, 32⟩
/-- NPS_SEQ_RX.VALUE -/
abbrev NPS_SEQ_RX_VALUE : Fld := ⟨.NPS_SEQ_RX, 0, 32⟩
/-- NPS_ERR.VER -/
abbrev NPS_ERR_VER : Fld := ⟨.NPS_ERR, 7, 1⟩
/-- NPS_ERR.WDOG -/
abbrev NPS_ERR_WDOG : Fld := ⟨.NPS_ERR, 6, 1⟩
/-- NPS_ERR.LATE -/
abbrev NPS_ERR_LATE : Fld := ⟨.NPS_ERR, 5, 1⟩
/-- NPS_ERR.PARAM -/
abbrev NPS_ERR_PARAM : Fld := ⟨.NPS_ERR, 4, 1⟩
/-- NPS_ERR.ADDR -/
abbrev NPS_ERR_ADDR : Fld := ⟨.NPS_ERR, 3, 1⟩
/-- NPS_ERR.SEQ_OLD -/
abbrev NPS_ERR_SEQ_OLD : Fld := ⟨.NPS_ERR, 2, 1⟩
/-- NPS_ERR.CHK_B -/
abbrev NPS_ERR_CHK_B : Fld := ⟨.NPS_ERR, 1, 1⟩
/-- NPS_ERR.CHK_A -/
abbrev NPS_ERR_CHK_A : Fld := ⟨.NPS_ERR, 0, 1⟩
/-- NPS_CNT.BAD -/
abbrev NPS_CNT_BAD : Fld := ⟨.NPS_CNT, 16, 16⟩
/-- NPS_CNT.LOST -/
abbrev NPS_CNT_LOST : Fld := ⟨.NPS_CNT, 0, 16⟩
/-- NPS_DUP.COUNT -/
abbrev NPS_DUP_COUNT : Fld := ⟨.NPS_DUP, 0, 32⟩
/-- NPS_AGE.MAX -/
abbrev NPS_AGE_MAX : Fld := ⟨.NPS_AGE, 16, 16⟩
/-- NPS_AGE.LAST -/
abbrev NPS_AGE_LAST : Fld := ⟨.NPS_AGE, 0, 16⟩
/-- NPS_GCTL.CFGLK -/
abbrev NPS_GCTL_CFGLK : Fld := ⟨.NPS_GCTL, 31, 1⟩
/-- NPS_GCTL.LOCAL_ID -/
abbrev NPS_GCTL_LOCAL_ID : Fld := ⟨.NPS_GCTL, 0, 16⟩
/-- NPS_PADDR.VALUE -/
abbrev NPS_PADDR_VALUE : Fld := ⟨.NPS_PADDR, 0, 32⟩
/-- NPS_PSTAT.VALUE -/
abbrev NPS_PSTAT_VALUE : Fld := ⟨.NPS_PSTAT, 0, 32⟩
/-- OTP_STAT.SCANDIFF -/
abbrev OTP_STAT_SCANDIFF : Fld := ⟨.OTP_STAT, 7, 1⟩
/-- OTP_STAT.BOOTLK -/
abbrev OTP_STAT_BOOTLK : Fld := ⟨.OTP_STAT, 6, 1⟩
/-- OTP_STAT.HOLD -/
abbrev OTP_STAT_HOLD : Fld := ⟨.OTP_STAT, 5, 1⟩
/-- OTP_STAT.REJ -/
abbrev OTP_STAT_REJ : Fld := ⟨.OTP_STAT, 4, 1⟩
/-- OTP_STAT.BUSY -/
abbrev OTP_STAT_BUSY : Fld := ⟨.OTP_STAT, 3, 1⟩
/-- OTP_STAT.INTEGRITY -/
abbrev OTP_STAT_INTEGRITY : Fld := ⟨.OTP_STAT, 2, 1⟩
/-- OTP_STAT.MARGINAL -/
abbrev OTP_STAT_MARGINAL : Fld := ⟨.OTP_STAT, 1, 1⟩
/-- OTP_STAT.SENSED -/
abbrev OTP_STAT_SENSED : Fld := ⟨.OTP_STAT, 0, 1⟩
/-- OTP_REGION.DIGBAD -/
abbrev OTP_REGION_DIGBAD : Fld := ⟨.OTP_REGION, 31, 1⟩
/-- OTP_REGION.FIRSTW -/
abbrev OTP_REGION_FIRSTW : Fld := ⟨.OTP_REGION, 16, 10⟩
/-- OTP_REGION.MARG -/
abbrev OTP_REGION_MARG : Fld := ⟨.OTP_REGION, 8, 8⟩
/-- OTP_REGION.STATE -/
abbrev OTP_REGION_STATE : Fld := ⟨.OTP_REGION, 0, 3⟩
/-- OTP_CFGDUSED.VALUE -/
abbrev OTP_CFGDUSED_VALUE : Fld := ⟨.OTP_CFGDUSED, 0, 32⟩
/-- OTP_CFGDOK.VALUE -/
abbrev OTP_CFGDOK_VALUE : Fld := ⟨.OTP_CFGDOK, 0, 32⟩
/-- OTP_CFGDNEW.VALUE -/
abbrev OTP_CFGDNEW_VALUE : Fld := ⟨.OTP_CFGDNEW, 0, 32⟩
/-- OTP_RBKCNT.VALUE -/
abbrev OTP_RBKCNT_VALUE : Fld := ⟨.OTP_RBKCNT, 0, 32⟩
/-- OTP_CRIT.VALUE -/
abbrev OTP_CRIT_VALUE : Fld := ⟨.OTP_CRIT, 0, 32⟩
/-- OTP_MARGW.VALUE -/
abbrev OTP_MARGW_VALUE : Fld := ⟨.OTP_MARGW, 0, 32⟩
/-- OTP_CTL.HOLDREL -/
abbrev OTP_CTL_HOLDREL : Fld := ⟨.OTP_CTL, 1, 1⟩
/-- OTP_CTL.BOOTLK -/
abbrev OTP_CTL_BOOTLK : Fld := ⟨.OTP_CTL, 0, 1⟩
/-- OTP_CMD.TARGET -/
abbrev OTP_CMD_TARGET : Fld := ⟨.OTP_CMD, 8, 8⟩
/-- OTP_CMD.OP -/
abbrev OTP_CMD_OP : Fld := ⟨.OTP_CMD, 0, 4⟩
/-- OTP_ADDR.VALUE -/
abbrev OTP_ADDR_VALUE : Fld := ⟨.OTP_ADDR, 0, 10⟩
/-- OTP_WDATA.VALUE -/
abbrev OTP_WDATA_VALUE : Fld := ⟨.OTP_WDATA, 0, 32⟩
/-- OTP_CDIG.DIGEST -/
abbrev OTP_CDIG_DIGEST : Fld := ⟨.OTP_CDIG, 0, 32⟩
/-- OTP_RESULT.OP -/
abbrev OTP_RESULT_OP : Fld := ⟨.OTP_RESULT, 4, 4⟩
/-- OTP_RESULT.CODE -/
abbrev OTP_RESULT_CODE : Fld := ⟨.OTP_RESULT, 0, 4⟩
/-- OTP_SCAN.DONE -/
abbrev OTP_SCAN_DONE : Fld := ⟨.OTP_SCAN, 31, 1⟩
/-- OTP_SCAN.DIFF -/
abbrev OTP_SCAN_DIFF : Fld := ⟨.OTP_SCAN, 16, 8⟩
/-- OTP_SCAN.FIRST -/
abbrev OTP_SCAN_FIRST : Fld := ⟨.OTP_SCAN, 0, 10⟩
/-- OTP_DATA.VALUE -/
abbrev OTP_DATA_VALUE : Fld := ⟨.OTP_DATA, 0, 32⟩
/-- SEC_STAT.LCB -/
abbrev SEC_STAT_LCB : Fld := ⟨.SEC_STAT, 8, 8⟩
/-- SEC_STAT.RNG_OK -/
abbrev SEC_STAT_RNG_OK : Fld := ⟨.SEC_STAT, 6, 1⟩
/-- SEC_STAT.DBG_UNLOCKED -/
abbrev SEC_STAT_DBG_UNLOCKED : Fld := ⟨.SEC_STAT, 5, 1⟩
/-- SEC_STAT.DBG_EN -/
abbrev SEC_STAT_DBG_EN : Fld := ⟨.SEC_STAT, 4, 1⟩
/-- SEC_STAT.BREACH -/
abbrev SEC_STAT_BREACH : Fld := ⟨.SEC_STAT, 3, 1⟩
/-- SEC_STAT.RIND_OK -/
abbrev SEC_STAT_RIND_OK : Fld := ⟨.SEC_STAT, 2, 1⟩
/-- SEC_STAT.IDKEY -/
abbrev SEC_STAT_IDKEY : Fld := ⟨.SEC_STAT, 1, 1⟩
/-- SEC_STAT.BUSY -/
abbrev SEC_STAT_BUSY : Fld := ⟨.SEC_STAT, 0, 1⟩
/-- SEC_CMD.KEYSEL -/
abbrev SEC_CMD_KEYSEL : Fld := ⟨.SEC_CMD, 8, 4⟩
/-- SEC_CMD.OP -/
abbrev SEC_CMD_OP : Fld := ⟨.SEC_CMD, 0, 4⟩
/-- SEC_TAG_LO.VALUE -/
abbrev SEC_TAG_LO_VALUE : Fld := ⟨.SEC_TAG_LO, 0, 32⟩
/-- SEC_TAG_HI.VALUE -/
abbrev SEC_TAG_HI_VALUE : Fld := ⟨.SEC_TAG_HI, 0, 32⟩
/-- SEC_SRC_LO.VALUE -/
abbrev SEC_SRC_LO_VALUE : Fld := ⟨.SEC_SRC_LO, 0, 32⟩
/-- SEC_SRC_HI.VALUE -/
abbrev SEC_SRC_HI_VALUE : Fld := ⟨.SEC_SRC_HI, 0, 8⟩
/-- SEC_LEN.VALUE -/
abbrev SEC_LEN_VALUE : Fld := ⟨.SEC_LEN, 0, 32⟩
/-- SEC_RESULT.CODE -/
abbrev SEC_RESULT_CODE : Fld := ⟨.SEC_RESULT, 0, 4⟩
/-- SEC_DIG.DIGEST -/
abbrev SEC_DIG_DIGEST : Fld := ⟨.SEC_DIG, 0, 32⟩
/-- SEC_EVT.FLAGS -/
abbrev SEC_EVT_FLAGS : Fld := ⟨.SEC_EVT, 0, 5⟩
/-- SEC_IEN.FLAGS -/
abbrev SEC_IEN_FLAGS : Fld := ⟨.SEC_IEN, 0, 5⟩
/-- SEC_BIND.LOCK -/
abbrev SEC_BIND_LOCK : Fld := ⟨.SEC_BIND, 8, 1⟩
/-- SEC_BIND.OWNER -/
abbrev SEC_BIND_OWNER : Fld := ⟨.SEC_BIND, 0, 5⟩
/-- SEC_RIND.SEG -/
abbrev SEC_RIND_SEG : Fld := ⟨.SEC_RIND, 0, 8⟩
/-- SEC_DBGCHAL.CHAL -/
abbrev SEC_DBGCHAL_CHAL : Fld := ⟨.SEC_DBGCHAL, 0, 32⟩
/-- SEC_BUF.DATA -/
abbrev SEC_BUF_DATA : Fld := ⟨.SEC_BUF, 0, 32⟩
/-- CLK_STAT.XMON_OK -/
abbrev CLK_STAT_XMON_OK : Fld := ⟨.CLK_STAT, 7, 1⟩
/-- CLK_STAT.BCLK_OK -/
abbrev CLK_STAT_BCLK_OK : Fld := ⟨.CLK_STAT, 6, 1⟩
/-- CLK_STAT.VSYSB_OK -/
abbrev CLK_STAT_VSYSB_OK : Fld := ⟨.CLK_STAT, 5, 1⟩
/-- CLK_STAT.VSYS_OK -/
abbrev CLK_STAT_VSYS_OK : Fld := ⟨.CLK_STAT, 4, 1⟩
/-- CLK_STAT.DDR_LOCK -/
abbrev CLK_STAT_DDR_LOCK : Fld := ⟨.CLK_STAT, 3, 1⟩
/-- CLK_STAT.SER_LOCK -/
abbrev CLK_STAT_SER_LOCK : Fld := ⟨.CLK_STAT, 2, 1⟩
/-- CLK_STAT.MAIN_LOCK -/
abbrev CLK_STAT_MAIN_LOCK : Fld := ⟨.CLK_STAT, 1, 1⟩
/-- CLK_STAT.REFCLK_OK -/
abbrev CLK_STAT_REFCLK_OK : Fld := ⟨.CLK_STAT, 0, 1⟩
/-- CLK_RSTCAUSE.BOOTROM -/
abbrev CLK_RSTCAUSE_BOOTROM : Fld := ⟨.CLK_RSTCAUSE, 6, 1⟩
/-- CLK_RSTCAUSE.THERMAL -/
abbrev CLK_RSTCAUSE_THERMAL : Fld := ⟨.CLK_RSTCAUSE, 5, 1⟩
/-- CLK_RSTCAUSE.REQ -/
abbrev CLK_RSTCAUSE_REQ : Fld := ⟨.CLK_RSTCAUSE, 4, 1⟩
/-- CLK_RSTCAUSE.PIN -/
abbrev CLK_RSTCAUSE_PIN : Fld := ⟨.CLK_RSTCAUSE, 3, 1⟩
/-- CLK_RSTCAUSE.OVERV -/
abbrev CLK_RSTCAUSE_OVERV : Fld := ⟨.CLK_RSTCAUSE, 2, 1⟩
/-- CLK_RSTCAUSE.UNDERV -/
abbrev CLK_RSTCAUSE_UNDERV : Fld := ⟨.CLK_RSTCAUSE, 1, 1⟩
/-- CLK_RSTCAUSE.POR -/
abbrev CLK_RSTCAUSE_POR : Fld := ⟨.CLK_RSTCAUSE, 0, 1⟩
/-- CLK_RSTREQ.KEY -/
abbrev CLK_RSTREQ_KEY : Fld := ⟨.CLK_RSTREQ, 16, 16⟩
/-- CLK_RSTREQ.GO -/
abbrev CLK_RSTREQ_GO : Fld := ⟨.CLK_RSTREQ, 0, 1⟩
/-- CLK_BOOT.MS -/
abbrev CLK_BOOT_MS : Fld := ⟨.CLK_BOOT, 16, 16⟩
/-- CLK_BOOT.STAGE -/
abbrev CLK_BOOT_STAGE : Fld := ⟨.CLK_BOOT, 0, 4⟩
/-- CLK_GATE.QUAD -/
abbrev CLK_GATE_QUAD : Fld := ⟨.CLK_GATE, 1, 4⟩
/-- CLK_GATE.DOSE -/
abbrev CLK_GATE_DOSE : Fld := ⟨.CLK_GATE, 0, 1⟩
/-- CLK_XMON.BFAIL -/
abbrev CLK_XMON_BFAIL : Fld := ⟨.CLK_XMON, 30, 2⟩
/-- CLK_XMON.AFAIL -/
abbrev CLK_XMON_AFAIL : Fld := ⟨.CLK_XMON, 28, 2⟩
/-- CLK_XMON.BDEV -/
abbrev CLK_XMON_BDEV : Fld := ⟨.CLK_XMON, 18, 10⟩
/-- CLK_XMON.ACNT -/
abbrev CLK_XMON_ACNT : Fld := ⟨.CLK_XMON, 0, 17⟩
/-- CLK_TEMP.HI -/
abbrev CLK_TEMP_HI : Fld := ⟨.CLK_TEMP, 16, 16⟩
/-- CLK_TEMP.LO -/
abbrev CLK_TEMP_LO : Fld := ⟨.CLK_TEMP, 0, 16⟩
/-- CLK_THCFG.WARN -/
abbrev CLK_THCFG_WARN : Fld := ⟨.CLK_THCFG, 0, 8⟩
/-- CLK_VMON.VSYSB -/
abbrev CLK_VMON_VSYSB : Fld := ⟨.CLK_VMON, 16, 16⟩
/-- CLK_VMON.VSYS -/
abbrev CLK_VMON_VSYS : Fld := ⟨.CLK_VMON, 0, 16⟩
/-- CLK_EVT.XMON -/
abbrev CLK_EVT_XMON : Fld := ⟨.CLK_EVT, 7, 1⟩
/-- CLK_EVT.VSYSB_WARN -/
abbrev CLK_EVT_VSYSB_WARN : Fld := ⟨.CLK_EVT, 6, 1⟩
/-- CLK_EVT.VSYS_WARN -/
abbrev CLK_EVT_VSYS_WARN : Fld := ⟨.CLK_EVT, 5, 1⟩
/-- CLK_EVT.THERM_WARN -/
abbrev CLK_EVT_THERM_WARN : Fld := ⟨.CLK_EVT, 4, 1⟩
/-- CLK_EVT.DDR_LOL -/
abbrev CLK_EVT_DDR_LOL : Fld := ⟨.CLK_EVT, 3, 1⟩
/-- CLK_EVT.SER_LOL -/
abbrev CLK_EVT_SER_LOL : Fld := ⟨.CLK_EVT, 2, 1⟩
/-- CLK_EVT.MAIN_LOL -/
abbrev CLK_EVT_MAIN_LOL : Fld := ⟨.CLK_EVT, 1, 1⟩
/-- CLK_EVT.REFCLK -/
abbrev CLK_EVT_REFCLK : Fld := ⟨.CLK_EVT, 0, 1⟩
/-- CLK_IEN.XMON -/
abbrev CLK_IEN_XMON : Fld := ⟨.CLK_IEN, 7, 1⟩
/-- CLK_IEN.VSYSB_WARN -/
abbrev CLK_IEN_VSYSB_WARN : Fld := ⟨.CLK_IEN, 6, 1⟩
/-- CLK_IEN.VSYS_WARN -/
abbrev CLK_IEN_VSYS_WARN : Fld := ⟨.CLK_IEN, 5, 1⟩
/-- CLK_IEN.THERM_WARN -/
abbrev CLK_IEN_THERM_WARN : Fld := ⟨.CLK_IEN, 4, 1⟩
/-- CLK_IEN.DDR_LOL -/
abbrev CLK_IEN_DDR_LOL : Fld := ⟨.CLK_IEN, 3, 1⟩
/-- CLK_IEN.SER_LOL -/
abbrev CLK_IEN_SER_LOL : Fld := ⟨.CLK_IEN, 2, 1⟩
/-- CLK_IEN.MAIN_LOL -/
abbrev CLK_IEN_MAIN_LOL : Fld := ⟨.CLK_IEN, 1, 1⟩
/-- CLK_IEN.REFCLK -/
abbrev CLK_IEN_REFCLK : Fld := ⟨.CLK_IEN, 0, 1⟩
/-- CLK_WARMCNT.COUNT -/
abbrev CLK_WARMCNT_COUNT : Fld := ⟨.CLK_WARMCNT, 0, 16⟩

end Sys2Proof.Machine.F
end

