-- ==== Sys2Proof/Machine/DataTypes.lean ====
section
/-! DEFINITION. Records of the exposure data path: lanes, check pool, Tile Checker, release gates and ledger. -/

namespace Sys2Proof.Machine

/-- The direction of a lane: ingress or egress. -/
inductive Dir where
  | ingress | egress
deriving DecidableEq, Repr

/-- The header fields of a slice frame that the machine carries on with a segment. -/
structure SegHdr where
  seq : Nat := 0
  layer : Nat := 0
  seg : Nat := 0
  ctag : Nat := 0
  sync : Bool := false
deriving DecidableEq, Repr

/-- A capability word: version, features and check-value identity. -/
structure CapWord where
  ver : Nat := 0
  feat : Nat := 0
  crcId : Nat := 0
deriving DecidableEq, Repr

/-- Training of one direction: consecutive failed attempts; whether the running attempt has received 16 TS blocks and so sends
CAP (t2 of R54); the agreed capability word once decided (t3); and for each invalid control block of the window the number of
blocks received after it. -/
structure Training where
  fails : Nat := 0
  ts : Bool := false
  agreed : Option CapWord := none
  invalid : List Nat := []
deriving DecidableEq, Repr

/-- A frame accepted into a lane buffer and not yet submitted. -/
structure BufFrame where
  bytes : List Byte := []
  hdr : SegHdr := {}
  tRx : Ticks := 0
deriving DecidableEq, Repr

/-- The verdict side of a segment at its release gate. -/
inductive VerdictState where
  | waiting
  | arrived (pass : Nat)
  | expired
deriving DecidableEq, Repr

/-- Where a segment or decay segment stands in the check pool. -/
inductive CheckPhase where
  | queued | checking | written
deriving DecidableEq, Repr

/-- One slice segment between submission and the end of its egress frame. `entry` is its pool and reorder entry;
`generated` marks a blank segment made under R64, which holds no entry and gets no report. -/
structure Seg where
  entry : Nat := 0
  generated : Bool := false
  hdr : SegHdr := {}
  slot : Nat := 0
  tRx : Ticks := 0
  doses : List Nat := []
  phase : CheckPhase := .queued
  discard : Bool := false
  blank : Bool := false
  ledgerBlank : Bool := false
  tripTiles : Nat := 0
  peaks : List Nat := []
  clamps : List Nat := []
  verdict : VerdictState := .waiting
deriving DecidableEq, Repr

/-- One decay segment of an engine (R109). -/
structure DecaySeg where
  seg : Nat := 0
  slot : Nat := 0
  phase : CheckPhase := .queued
  late : Bool := false
deriving DecidableEq, Repr

/-- A frame as a lane receives it; `early`: its SOF came before the running slot began (R60, R72). -/
structure RxFrame where
  bytes : List Byte
  early : Bool := false
deriving DecidableEq, Repr

/-- The errors that the release of a segment meets: an uncorrectable one in its dose data (`ecc`) and in the ledger records of the
tile columns of `records`, and `ce` corrected ones in those records (R47, R140, R164). -/
structure ReleaseErrs where
  ecc : Bool := false
  records : List Nat := []
  ce : Nat := 0
deriving DecidableEq, Repr

/-- The DRAM offsets at which the reads of an envelope image meet an uncorrectable error: while the image is checked, and
while its ceilings are loaded; `ce` counts the corrected errors of those reads (R47, R122, R124). -/
structure ImageErrs where
  checking : Option Nat := none
  loading : Option Nat := none
  ce : Nat := 0
deriving DecidableEq, Repr

/-- The DRAM errors that a reader meets: the place of an uncorrectable one, and the count of corrected ones (R47). -/
structure DramMet where
  ue : Option Nat := none
  ce : Nat := 0
deriving DecidableEq, Repr

/-- The DRAM errors that memory mode of a check-value unit meets: the bytes read before an uncorrectable one with its offset, and
the count of corrected ones (R47, R356). -/
structure CrcMet where
  ue : Option (Nat × Nat) := none
  ce : Nat := 0
deriving DecidableEq, Repr

/-- A write of CHK_CTL that loads the zone map, and the corrected errors that the load meets (R47, R126). -/
structure ZmapWrite where
  val : Word
  ce : Nat := 0
deriving DecidableEq, Repr

/-- A released segment that waits for, or takes, its egress frame, with the time of its release. -/
structure EgressSeg where
  since : Ticks := 0
  hdr : SegHdr := {}
  report : Option Nat := none
  doses : List Nat := []
  blanked : Bool := false
  part : Bool := false
  tRx : Ticks := 0
deriving DecidableEq, Repr

/-- One lane pair with its engine: training, the lane buffer, the slice being received, whether a slice has been admitted in
the current slot and in the one before (R71, R72), the admitted slice, the segments in flight in submission order, the decay segments in generation order and the released
segments at egress. `seoStuck` is the level that the SEO_A line
was found at (true: toggling) when it last differed from its drive, `seoLatch` is channel A's drive
latch (R216), and `late` lists the entry, segment and slice number of verdicts still to come whose segments wait for them no more. -/
structure Lane where
  trainIn : Training := {}
  trainEg : Training := {}
  credits : Nat := 0
  buf : List BufFrame := []
  lastSeg : Option Nat := none
  errTimes : List Ticks := []
  admitted : Bool := false
  before : Bool := false
  cur : Option SegHdr := none
  submitted : Nat := 0
  slotDone : Nat := 0
  segs : List Seg := []
  decays : List DecaySeg := []
  egress : List EgressSeg := []
  seoStuck : Option Bool := none
  seoLatch : Bool := false
  late : List (Nat × Nat × Nat) := []
deriving DecidableEq, Repr

/-- A job of a check engine: the lane, whether it is a decay segment, its entry (or segment number), its slot and
open_eff of every zone as sampled at dispatch (R86). -/
structure CheckJob where
  lane : Nat := 0
  decay : Bool := false
  entry : Nat := 0
  seg : Nat := 0
  slot : Nat := 0
  openEff : Nat := 0
deriving DecidableEq, Repr

/-- The states of a check engine (CHK_CESTAT). -/
inductive CeState where
  | online | shuttingDown | offline | failed
deriving DecidableEq, Repr

/-- One check engine. SHUTTING_DOWN without a job is the one DOSE clock of R104. -/
structure CheckEngine where
  state : CeState := .online
  pendEn : Bool := false
  testDone : Bool := false
  job : Option CheckJob := none
deriving DecidableEq, Repr

/-- The dose check pool: check engines, dose SRAM, zone map, the cold values that unlisted integrators read as, the
peak of the running epoch and the exceedance bins of each zone, newest first. `badCeil` lists with 1 the emitters whose ceiling word
is uncorrectable (R107), `lostCeil` with k + 1 the engines whose ceilings a load has lost, their words being the free values from
draw k on (R124). -/
structure Pool where
  ces : Store CheckEngine := []
  ceilings : Store Nat := []
  badCeil : Store Nat := []
  lostCeil : Store Nat := []
  integrators : Store Nat := []
  cold : Store Nat := []
  zmap : Store Nat := []
  peaks : Store Nat := []
  bins : Store (List Nat) := []
deriving DecidableEq, Repr

/-- A running envelope load of channel A: its group, set and image place as START took them, the engines of the group, and
the zone records and ceilings of the checked image, held between CHECKING and LOADING, with the DRAM offset of an uncorrectable
error that loading the ceilings meets (R124). -/
structure EnvLoad where
  group : Nat := 0
  set : Nat := 0
  src : Nat := 0
  engines : Nat := 0
  records : List (List Nat) := []
  ceilings : List Nat := []
  ceilErr : Option Nat := none
deriving DecidableEq, Repr

/-- One open ledger entry (R162). `later` is the mask of engines that have recorded a segment of a later slice of
another layer, `loads` that of engines for which an envelope load ended with OK since the entry opened, `trips` that of
zones whose trip latch was set in it and `faults` that of engines with an engine fault in it (R160, R164). -/
structure LedgerEntry where
  lseq : Nat := 0
  layer : Nat := 0
  engines : Nat := 0
  later : Nat := 0
  tOpen : Ticks := 0
  forced : Bool := false
  timeout : Bool := false
  ckpt : Bool := false
  dramErr : Bool := false
  loads : Nat := 0
  trips : Nat := 0
  faults : Nat := 0
  met : Bool := false
deriving DecidableEq, Repr

/-- A layer header whose checkpoint signature is running. -/
structure SigningHeader where
  entry : LedgerEntry := {}
  header : List Byte := []
  digest : List Byte := []
deriving DecidableEq, Repr

/-- The exposure ledger: open entries in ascending LSEQ, the header being signed, the digest of the newest closed
header, the LOST count of the next header, the held low half of LDG_RDSEQ and the layers lost since an entry last opened. -/
structure Ledger where
  entries : List LedgerEntry := []
  signing : Option SigningHeader := none
  prevDig : List Byte := []
  lost : Nat := 0
  rdLo : Option Word := none
  lostLayers : List Nat := []
  tActive : Ticks := 0
deriving DecidableEq, Repr

/-- What the Tile Checker keeps of a verdict until its release report arrives; `missed`: the report was found missing (R148). -/
structure BVerdict where
  seg : Nat := 0
  seq : Nat := 0
  pass : Nat := 0
  sums : List Nat := []
  missed : Bool := false
deriving DecidableEq, Repr

/-- The B-side engine-fault causes (REL_STAT.BFCAUSE). -/
inductive BFaultCause where
  | none | rptWrong | rptMissing | seoRb
deriving DecidableEq, Repr

/-- The B-die's record of one engine: segments seen in the running B-slot, verdicts that await a report by entry and oldest first, the engine
fault, whether the envelope set is confirmed, whether the OUTPUT cell of SEO_B permits, channel B's drive latch (R216), and the level
that the SEO_B line was found at when it last differed from its drive. -/
structure BEngine where
  seen : Nat := 0
  awaiting : Store (List BVerdict) := []
  fault : BFaultCause := .none
  envOk : Bool := false
  cellPermit : Bool := false
  latch : Bool := false
  stuck : Option Bool := none
deriving DecidableEq, Repr

/-- The error injections of one check: emitters of the segment whose ceiling or integrator word turns out uncorrectable,
and the count of corrected errors (R107). -/
structure EccHits where
  ceil : List Nat := []
  intg : List Nat := []
  corrected : Nat := 0
deriving DecidableEq, Repr

end Sys2Proof.Machine
end

