-- ==== Sys2Proof/Machine/FieldTypes.lean ====
section
/-! DEFINITION. Records of the field I/O: digital inputs and test pulses as each channel sees them, and the outputs,
current loops and supply groups of the two field dies. -/

namespace Sys2Proof.Machine

/-- The two channels; channel A receives FLA and channel B receives FLB. -/
inductive Chan where
  | a | b
deriving DecidableEq, Repr

/-- The number of a channel, 0 or 1. -/
def Chan.num : Chan → Nat
  | .a => 0
  | .b => 1

/-- One switch of the field dies. -/
inductive OutSw where
  | soP (n : Nat)
  | soM (n : Nat)
  | dq (n : Nat)
deriving DecidableEq, Repr

/-- What one link frame of a field die carries from its terminals: the sampled DI bits of the die, the readback bits of
its test-pulse sources, its SO pairs and its DQs, and its supply measurements in mV and mA. -/
structure FieldFrame where
  ok : Bool := true
  di : Nat := 0
  tpRb : Nat := 0
  pRb : Nat := 0
  mRb : Nat := 0
  dqRb : Nat := 0
  vIn : Nat := 24000
  vOut : Nat := 0
  iIn : Nat := 0
  iOut : Nat := 0
deriving DecidableEq, Repr

/-- A command frame of a channel as a field die receives it: whether it passes its check. -/
structure CommandFrame where
  ok : Bool := true
deriving DecidableEq, Repr

/-- One digital input in one channel (R229 to R249): the last raw sample; OSSD tolerance (the run of 0 samples, whether
that run follows a 1 and may be tolerated, and the samples since the end of the last tolerated run, up to 200);
blanking; the run of equal samples and the filtered state; and test-pulse detection with its masks by source. -/
structure DiChan where
  raw : Bool := false
  was1 : Bool := false
  run : Nat := 0
  tol : Bool := false
  gap : Nat := 200
  held : Bool := false
  last : Bool := false
  blank : Bool := false
  fRun : Nat := 0
  fVal : Bool := false
  filt : Bool := false
  proven : Bool := false
  low : Nat := 0
  pre : Nat := 0
  post : Nat := 0
  bad : Nat := 0
  clean : Nat := 0
  tpf : Nat := 0
  xsrc : Nat := 0
  src : Bool := false
  find : Nat := 0
  ownLow : Bool := false
  foreign : Nat := 0
deriving DecidableEq, Repr

/-- One test-pulse source in one channel: the samples of its own die since its pulse began and those of the other die
(`other`), its readback, the findings of the running
period, the counts of periods with and without findings, and the confirmed fault. -/
structure TpChan where
  pos : Option Nat := none
  other : Option Nat := none
  rb : Bool := false
  high : Bool := false
  low : Bool := false
  bad : Nat := 0
  clean : Nat := 0
  fault : Bool := false
deriving DecidableEq, Repr

/-- One field link at the channel that receives it: field link error, consecutive valid frames since, whether the
running test-pulse period overlaps an error (R22, R249), and the SO pairs of the die whose readback disagrees with the
channel's command (R258). -/
structure LinkEnd where
  err : Bool := false
  good : Nat := 0
  gap : Bool := false
  dis : Nat := 0
deriving DecidableEq, Repr

/-- One test-pulse source at its field die: flagged as pulsing, and switched off by overload. -/
structure TpSource where
  flag : Bool := false
  ovld : Bool := false
deriving DecidableEq, Repr

/-- The states of an SO pair (R261). -/
inductive SoState where
  | off | on | shutting | latched
deriving DecidableEq, Repr

/-- An SO pair as it stood when a command, a clear or a fault first met it in a 10 µs sample, with the time (R262, R264, R273). -/
structure SoBefore where
  time : Ticks := 0
  state : SoState := .off
  pOn : Bool := false
  mOn : Bool := false
  fcode : Nat := 0
  offP : Bool := false
  offM : Bool := false
  clrA : Option Nat := none
  clrB : Option Nat := none
deriving DecidableEq, Repr

/-- One SO pair at its field die: the two commands as last received, the switches that are on, the latched fault code,
hot switches, off-pulses running, readbacks, when the clears of the two channels last arrived, when a fault was last
found if no frame has ended its 10 µs sample (`fresh`; R264, R273), whether that is the sample in which the pair
latched (`one`; R262), and the pair as the sample began with it, once something has met it (`before`). -/
structure SoPair where
  state : SoState := .off
  pCmd : Bool := false
  mCmd : Bool := false
  pOn : Bool := false
  mOn : Bool := false
  fcode : Nat := 0
  hotP : Bool := false
  hotM : Bool := false
  offP : Bool := false
  offM : Bool := false
  pRb : Bool := false
  mRb : Bool := false
  clrA : Option Nat := none
  clrB : Option Nat := none
  fresh : Option Ticks := none
  one : Bool := false
  before : Option SoBefore := none
deriving DecidableEq, Repr

/-- The states of a DQ in MODE OUTPUT (R267). -/
inductive DqState where
  | off | on | shutting | latched
deriving DecidableEq, Repr

/-- A DQ as it stood when a command first changed it in a 10 µs sample, with the time (R273). -/
structure DqBefore where
  time : Ticks := 0
  state : DqState := .off
  fcode : Nat := 0
deriving DecidableEq, Repr

/-- One DQ at its field die; `fresh` and `before` as for an SO pair. -/
structure DqOut where
  state : DqState := .off
  pend : Bool := false
  fcode : Nat := 0
  hot : Bool := false
  rb : Bool := false
  fresh : Option Ticks := none
  before : Option DqBefore := none
deriving DecidableEq, Repr

/-- The states of a CLO (R290). -/
inductive CloState where
  | off | on | shutting | alarm | uvOff
deriving DecidableEq, Repr

/-- One CLO: its state, the current it drives in µA, the current and time left of a ramp-down, and its last readback;
`fresh` as for an SO pair. -/
structure CloOut where
  state : CloState := .off
  drive : Nat := 0
  rampFrom : Nat := 0
  rampLeft : Nat := 0
  pend : Bool := false
  fcode : Nat := 0
  forcedLow : Bool := false
  meas : Nat := 0
  headroom : Nat := 0
  fresh : Option Ticks := none
deriving DecidableEq, Repr

/-- The states of a field supply group (SUP_STAT.STATE). -/
inductive SupState where
  | valid | warn | low | cut | recovering
deriving DecidableEq, Repr

/-- One field die with its supply group: the state of the supply; whether the group stands cut since SUP_CUT or reset;
the start sequence of R508; readback suppression; the hold of R277 and its flag; VFn_OUT in overload; test-pulse
suppression, waiting for the next period, marker synchrony and NOSYNC; and the field link errors that the die finds on FLA and
FLB, with the valid frames counted in an error. -/
structure FieldDie where
  state : SupState := .cut
  cut : Bool := true
  start : Bool := true
  supp : Bool := true
  held : Bool := false
  ovc : Bool := false
  vfOvld : Bool := false
  tpSupp : Bool := false
  tpPaused : Bool := false
  synced : Bool := false
  noSync : Bool := false
  errA : Bool := false
  errB : Bool := false
  goodA : Nat := 0
  goodB : Nat := 0
deriving DecidableEq, Repr

/-- What a field die reports once on FLA: a flag that it sets, a count, or an event. -/
inductive FieldNote where
  | flag (f : Fld) (n bit : Nat)
  | count (f : Fld) (n : Nat)
  | event (e i : Nat)
deriving DecidableEq, Repr

/-- One CLI path in one channel: the last values of m (newest first), m, t, the process value and NE 43 (R281). -/
structure CliPath where
  hist : List Int := []
  meas : Int := 0
  cur : Int := 0
  pv : Int := 0
  neLo : Bool := false
  neHi : Bool := false
  valid : Bool := false
deriving DecidableEq, Repr

/-- The field I/O: inputs, sources and links per channel (keys 64·channel + number, links 2·channel + die), the field
dies with their sources, outputs and current loops, the notes of each die that wait for a valid FLA frame, the switch
commands that each channel sends, the clears that wait for a channel's next command frame, and the drive latches of the
SO targets in each channel (R216, R263). -/
structure Fio where
  di : Store DiChan := []
  tp : Store TpChan := []
  links : Store LinkEnd := []
  srcs : Store TpSource := []
  perSupp : Nat := 0
  so : Store SoPair := []
  dq : Store DqOut := []
  clo : Store CloOut := []
  dies : Store FieldDie := []
  notes : Store (List FieldNote) := []
  cli : Store CliPath := []
  cmdP : Nat := 0
  cmdM : Nat := 0
  clrA : Nat := 0
  clrB : Nat := 0
  latchA : Nat := 0
  latchB : Nat := 0
deriving DecidableEq, Repr

end Sys2Proof.Machine
end

