-- ==== Sys2Proof/Machine/SafeTypes.lean ====
section
/-! DEFINITION. Records of the safety functions, the Pods and the peer link. -/

namespace Sys2Proof.Machine

/-- The state of one safety function in a channel (R187): SAFE 0, RUN 1 or FAULT 2, with its two latches, the cause code
and whether a fault cause of its own is present. -/
structure FnState where
  state : Nat := 0
  rstreq : Bool := true
  tripped : Bool := false
  cause : Nat := 0x11
  causeOn : Bool := false
deriving DecidableEq, Repr

/-- What a function keeps from cycle to cycle beside its state: the contact pair with an INPUT_DISC that has arisen and is
not gone (R197), the cycles for which the door of a lock has been in demand (R200), the two
hands with the state in which they leave FAULT (R204), EDM times (R206), analogue limits (R207), the reset press (R191), delays (R212), envelope selection (R217),
the trip inputs last seen (R190), whether STARTUP has been left (R189), and the unlock condition (R201). -/
structure FnMem where
  disc : Nat := 0
  both : Bool := false
  discOn : Bool := false
  plaus : Nat := 0
  hand : Nat := 0
  handCount : Nat := 0
  handRight : Bool := false
  handExit : Nat := 0
  trL : Nat := 0
  trR : Nat := 0
  edm0 : Nat := 0
  edm1 : Nat := 0
  limit : Bool := false
  band : Nat := 0
  press : Nat := 0
  taint : Bool := false
  pulse : Nat := 0
  stuck : Bool := false
  ones : Nat := 0
  zeros : Nat := 0
  off : Bool := true
  code : Option Nat := none
  held : Nat := 0
  sel : Option Nat := none
  trips : Nat := 0
  started : Bool := false
  unlock : Bool := false
deriving DecidableEq, Repr

/-- The input image of one cycle in one channel (R176): filtered DI and DQIN states (bits 48 to 63) as a mask, DIs with a
reported test-pulse fault, process values and NE 43 of the CLIs, peer bits and validity, and the SO pairs whose fault
condition is reported. -/
structure InImage where
  di : Nat := 0
  tpf : Nat := 0
  pv : List Int := []
  ne : Nat := 0
  peers : List Nat := []
  peerOk : Nat := 0
  soCond : Nat := 0
deriving DecidableEq, Repr

/-- The evaluation of one channel: its cycle number, whether the results of the cycle are evaluated, and whether the
exchange of the cycle before is outstanding; whether channel B has taken its first boundary (R180), and a partner frame
that came before t1 of its cycle (R182); the program's results, what was last frozen and sent (RESULT, CAUSEV, RST) and
channel A's owned outputs as frozen at t1 (R177, R254), what the partner sent in the last exchange, GSAFE and discrepancy counts; reset pulses and acceptance; zone-closed
times, groups held closed, the selections requested and loaded; configuration mismatch; and a missed exchange to report. -/
structure ChanEval where
  cycle : Nat := 0
  done : Bool := false
  waiting : Bool := false
  aligned : Bool := false
  early : Option (List Byte) := none
  res : Nat := 0
  sentRes : Nat := 0
  sentCause : Nat := 0
  out : Store Nat := []
  rst : Nat := 0
  parCause : Nat := 0
  gsafe : Nat := 0
  xd : Store Nat := []
  rstOver : Nat := 0
  rstOwn : Nat := 0
  rstPar : Nat := 0
  accept : Nat := 0
  img : InImage := {}
  mem : Store FnMem := []
  fns : Store FnState := []
  closed : Store Nat := []
  pend : Nat := 0
  pendApplied : Nat := 0
  req : Store (Option Nat) := []
  loaded : Store (Option Nat) := []
  freeSets : Store Nat := []
  peerOut : Store Nat := []
  cfgBad : Bool := false
  missed : Bool := false
  ovr : Nat := 0
deriving DecidableEq, Repr

/-- How a Pod comes back after its reset. -/
inductive PodPlan where
  | rejoin | cold | idle
deriving DecidableEq, Repr

/-- Where a rejoin stands (R320): held until the next boundary, copying (first pass or dirty lines), a pass complete, in
the final stall, or abandoned. -/
inductive RejoinPhase where
  | held | copying | copied | stalled | abandoned
deriving DecidableEq, Repr

/-- One Pod beside its registers: time stamps of its last mismatches (newest first), a mismatch that waits for t1, the
retirement cause due at its reset (0 none), its way back, an image loaded and waiting for the boundary, the first cycle
after a cold start, the rejoin, and the lines of its memories written since dirty tracking began. -/
structure PodRec where
  stamps : List Nat := []
  halted : Bool := false
  retire : Nat := 0
  plan : PodPlan := .rejoin
  loaded : Bool := false
  starting : Bool := false
  phase : RejoinPhase := .held
  tries : Nat := 0
  dirty : List Nat := []
deriving DecidableEq, Repr

/-- A connection to a peer in one channel (R426): CLOSED 0, CONNECTING 1 or UP 2; the agreed version; whether a CONNACK or
a CLOSE is due; whether no frame has been accepted since entry to CONNECTING, and LAST; a DATA frame accepted since UP;
the received bits; the SEQs sent with their times, newest first; the next SEQ to be formed; and when the watchdog last
restarted. -/
structure NpsConn where
  state : Nat := 0
  agreed : Nat := 0
  answer : Bool := false
  closing : Bool := false
  fresh : Bool := true
  last : Nat := 0
  seen : Bool := false
  rx : Nat := 0
  sent : List (Nat × Nat) := []
  seq : Nat := 0
  wdAt : Ticks := 0
deriving DecidableEq, Repr

/-- What the B-die forms for one frame of a peer (R415). -/
structure NpsFields where
  peer : Nat := 0
  kind : Nat := 0
  ver : Nat := 0
  seq : Nat := 0
  echo : Nat := 0
  dataB : Nat := 0
  chkB : Nat := 0
deriving DecidableEq, Repr

end Sys2Proof.Machine
end

