-- ==== Sys2Proof/Machine/UnitTypes.lean ====
section
/-! DEFINITION. What the timers, queue pairs and NCP sessions hold beside their registers. -/

namespace Sys2Proof.Machine

/-- One timer: the active prescaler value (R342) and when the prescaler last restarted from 0 or expired (R341); the edges
counted by the prescaler of edges (R346); how many of the pulses of the running clock it has looked at; the filtered level of
its capture source and the clocks for which the source has held the other one (R345); whether CNT has changed and has not
been compared yet (R347, R348); when CNT last changed; and the clock in which the timer last raised its event (R358). -/
structure Timer where
  psc : Nat := 0
  start : Ticks := 0
  edges : Nat := 0
  taken : Nat := 0
  level : Bool := false
  held : Nat := 0
  due : Bool := false
  moved : Option Ticks := none
  rung : Option Ticks := none
deriving DecidableEq, Repr

/-- What a read of DRAM meets in the word that it reads (R47). -/
inductive DdrHit where
  | clean | corrected | uncorrectable
deriving DecidableEq, Repr

/-- A read of `size` bytes, with what it meets where it reads DRAM (R10, R47). -/
structure BusRead where
  size : Nat
  hit : DdrHit := .clean
deriving DecidableEq, Repr

/-- How the last read ended: with data, with an error completion, or refused by the debug port (R31, R47). -/
inductive BusResp where
  | data | error | refused
deriving DecidableEq, Repr

/-- A request at the debug port: a read or a write of memory, or a debugger's attach to a Pod or a service core (R31). -/
inductive PortRequest where
  | read | write | attachPod (p : Fin 6) | attachCore (k : Fin 4)
deriving DecidableEq, Repr

/-- A command fetched and not completed: its 64-byte packet and the TIMEBASE time of the doorbell that exposed it (R380);
and, for a command that waits for a unit, whether it has started, with the sequence number of its ENV_REQUEST and the status of the
B-die's answer to it, once it has come. -/
structure NcpCmd where
  packet : List Byte := []
  stamp : Ticks := 0
  started : Bool := false
  seq : Nat := 0
  reply : Option Nat := none
deriving DecidableEq, Repr

/-- What the surroundings give an NCP command that moves data: the bytes that the host's buffer holds, an error completion on
PCI Express, and the DRAM offset of an uncorrectable error and the count of corrected ones that its reads meet (R47, R389). -/
structure NcpIo where
  data : List Byte := []
  dmaErr : Bool := false
  dramErr : Option Nat := none
  dramCe : Nat := 0
deriving DecidableEq, Repr

/-- One queue pair: the doorbell times of the entries exposed and not fetched, oldest first, and the outstanding commands
in SQ order. -/
structure Queue where
  stamps : List Ticks := []
  cmds : List NcpCmd := []
deriving DecidableEq, Repr

/-- One open NCP session: its handle, agreed version, features granted and queues claimed (R390 to R392). -/
structure Session where
  id : Nat := 0
  ver : Nat := 0
  feats : Nat := 0
  qmask : Nat := 0
deriving DecidableEq, Repr

/-- The NCP as the service cores keep it: the open sessions, the next handle, the generations of the objects that differ
from 1 (key 65536·class + index), the queue 1 to 15 that the round-robin grant served last, and the sequence number of the
next ENV_REQUEST (R369, R380, R394, R398). -/
structure Ncp where
  sessions : List Session := []
  nextId : Nat := 1
  gens : Store Nat := []
  served : Nat := 0
  envSeq : Nat := 0
deriving DecidableEq, Repr

end Sys2Proof.Machine
end

