-- ==== Sys2Proof/Machine/HwTypes.lean ====
section
/-! DEFINITION. The records of the hardware outside the exposure data path, what travels between the dies and to the
surroundings, and the volatile hardware as a whole. -/

namespace Sys2Proof.Machine

/-- A frame on its way to the B-die over XLK_D, with its lane and pool-entry tags (R66). -/
structure XlkFrame where
  lane : Nat := 0
  entry : Nat := 0
  bytes : List Byte := []
deriving DecidableEq, Repr

/-- A release report (R147). -/
structure RelReport where
  lane : Nat := 0
  entry : Nat := 0
  seg : Nat := 0
  seq : Nat := 0
  released : Bool := false
  sums : List Nat := []
deriving DecidableEq, Repr

/-- A verdict (R138). -/
structure Verdict where
  lane : Nat := 0
  entry : Nat := 0
  seg : Nat := 0
  seq : Nat := 0
  pass : Nat := 0
  cause : Nat := 0
deriving DecidableEq, Repr

/-- A message from the A-die to the B-die on XLK_C. -/
inductive AtoB where
  | report (r : RelReport)
  | exchange (bytes : List Byte)
  | envDigest (group set : Nat) (digest : List Byte)
  | npsFrame (bytes : List Byte)
deriving DecidableEq, Repr

/-- A message from the B-die to the A-die on XLK_C. -/
inductive BtoA where
  | verdict (v : Verdict)
  | engineFault (n : Nat) (cause : BFaultCause)
  | exchange (bytes : List Byte)
  | envReply (group : Nat) (same : Bool)
  | npsFields (f : NpsFields)
deriving DecidableEq, Repr

/-- The B-die: its configuration with the installed digest, its state (XLK_STAT.BSTATE), whether it evaluates, whether it
has accepted a first valid reset, the envelope selection of each group, the zone bits of the Function Array as applied,
the trip latch vector last received, the engines, the tile integrators with the cold values that unlisted ones read as,
the tile integrators at the end of the last B-slots, the count of wrong and missing reports, its health (VSYS_B within the
supervisor window, below 10.8 V, and in mV), and the version words of XLK_C and XLK_D checked since it started (R24). -/
structure BDie where
  cfg : PkgConfig := {}
  digest : List Byte := []
  digValid : Bool := false
  cfgOk : Bool := false
  selftestOk : Bool := false
  state : Nat := 0
  evaluating : Bool := false
  brun : Bool := false
  slotTiles : Store Nat := []
  xbOk : Bool := true
  pllLock : Bool := false
  vsysOk : Bool := true
  vsysWarn : Bool := false
  vsysMv : Nat := 0
  therm : Bool := false
  sel : Store Nat := []
  zones : Nat := 0
  trip : Nat := 0
  engines : Store BEngine := []
  tiles : Store Nat := []
  cold : Store Nat := []
  reports : Nat := 0
  verC : Option Nat := none
  verD : Option Nat := none
deriving DecidableEq, Repr

/-- An occurrence that waits for its event-log record (R408): the record's class and code, the instance of an event (256
more for an input of events 50 and 51), its time, its DATA where that is settled at the occurrence, and the SEQ of the boot record
that it copies, or 0 (R410). -/
structure LogItem where
  cls : Nat := 0
  code : Nat := 0
  inst : Nat := 0
  time : Ticks := 0
  data : List Byte := []
  seq : Nat := 0
deriving DecidableEq, Repr

/-- What the module sends to its surroundings: control blocks with their content bytes, the data blocks of egress frames,
writes to host memory, MSI-X messages and Ethernet frames. -/
inductive Output where
  | laneBlock (n : Nat) (dir : Dir) (kind : Nat) (content : List Nat)
  | egressFrame (n : Nat) (bytes : List Byte)
  | hostWrite (addr : Nat) (bytes : List Byte)
  | msix (addr data : Nat)
  | etherFrame (port : Nat) (bytes : List Byte)
deriving DecidableEq, Repr

/-- The volatile hardware of the module; `time` is TIMEBASE, `envRes` the result of the last load of each group, `bus` the data that the last bus read returned and `resp` how that read
ended, `pulses` the pulses at the capture sources of the timers in the running clock (R344), and `base` the TIMEBASE time that passed between POR and the
last WARM reset. -/
structure Hw where
  regs : Store Word := []
  time : Ticks := 0
  base : Ticks := 0
  draws : Nat := 0
  images : Store Nat := []
  msixQ : List Nat := []
  logQ : List LogItem := []
  out : List Output := []
  lanes : Store Lane := []
  pool : Pool := {}
  env : Option EnvLoad := none
  envRes : Store Nat := []
  ledger : Ledger := {}
  dram : Store Byte := []
  xlkD : List XlkFrame := []
  toB : List AtoB := []
  toA : List BtoA := []
  cfg : PkgConfig := {}
  b : BDie := {}
  fio : Fio := {}
  applied : Store Nat := []
  evA : ChanEval := {}
  evB : ChanEval := {}
  pods : Store PodRec := []
  priv : Store Byte := []
  nps : Store NpsConn := []
  tmr : Store Timer := []
  crcRead : Store Nat := []
  msixTbl : Store Word := []
  msixPba : Nat := 0
  queues : Store Queue := []
  ncp : Ncp := {}
  boot : Boot := {}
  otp : Latches := {}
  otpOp : Option OtpOp := none
  secOp : Option SecOp := none
  logNext : Nat := 0
  logLost : Nat := 0
  bus : Nat := 0
  resp : BusResp := .data
  pulses : List Nat := []
  idKey : List Byte := []
deriving DecidableEq, Repr

/-- A cross link in one direction, or a block of XLK_C, in either direction, that carries what no queue of `Hw` holds: a status
frame, a message or access of a mailbox channel, or a commissioning digest (R20, R44, R45). -/
inductive XlkLink where
  | d | cToB | cToA | cOther
deriving DecidableEq, Repr

end Sys2Proof.Machine
end

