-- ==== Sys2Proof/Machine/Operands.lean ====
section
/-! DEFINITION. Operand forms of the commands: the registers that one row names together, and a keyed operation word. -/

namespace Sys2Proof.Machine

/-- The registers of owned outputs that OWNED_OUTPUT_WRITE writes (R313). -/
inductive OwnedReg where
  | soCmd | relSeo | chkZopen | npsLo | npsHi
deriving DecidableEq, Repr

/-- The register that an owned-output form writes. -/
def OwnedReg.reg : OwnedReg → Reg
  | .soCmd => .SO_CMD
  | .relSeo => .REL_SEO
  | .chkZopen => .CHK_ZOPEN
  | .npsLo => .NPS_TXDATA_LO
  | .npsHi => .NPS_TXDATA_HI

/-- The word of an owned-output register: CHK_ZOPEN has two, the others one for each of 16 instances. -/
def OwnedReg.word (r : OwnedReg) (n : Nat) : Nat :=
  match r with
  | .chkZopen => n % 2
  | _ => n

/-- The preload registers of a timer beside the PSC field of TMR_CTL (R342). -/
inductive PreloadReg where
  | reload | cmp
deriving DecidableEq, Repr

/-- The register that holds a preload. -/
def PreloadReg.reg : PreloadReg → Reg
  | .reload => .TMR_RELOAD
  | .cmp => .TMR_CMP

/-- The data registers of a check-value unit (R353). -/
inductive CrcWidth where
  | four | two | one
deriving DecidableEq, Repr

/-- The data register that feeds this many bytes. -/
def CrcWidth.reg : CrcWidth → Reg
  | .four => .CRC_DATA
  | .two => .CRC_DATA2
  | .one => .CRC_DATA1

/-- A command word with code `k` in its OP field, bits [3:0]. -/
def withOp (v : Word) (k : Nat) : Word := (v &&& 0xFFFFFFF0) ||| BitVec.ofNat 32 k

end Sys2Proof.Machine
end

