-- ==== Sys2Proof/Syntax.lean ====
section
/-! DEFINITION. The commands of the AK7216: one constructor for each row of the table, with its operands. -/

namespace Sys2Proof

open Sys2Proof.Machine

/-- A command of the module or an event at its boundary. An operand gives what the command carries from outside, or what the
spec lets the outside decide: a measured value, a time passed, an error met. The commands without operands stand last. -/
inductive Instr where
  /-- Master `m` writes the `size` low bytes of `v` at address `a` (R10, R11). -/
  | registerWrite (m : Master) (a : Nat) (size : Nat) (v : Nat)
  /-- Master `m` reads address `a`, or writes `v` there (`write`), without being listed for the register (R14). -/
  | unlistedAccess (m : Master) (a : Nat) (write : Bool) (v : Word)
  /-- Host software reads BAR0 offset `off`, or writes `v` there (`write`), outside every mapped range (R33). -/
  | bar0Access (off : Nat) (write : Bool) (v : Word)
  /-- Master `m` reads at address `a`; `rd`: the size, and what a read of DRAM meets (R11, R42, R43, R47). -/
  | rcFieldRead (m : Master) (a : Nat) (rd : BusRead)
  /-- Master `m` writes `v` to GLB_NOCLR (R43). -/
  | noClrWrite (m : Master) (v : Word)
  /-- Master `m` writes `v`, with a lock or CFGLK bit at 1, at address `a` (R503). -/
  | lockBitSet (m : Master) (a : Nat) (v : Word)
  /-- Channel `c` receives a link frame of field die `d` (R22). -/
  | fieldLinkFrame (c : Chan) (d : Fin 2) (fr : FieldFrame)
  /-- Channel `c` has had no valid frame of field die `d` for 100 µs (R22). -/
  | fieldLinkTimeout (c : Chan) (d : Fin 2)
  /-- 100 consecutive valid frames of field die `d` end the error in channel `c` (R22). -/
  | fieldLinkRecovered (c : Chan) (d : Fin 2)
  /-- Field die `d` receives a command frame of channel `c` (R261). -/
  | commandFrame (c : Chan) (d : Fin 2) (fr : CommandFrame)
  /-- Field die `d` judges the link of channel `c` in error (R507). -/
  | dieLinkError (c : Chan) (d : Fin 2)
  /-- The first block under way on link `l` fails its check `fails` times before it passes (R45). -/
  | xlkBlock (l : XlkLink) (fails : Nat)
  /-- XLK_D (`linkD`) or XLK_C loses training (R45). -/
  | xlkTrainingLoss (linkD : Bool)
  /-- A cross link is trained again, with its version word (R24, R45). -/
  | xlkRetrainDone (up : LinkUp)
  /-- The patrol scrubber corrects `ce` errors and finds uncorrectable ones at the DRAM offsets `ue` (R47). -/
  | patrolScrub (ce : Nat) (ue : List Nat)
  /-- The DRAM devices report refresh-rate code `code` (R47). -/
  | refrateChange (code : Fin 256)
  /-- Master `m` writes `v` with EN = 1 to LANE_CTL of lane `n` (R79). -/
  | laneEnable (m : Master) (n : Fin 16) (v : Word)
  /-- Master `m` writes `v` with EN = 0 to LANE_CTL of lane `n` (R79). -/
  | laneDisable (m : Master) (n : Fin 16) (v : Word)
  /-- Master `m` writes `v` with LRST = 1 to LANE_CTL of lane `n` (R82). -/
  | laneReset (m : Master) (n : Fin 16) (v : Word)
  /-- A receiver of lane `n` acquires block lock (R49). -/
  | blockLockAcquired (n : Fin 16) (d : Dir)
  /-- A receiver of lane `n` loses block lock (R49). -/
  | blockLockLost (n : Fin 16) (d : Dir)
  /-- A control block of unknown type arrives on lane `n`, `gap` blocks after the last invalid one (R49, R51). -/
  | controlUnknown (n : Fin 16) (d : Dir) (gap : Nat)
  /-- 16 consecutive TS blocks have arrived on lane `n` (R54). -/
  | tsSequence (n : Fin 16) (d : Dir)
  /-- The peer's CAP arrives on lane `n` with its role code (R52). -/
  | capReceived (n : Fin 16) (d : Dir) (cap : CapWord) (role : Fin 256)
  /-- The peer's CAPACK arrives on lane `n` (R54). -/
  | capAckReceived (n : Fin 16) (d : Dir) (cap : CapWord)
  /-- A training attempt of lane `n` has not reached t4 within 5 ms (R55). -/
  | trainingTimeout (n : Fin 16) (d : Dir)
  /-- The peer's LINKDOWN arrives on lane `n` (R79). -/
  | linkDown (n : Fin 16) (d : Dir)
  /-- A frame arrives between SOF and EOF on lane `n` (R60, R72). -/
  | ingressFrame (n : Fin 16) (rx : RxFrame)
  /-- The frame errors of lane `n` in 1 s exceed ERRLIM (R65). -/
  | laneErrlim (n : Fin 16)
  /-- The oldest accepted frame of lane `n` is submitted if a pool entry and a reorder entry are free (R66). -/
  | segmentSubmit (n : Fin 16)
  /-- The slot timer of engine `n` expires (R108). -/
  | slotStart (n : Fin 16)
  /-- The driver board of lane `n` grants `k` credits (R77). -/
  | egressCredit (n : Fin 16) (k : Nat)
  /-- The next released segment of lane `n` is sent if a credit is held (R74). -/
  | egressSend (n : Fin 16)
  /-- A released segment of lane `n` has waited longer than STALL for a credit (R77). -/
  | egressStall (n : Fin 16)
  /-- The drain of lane `n` ends (R80). -/
  | drainComplete (n : Fin 16)
  /-- Check engine `k` completes its segment, having met the dose SRAM errors `e` (R86, R107). -/
  | checkComplete (k : Fin 16) (e : EccHits)
  /-- Segment `g` of engine `n` has been held by the scoreboard beyond CHK_HAZ_LIM (R103). -/
  | scoreboardStall (n : Fin 16) (g : Fin 32)
  /-- Master `m` writes `v` to CHK_CEOFF (R104). -/
  | ceoffWrite (m : Master) (v : Word)
  /-- The self-test of the offline check engine `k` ends (R105). -/
  | selftestDone (k : Fin 16) (pass : Bool)
  /-- Master `m` writes `w.val` with ZMLOAD = 1 to CHK_CTL; `w.ce`: the corrected errors that the load meets (R126). -/
  | zoneMapLoad (m : Master) (w : ZmapWrite)
  /-- Master `m` writes `v` with ACTIVATE = 1 to CHK_CTL (R113). -/
  | chkActivate (m : Master) (v : Word)
  /-- Master `m` writes `v` with START = 1 to CHK_ENV_CTL (R122). -/
  | envLoadStart (m : Master) (v : Word)
  /-- The loader finishes checking the image; `met`: the uncorrectable errors that its reads of the image meet (R121, R124). -/
  | envImageChecked (met : ImageErrs)
  /-- 1 s after a failed load of group `g`, channel A repeats it (R220). -/
  | envLoadRetry (g : Fin 16)
  /-- A B-slot of engine `n` ends (R133). -/
  | bSlotEnd (n : Fin 16)
  /-- The verdict of the segment in pool entry `entry` of lane `n` has not come within VTO µs (R141). -/
  | verdictTimeout (n : Fin 16) (entry : Fin 32)
  /-- The release gate takes the oldest segment of lane `n`; `met`: the errors that it meets (R47, R140, R164). -/
  | segmentRelease (n : Fin 16) (met : ReleaseErrs)
  /-- No report has come 100 µs after the verdict for pool entry `entry` of lane `n` (R148). -/
  | reportMissing (n : Fin 16) (entry : Fin 32)
  /-- SEO_A or SEO_B (`sideB`) of engine `n` has read back toggling, or static, for 120 µs (R156). -/
  | seoReadback (sideB : Bool) (n : Fin 16) (toggling : Bool)
  /-- Master `m` writes `v` with FLT_CLR = 1 to REL_SEO of engine `n` (R158). -/
  | seoFltClr (m : Master) (n : Fin 16) (v : Word)
  /-- Master `m` writes `v` to a register of owned outputs (R313). -/
  | ownedWrite (m : Master) (r : OwnedReg) (n : Fin 16) (v : Word)
  /-- Open entry `lseq` has had no recorded segment for CLOSE_TO ms (R163). -/
  | ledgerTimeout (lseq : Nat)
  /-- The header of the oldest entry is written; `met`: the errors that reading its records meets (R47, R164). -/
  | ledgerHeader (met : DramMet)
  /-- Master `m` writes `v` to LDG_CTL (R167). -/
  | ldgCtlWrite (m : Master) (v : Word)
  /-- Master `m` writes `v` to LDG_RDSEQ_LO (R173). -/
  | ldgRdSeqLo (m : Master) (v : Word)
  /-- Master `m` writes `v` to LDG_RDSEQ_HI (R171). -/
  | ldgRdSeqHi (m : Master) (v : Word)
  /-- A cycle of channel A ends; `late` has a bit for each function group that has not completed it (R176, R179). -/
  | evalBoundary (late : Nat)
  /-- The press of OPERATOR_RESET function `n` has lasted more than 3 s (R192). -/
  | resetStuck (n : Fin 256)
  /-- Channel `c` receives the partner's exchange frame `us` µs after t1; `altered` is what arrives in place of the frame
  that was sent (R183). -/
  | exchangeReceived (c : Chan) (us : Nat) (altered : Option (List Byte))
  /-- Channel `c` has had no valid partner frame by t1 + 30 µs (R182). -/
  | exchangeTimeout (c : Chan)
  /-- Master `m` writes `v` with START = 1 to SFN_CTL (R176). -/
  | sfnStart (m : Master) (v : Word)
  /-- Master `m` writes `v` to SFN_STAT of function `n` (R223). -/
  | sfnStatWrite (m : Master) (n : Fin 256) (v : Word)
  /-- Master `m` writes `v` with FLT_CLR = 1 to SO_CMD of pair `n` (R264). -/
  | soFltClr (m : Master) (n : Fin 16) (v : Word)
  /-- Master `m` writes `v` with RUN = 1 to TPG_CTL (R241). -/
  | tpgRun (m : Master) (v : Word)
  /-- Slot 15 ends and channel `c` forms its findings (R244). -/
  | tpDetection (c : Chan)
  /-- Field die `d` has had no period marker for 2·P (R242). -/
  | tpNoSync (d : Fin 2)
  /-- Test-pulse source `j` has stood at its current limit for 5 ms (R238). -/
  | tpOverload (j : Fin 16)
  /-- Source `j` retries 1 s after its overload (R238). -/
  | tpOverloadRetry (j : Fin 16)
  /-- The slot of source `j` begins (R240). -/
  | testPulseBegin (j : Fin 16)
  /-- The pulse of source `j` ends (R240). -/
  | testPulseEnd (j : Fin 16)
  /-- P_RB (`high`) or M_RB of SO pair `n` has differed for 1 ms (R256). -/
  | soReadback (n : Fin 16) (high : Bool)
  /-- The own switch of channel `c` in SO pair `n` has read back wrongly for 2 ms (R258). -/
  | channelMismatch (c : Chan) (n : Fin 16)
  /-- The scheduled off-pulse of a switch of SO pair `n` begins (R259). -/
  | soOffPulse (n : Fin 16) (high : Bool)
  /-- The off-pulse ends; its last readback sample is `rb` (R260). -/
  | soOffPulseEnd (n : Fin 16) (high : Bool) (rb : Bool)
  /-- The demagnetisation of an output completes (R271). -/
  | demagComplete (w : OutSw)
  /-- SO pair `n` has been in SHUTTING_DOWN for 200 ms (R261). -/
  | demagTimeout (n : Fin 16)
  /-- A switch has stood at its current limit for 5 ms (R269). -/
  | outputOverload (w : OutSw)
  /-- A switch reaches its temperature threshold (R270). -/
  | outputOvertemp (w : OutSw)
  /-- A hot switch falls below its restart threshold (R270). -/
  | outputCooled (w : OutSw)
  /-- Master `m` writes `v` with EN = 1 to DQ_CTL of DQ `n` (R267). -/
  | dqEnable (m : Master) (n : Fin 16) (v : Word)
  /-- Master `m` writes `v` with EN = 0 to DQ_CTL of DQ `n` (R267). -/
  | dqDisable (m : Master) (n : Fin 16) (v : Word)
  /-- Master `m` writes `v` with FLT_CLR = 1 to DQ_CTL of DQ `n` (R267). -/
  | dqFltClr (m : Master) (n : Fin 16) (v : Word)
  /-- The readback of DQ `n` has differed for 2 ms (R266). -/
  | dqReadback (n : Fin 16)
  /-- VFn_IN of group `g` falls below the warning threshold (R274). -/
  | supplyWarn (g : Fin 2)
  /-- VFn_IN of group `g` falls below cut-off (R274). -/
  | supplyBelow (g : Fin 2)
  /-- The cut-off of group `g` is confirmed after 1 ms (R274). -/
  | supCut (g : Fin 2)
  /-- VFn_IN of group `g` returns above cut-off before confirmation (R275). -/
  | supplyAbove (g : Fin 2)
  /-- VFn_IN of group `g` returns to the warning threshold (R274). -/
  | supplyRecovering (g : Fin 2)
  /-- VFn_IN of group `g` has stood at the warning threshold for 10 ms (R274). -/
  | supplyValid (g : Fin 2)
  /-- Readback suppression of group `g` ends (R276). -/
  | suppressionEnd (g : Fin 2)
  /-- 100 ms have passed since group `g` was valid or restored (R274). -/
  | uvRestore (g : Fin 2)
  /-- The current of group `g` has exceeded 7.0 A for 10 ms (R277). -/
  | groupTrip (g : Fin 2)
  /-- 1 s has passed since the trip of group `g` (R277). -/
  | groupRestore (g : Fin 2)
  /-- VFn_OUT of group `g` has stood at its limit for 5 ms (R278). -/
  | vfoutOverload (g : Fin 2)
  /-- VFn_OUT of group `g` retries 1 s after its overload (R278). -/
  | vfoutRetry (g : Fin 2)
  /-- Channel `c` forms the value of CLI `n` from the converter codes of the last 1 ms (R281). -/
  | cliValueForm (c : Chan) (n : Fin 8) (codes : List Nat)
  /-- The paths of CLI `n` have differed by more than 0.1 mA for 100 ms (R285). -/
  | cliDiscrepancy (n : Fin 8)
  /-- The 1 ms update of CLO `n` with its measured current in µA and its headroom in mV (R288). -/
  | cloUpdate (n : Fin 4) (meas : Nat) (headroom : Nat)
  /-- The current of CLO `n` has been below 0.5 mA for 20 ms (R288). -/
  | cloOpenFault (n : Fin 4)
  /-- The headroom of CLO `n` has been below 1.0 V for 50 ms (R289). -/
  | cloComplianceFault (n : Fin 4)
  /-- The measured current of CLO `n` has deviated by more than 0.2 mA for 50 ms (R288). -/
  | cloReadbackFault (n : Fin 4)
  /-- Master `m` writes `v` with EN = 1 to CLO_CTL of CLO `n` (R290). -/
  | cloEnable (m : Master) (n : Fin 4) (v : Word)
  /-- Master `m` writes `v` with EN = 0 to CLO_CTL of CLO `n` (R290). -/
  | cloDisable (m : Master) (n : Fin 4) (v : Word)
  /-- Master `m` writes `v` with FLT_CLR = 1 to CLO_CTL of CLO `n` (R290). -/
  | cloFltClr (m : Master) (n : Fin 4) (v : Word)
  /-- The ramp-down of CLO `n` ends (R290). -/
  | cloRampComplete (n : Fin 4)
  /-- Both comparators of Pod `p` report Differ at bundle bit `b` (R305). -/
  | podMismatch (p : Fin 6) (b : Fin 256) (addr : Word)
  /-- One comparator of Pod `p` reports Differ (R305). -/
  | comparatorFault (p : Fin 6) (b : Fin 256) (addr : Word)
  /-- The comparators of Pod `p` answer `c0` and `c1` to the injected bit (R306). -/
  | injectionTest (p : Fin 6) (c0 : Bool) (c1 : Bool)
  /-- The reset of Pod `p` ends (R319). -/
  | podResetDone (p : Fin 6)
  /-- A copy pass of the rejoin of Pod `p` completes (R320). -/
  | rejoinPassDone (p : Fin 6)
  /-- The final copy of the rejoin of Pod `p` ends (R320). -/
  | rejoinComplete (p : Fin 6)
  /-- No stall has been possible for Pod `p` within 64 boundaries (R323). -/
  | rejoinAbandon (p : Fin 6)
  /-- Master `m` writes `v` with REJOIN = 1 to POD_CTL of Pod `p` (R323). -/
  | rejoinRestart (m : Master) (p : Fin 6) (v : Word)
  /-- The image of Pod `p` has been read; `met`: the errors that its reading met (R47, R324). -/
  | podReloadDone (p : Fin 6) (met : DramMet)
  /-- A debugger attaches to Pod `p` in lockstep (R334, R461). -/
  | debugAttach (p : Fin 6)
  /-- A debugger attaches to a Pea of split Pod `p` (R337). -/
  | splitDebugAttach (p : Fin 6)
  /-- The debug port takes request `q` while DBG is not enabled (R31). -/
  | debugPortRefusal (q : PortRequest)
  /-- A debugger detaches from Pod `p` (R334). -/
  | debugDetach (p : Fin 6)
  /-- Master `m` writes `v` to TMR_CTL of timer `n` (R341). -/
  | tmrEnable (m : Master) (n : Fin 32) (v : Word)
  /-- Master `m` writes `v` to a preload register of timer `n` (R342). -/
  | tmrPreload (m : Master) (r : PreloadReg) (n : Fin 32) (v : Word)
  /-- Master `m` writes `v` to TMR_CAPCFG of timer `n` (R346). -/
  | tmrCapcfg (m : Master) (n : Fin 32) (v : Word)
  /-- The prescaler of timer `n` expires with the counter at its top (R340). -/
  | tmrWrap (n : Fin 32)
  /-- The next edge at the capture source of timer `n` in this clock reaches it: one of source `src`, rising or falling, in a
  clock in which CNT changes or not (R344 to R348). -/
  | tmrCapture (n : Fin 32) (src : Fin 256) (rising : Bool) (sameClock : Bool)
  /-- The counter of timer `n` has changed and is compared (R347). -/
  | tmrCompareMatch (n : Fin 32)
  /-- The prescaler of timer `n` expires with the counter below its top (R340). -/
  | tmrTick (n : Fin 32)
  /-- Master `m` feeds 4, 2 or 1 bytes of `v` to check-value unit `n` (R353). -/
  | crcDataWrite (m : Master) (w : CrcWidth) (n : Fin 8) (v : Word)
  /-- Master `m` writes `v` with INIT = 1 to CRC_CTL of unit `n` (R354). -/
  | crcInit (m : Master) (n : Fin 8) (v : Word)
  /-- Master `m` writes `v` with GO = 1 to CRC_CTL of unit `n` (R355). -/
  | crcGo (m : Master) (n : Fin 8) (v : Word)
  /-- Master `m` writes `v` with ABORT = 1 to CRC_CTL of unit `n`, which has read `k` bytes (R356). -/
  | crcAbort (m : Master) (n : Fin 8) (v : Word) (k : Nat)
  /-- Memory mode of unit `n` ends; `met`: the errors that its reads of DRAM met (R47, R355). -/
  | crcMemoryDone (n : Fin 8) (met : CrcMet)
  /-- Master `m` writes `v` to MBX_BIND of channel `ch` (R361). -/
  | mbxBindWrite (m : Master) (ch : Fin 32) (v : Word)
  /-- Master `m` writes message word `k` of channel `ch` (R365). -/
  | mbxMsgWrite (m : Master) (ch : Fin 32) (k : Fin 8) (v : Word)
  /-- Master `m` writes `v` to MBX_SEND of channel `ch` (R364). -/
  | mbxSend (m : Master) (ch : Fin 32) (v : Word)
  /-- Master `m` reads MBX_TAKE of channel `ch` (R366). -/
  | mbxTake (m : Master) (ch : Fin 32)
  /-- Master `m` reads MBX_SEM`n` (R371). -/
  | semAcquire (m : Master) (n : Fin 32)
  /-- Master `m` writes `v` with REL = 1 to MBX_SEM`n` (R373). -/
  | semRelease (m : Master) (n : Fin 32) (v : Word)
  /-- Event source `e` fires (R375). -/
  | eventFire (e : Fin 128)
  /-- The next MSI-X message is sent; `off`: PCI Express has the function masked or MSI-X disabled (R376). -/
  | msixSend (off : Bool)
  /-- Master `m` writes `v` to EVT_ROUTE of event `e` (R377). -/
  | evtRouteWrite (m : Master) (e : Fin 128) (v : Word)
  /-- Master `m` writes `v` to word `w` of EVT_PEND (R377). -/
  | evtPendClear (m : Master) (w : Fin 4) (v : Word)
  /-- Master `m` writes the SQ tail `v` of queue `q` (R379). -/
  | sqDoorbellRow (m : Master) (q : Fin 16) (v : Word)
  /-- Master `m` writes the CQ head `v` of queue `q` (R379). -/
  | cqDoorbellRow (m : Master) (q : Fin 16) (v : Word)
  /-- The DMA engine fetches `packet` from the SQ of the queue that takes the grant (R380). -/
  | sqFetch (packet : List Byte)
  /-- Master `m` writes `v` with EN = 1 to QUE_CTL of queue `q` (R383). -/
  | queueEnable (m : Master) (q : Fin 16) (v : Word)
  /-- Master `m` writes `v` with EN = 0 to QUE_CTL of queue `q` (R383). -/
  | queueDisable (m : Master) (q : Fin 16) (v : Word)
  /-- Queue `q` shutting down holds no command any more (R383). -/
  | queueDrained (q : Fin 16)
  /-- A fetch, or a CQ write (`write`), of queue `q` meets an error completion (R384). -/
  | queueTransferError (q : Fin 16) (write : Bool)
  /-- NCP NOP (R386). Command `k` of the outstanding commands of queue `q`. -/
  | nop (q : Fin 16) (k : Nat)
  /-- OPEN_SESSION (R390). Command `k` of the outstanding commands of queue `q`. -/
  | openSession (q : Fin 16) (k : Nat)
  /-- CLOSE_SESSION (R394). Command `k` of the outstanding commands of queue `q`. -/
  | closeSession (q : Fin 16) (k : Nat)
  /-- DEVICE_RESET (R406). Command `k` of the outstanding commands of queue `q`. -/
  | deviceReset (q : Fin 16) (k : Nat)
  /-- DEVICE_INFO. Command `k` of the outstanding commands of queue `q`. -/
  | deviceInfo (q : Fin 16) (k : Nat) (io : NcpIo)
  /-- STATE_READ. Command `k` of the outstanding commands of queue `q`. -/
  | stateRead (q : Fin 16) (k : Nat)
  /-- STAGE_WRITE with the host data in `io` (R389). Command `k` of the outstanding commands of queue `q`. -/
  | stageWrite (q : Fin 16) (k : Nat) (io : NcpIo)
  /-- CFG_VERIFY (R455). Command `k` of the outstanding commands of queue `q`. -/
  | cfgVerify (q : Fin 16) (k : Nat) (io : NcpIo)
  /-- CFG_INSTALL (R457). Command `k` of the outstanding commands of queue `q`. -/
  | cfgInstall (q : Fin 16) (k : Nat) (io : NcpIo)
  /-- CFG_COMMISSION with the signature in `io` and COMM_N low or not (R403). Command `k` of the outstanding commands of
  queue `q`. -/
  | cfgCommission (q : Fin 16) (k : Nat) (io : NcpIo) (commLow : Bool)
  /-- CFG_SLOTS_READ (R403). Command `k` of the outstanding commands of queue `q`. -/
  | cfgSlotsRead (q : Fin 16) (k : Nat) (io : NcpIo)
  /-- TRIAL_RUN (R405). Command `k` of the outstanding commands of queue `q`. -/
  | trialRun (q : Fin 16) (k : Nat)
  /-- OTP_READ (R404). Command `k` of the outstanding commands of queue `q`. -/
  | otpRead (q : Fin 16) (k : Nat) (io : NcpIo)
  /-- OTP_USR_WRITE (R440). Command `k` of the outstanding commands of queue `q`. -/
  | otpUsrWrite (q : Fin 16) (k : Nat)
  /-- OTP_FINALISE (R404). Command `k` of the outstanding commands of queue `q`. -/
  | otpFinalise (q : Fin 16) (k : Nat)
  /-- LANE_SERVICE (R401). Command `k` of the outstanding commands of queue `q`. -/
  | laneService (q : Fin 16) (k : Nat)
  /-- LANE_STATUS_READ. Command `k` of the outstanding commands of queue `q`. -/
  | laneStatusRead (q : Fin 16) (k : Nat) (io : NcpIo)
  /-- ENV_SELECT; `timeout`: no ENV_REPLY within 2·T_C + 20 µs (R402). Command `k` of the outstanding commands of queue `q`. -/
  | envSelect (q : Fin 16) (k : Nat) (timeout : Bool)
  /-- ENV_STATUS_READ. Command `k` of the outstanding commands of queue `q`. -/
  | envStatusRead (q : Fin 16) (k : Nat)
  /-- ZONE_STATUS_READ. Command `k` of the outstanding commands of queue `q`. -/
  | zoneStatusRead (q : Fin 16) (k : Nat) (io : NcpIo)
  /-- CHK_SELFTEST (R104). Command `k` of the outstanding commands of queue `q`. -/
  | chkSelftest (q : Fin 16) (k : Nat)
  /-- SAFETY_STATUS_READ. Command `k` of the outstanding commands of queue `q`. -/
  | safetyStatusRead (q : Fin 16) (k : Nat) (io : NcpIo)
  /-- SAFETY_TIMING_READ (R300). Command `k` of the outstanding commands of queue `q`. -/
  | safetyTimingRead (q : Fin 16) (k : Nat) (io : NcpIo)
  /-- EXCHANGE_STATUS_READ. Command `k` of the outstanding commands of queue `q`. -/
  | exchangeStatusRead (q : Fin 16) (k : Nat) (io : NcpIo)
  /-- DQ_SET (R267). Command `k` of the outstanding commands of queue `q`. -/
  | dqSet (q : Fin 16) (k : Nat)
  /-- CLO_SET (R290). Command `k` of the outstanding commands of queue `q`. -/
  | cloSet (q : Fin 16) (k : Nat)
  /-- IO_READ. Command `k` of the outstanding commands of queue `q`. -/
  | ioRead (q : Fin 16) (k : Nat) (io : NcpIo)
  /-- LEDGER_STATUS (R407). Command `k` of the outstanding commands of queue `q`. -/
  | ledgerStatus (q : Fin 16) (k : Nat) (io : NcpIo)
  /-- LEDGER_READ (R407). Command `k` of the outstanding commands of queue `q`. -/
  | ledgerRead (q : Fin 16) (k : Nat) (io : NcpIo)
  /-- LEDGER_ACK (R171, R407). Command `k` of the outstanding commands of queue `q`. -/
  | ledgerAck (q : Fin 16) (k : Nat)
  /-- FW_VERIFY (R455). Command `k` of the outstanding commands of queue `q`. -/
  | fwVerify (q : Fin 16) (k : Nat) (io : NcpIo)
  /-- FW_INSTALL (R456). Command `k` of the outstanding commands of queue `q`. -/
  | fwInstall (q : Fin 16) (k : Nat) (io : NcpIo)
  /-- FW_STATUS. Command `k` of the outstanding commands of queue `q`. -/
  | fwStatus (q : Fin 16) (k : Nat)
  /-- ATTEST_IDENTITY (R451). Command `k` of the outstanding commands of queue `q`. -/
  | attestIdentity (q : Fin 16) (k : Nat) (io : NcpIo)
  /-- ATTEST_REPORT (R459). Command `k` of the outstanding commands of queue `q`. -/
  | attestReport (q : Fin 16) (k : Nat) (io : NcpIo)
  /-- LOG_STATUS (R408). Command `k` of the outstanding commands of queue `q`. -/
  | logStatus (q : Fin 16) (k : Nat)
  /-- LOG_READ (R409). Command `k` of the outstanding commands of queue `q`. -/
  | logRead (q : Fin 16) (k : Nat) (io : NcpIo)
  /-- EVT_ROUTE_SET (R377). Command `k` of the outstanding commands of queue `q`. -/
  | evtRouteSet (q : Fin 16) (k : Nat)
  /-- ACCESS_VIOL_READ. Command `k` of the outstanding commands of queue `q`. -/
  | accessViolRead (q : Fin 16) (k : Nat)
  /-- The service cores write the next event-log record, or could not write it within 10 ms (`lost`) (R408). -/
  | logRecordWrite (lost : Bool)
  /-- A connection boundary of peer `p` (R415). -/
  | npsBoundary (p : Fin 16)
  /-- The A-die completes and sends the frame of peer `p`; `late`: its fields came too late (R415). -/
  | npsFrameSend (p : Fin 16) (late : Bool)
  /-- The A-die forwards the received Ethernet frame `bytes` to the B-die (R419). -/
  | npsForward (bytes : List Byte)
  /-- Channel `c` takes a CONN (R427) of peer `p`: the Ethernet frame `bytes` in channel A, the next forwarded one in channel
  B. -/
  | npsConnReceived (c : Chan) (p : Fin 16) (bytes : List Byte)
  /-- Channel `c` takes a CONNACK (R426) of peer `p`: the Ethernet frame `bytes` in channel A, the next forwarded one in
  channel B. -/
  | npsConnackReceived (c : Chan) (p : Fin 16) (bytes : List Byte)
  /-- Channel `c` takes a DATA frame (R420) of peer `p`: the Ethernet frame `bytes` in channel A, the next forwarded one in
  channel B. -/
  | npsDataReceived (c : Chan) (p : Fin 16) (bytes : List Byte)
  /-- Channel `c` takes a CLOSE (R426) of peer `p`: the Ethernet frame `bytes` in channel A, the next forwarded one in
  channel B. -/
  | npsCloseReceived (c : Chan) (p : Fin 16) (bytes : List Byte)
  /-- The watchdog of peer `p` expires in channel `c` (R424). -/
  | npsWatchdog (c : Chan) (p : Fin 16)
  /-- Master `m` writes `v` with OP = PROGRAM (R441) to OTP_CMD. -/
  | otpProgram (m : Master) (v : Word)
  /-- Master `m` writes `v` with OP = FINALISE (R442) to OTP_CMD. -/
  | otpCmdFinalise (m : Master) (v : Word)
  /-- Master `m` writes `v` with OP = RESCAN (R436) to OTP_CMD. -/
  | otpRescan (m : Master) (v : Word)
  /-- Master `m` writes `v` with OP = KEYGEN (R450) to OTP_CMD. -/
  | otpKeygen (m : Master) (v : Word)
  /-- Master `m` writes `v` with OP = LC_ADVANCE (R447) to OTP_CMD. -/
  | otpLcAdvance (m : Master) (v : Word)
  /-- Master `m` writes `v` with OP = RBK_ADVANCE (R440) to OTP_CMD. -/
  | otpRbkAdvance (m : Master) (v : Word)
  /-- Master `m` writes `v` with OP = COMMISSION to OTP_CMD, with COMM_N low or not (R445). -/
  | otpCommission (m : Master) (v : Word) (commLow : Bool)
  /-- The running OTP operation ends; `devs`: the copies that stay unburned, or what a RESCAN reads otherwise (R440, R441). -/
  | otpDone (devs : List Deviation)
  /-- Master `m` writes `v` with HOLDREL = 1 to OTP_CTL (R439). -/
  | otpHoldRel (m : Master) (v : Word)
  /-- Master `m` writes `v` with OP = HASH_MEM to SEC_CMD (R463). -/
  | secHashMem (m : Master) (v : Word)
  /-- Master `m` writes `v` with OP = HASH_BUF to SEC_CMD (R463). -/
  | secHashBuf (m : Master) (v : Word)
  /-- Master `m` writes `v` with OP = VERIFY to SEC_CMD (R463). -/
  | secVerify (m : Master) (v : Word)
  /-- Master `m` writes `v` with OP = SIGN_ID to SEC_CMD (R463). -/
  | secSignId (m : Master) (v : Word)
  /-- Master `m` writes `v` with OP = RANDOM to SEC_CMD (R463). -/
  | secRandom (m : Master) (v : Word)
  /-- Master `m` writes `v` with OP = IDPUB to SEC_CMD (R463). -/
  | secIdPub (m : Master) (v : Word)
  /-- Master `m` writes `v` with OP = abort to SEC_CMD (R463). -/
  | secHashAbort (m : Master) (v : Word)
  /-- The running SEC command ends; `bad`: the random source fails its health tests; `met`: the errors that its reads of DRAM
  met (R47, R463). -/
  | secDone (bad : Bool) (met : DramMet)
  /-- Mesh segments are found breached (R460). -/
  | rindBreach (mask : Fin 256)
  /-- A debug unlock arrives at DBGUNLK: public key, ROT slot and signature (R462). -/
  | debugUnlock (key : List Byte) (slot : Nat) (sig : List Byte) (cut : OtpCut)
  /-- VSYS leaves its supervisor window, or returns (R464, R481); `cut`: how far a running OTP operation has come. -/
  | powerOnReset (v : Supply) (cut : OtpCut)
  /-- NRST_IN_N falls beyond the filter (R472). -/
  | nrstLow (cut : OtpCut)
  /-- Master `m` writes the keyed request to CLK_RSTREQ (R473). -/
  | resetRequest (m : Master)
  /-- The A-die, or the B-die (`sideB`), has stood at 130 °C for 1 ms (R484). -/
  | thermalTrip (sideB : Bool) (cut : OtpCut)
  /-- VSYS_B leaves its supervisor window, or returns (`ok`) (R482). -/
  | bdieSupervisor (ok : Bool)
  /-- REFCLK is stable and the PLLs lock; VSYS and VSYS_B measure `va` and `vb` mV (R464). -/
  | pllLocked (va : Fin 65536) (vb : Fin 65536)
  /-- Fuses are sensed: what copies read otherwise, SPLIT_EN, the random source's health and the breached segments (R433). -/
  | fuseSensing (devs : List Deviation) (strap : Bool) (rng : Bool) (rind : Fin 256)
  /-- The boot ROM starts; the B-die reports cross-link version `ver` (R464). -/
  | bootRomStart (ver : Nat) (commLow : Bool)
  /-- DRAM is trained, or every attempt has failed (R47). -/
  | dramTrained (ok : Bool)
  /-- The configuration package is verified and loaded; `c` is what its body says (R446). -/
  | configLoad (c : PkgConfig)
  /-- The configuration is set up with the register writes that the package lists (R464). -/
  | configSetup (writes : List (Nat × Word))
  /-- The start-up tests end; masks of the SO pairs whose P_RB or M_RB is wrong and of the sources that read 0 (R466). -/
  | startupTests (failP : Nat) (failM : Nat) (tpLow : Nat)
  /-- The B-die's self-test ends, with the version word of XLK_D (R24, R464). -/
  | bdieSelftest (res : BSelftest)
  /-- REFCLK is lost, or PLL_MAIN loses lock (`pll`) (R477). -/
  | refclkLoss (pll : Bool)
  /-- The PLL_SER of a quad loses lock (R477). -/
  | pllSerLoss (quad : Fin 4)
  /-- XB fails, or the B-die's PLL (`pll`) (R477). -/
  | xbLoss (pll : Bool)
  /-- A 1 ms window ends with `a` TIMEBASE ticks and `b` B_CLK cycles counted (R479). -/
  | clockWindow (a : Nat) (b : Nat)
  /-- Master `m` writes `v` to CLK_GATE (R480). -/
  | clkGateWrite (m : Master) (v : Word)
  /-- VSYS, or VSYS_B (`sideB`), measures `mv` and has been below 10.8 V for 1 ms (R481). -/
  | vsysWarn (sideB : Bool) (mv : Fin 65536)
  /-- Temperature sensor `k` reads `t` sixteenths of a degree Celsius (R483). -/
  | thermalWarn (k : Fin 7) (t : Int)
  /-- The seven sensors read `ts`, 5 K below WARN (R483). -/
  | thermalRearm (ts : List Int)
  /-- A B-die status frame arrives (R44). -/
  | xlkStatusFrame
  /-- No status frame for 100 µs (R44). -/
  | xlkMirrorTimeout
  /-- XLK_C has had no valid traffic for 200 µs (R482). -/
  | xlkcSilence
  /-- The scheduler grants a free check engine to the next candidate (R101). -/
  | segmentDispatch
  /-- A 62.5 ms exceedance bin ends (R93). -/
  | exceedBinEnd
  /-- Cold initialisation ends (R112). -/
  | coldInitComplete
  /-- A peak epoch ends (R114). -/
  | peakEpochEnd
  /-- The loader has written zone records and ceilings (R122). -/
  | envWriteDone
  /-- The loader has computed the envelope digest (R123). -/
  | envDigestDone
  /-- The B-die's answer to an envelope digest arrives (R122). -/
  | envVerifyReply
  /-- The B-die has not answered within 1 ms (R122). -/
  | envVerifyTimeout
  /-- The B-die receives an envelope digest and compares it (R122). -/
  | bEnvCheck
  /-- The Tile Checker takes the next frame from XLK_D (R129). -/
  | bdieFrame
  /-- The release gate takes the next verdict (R138). -/
  | verdictReceived
  /-- The B-die takes the next release report (R148). -/
  | releaseReport
  /-- The A-die takes the next B-side engine-fault notice (R149). -/
  | engineFaultNotice
  /-- The checkpoint signature completes (R167). -/
  | checkpointSigned
  /-- Channel B reaches its cycle boundary (R180). -/
  | bCycleBoundary
  /-- The B-die takes the message on channel 30 (R370). -/
  | envRequest
  /-- A test-pulse period starts (R241). -/
  | tpPeriodStart
  /-- The PCI Express link is lost (R394). -/
  | pcieLinkLoss
  /-- PERST_N resets the PCI Express endpoint (R475). -/
  | perst
  /-- The PCI Express link comes up (R475). -/
  | pcieLinkUp
  /-- NRST_IN_N rises (R472). -/
  | nrstRelease
  /-- Every die reads below 115 °C (R484). -/
  | thermalRelease
  /-- The boot ROM verifies the firmware areas and starts one (R456). -/
  | firmwareStart
  /-- The first exchange has been made (R221). -/
  | safeReady
  /-- The time that the B-die has for its start is over (R467). -/
  | bdieStartTimeout
  /-- PLL_DDR loses lock (R477). -/
  | pllDdrLoss
  /-- PLL_DDR locks again (R477). -/
  | pllDdrRelock
deriving DecidableEq, Repr

end Sys2Proof
end

