-- ==== Sys2Proof/Machine/Ops.lean ====
section
/-! DEFINITION. The named operations over the hardware's registers, events and outputs. -/

namespace Sys2Proof.Machine

/-- The word of register `r`, word `n`. -/
def Hw.word (h : Hw) (r : Reg) (n : Nat) : Word := Store.get regDefault h.regs (r.key n)

/-- Put a word into register `r`, word `n`. -/
def Hw.putWord (h : Hw) (r : Reg) (n : Nat) (v : Word) : Hw :=
  { h with regs := Store.put regDefault h.regs (r.key n) v }

/-- The value of a field. -/
def Hw.get (h : Hw) (f : Fld) (n : Nat) : Nat := ((h.word f.reg n).extractLsb' f.lo f.w).toNat

/-- A word with `v`, cut to `w` bits, in its bits `lo` to `lo + w - 1` (R9). -/
def putBits (x : Word) (lo w v : Nat) : Word :=
  (x &&& ~~~(((BitVec.allOnes w).setWidth 32) <<< lo)) ||| (((BitVec.ofNat w v).setWidth 32) <<< lo)

/-- Set a field to `v`, cut to the field's width. -/
def Hw.set (h : Hw) (f : Fld) (n : Nat) (v : Nat) : Hw :=
  h.putWord f.reg n (putBits (h.word f.reg n) f.lo f.w v)

/-- A field read as a flag. -/
def Hw.on (h : Hw) (f : Fld) (n : Nat) : Bool := h.get f n != 0

/-- Set a one-bit field from a Bool. -/
def Hw.setB (h : Hw) (f : Fld) (n : Nat) (b : Bool) : Hw := h.set f n (bit b)

/-- Advance a counter field by `k`, saturating at its largest value. -/
def Hw.bump (h : Hw) (f : Fld) (n : Nat) (k : Nat) : Hw := h.set f n (min (h.get f n + k) (2 ^ f.w - 1))

/-- Advance a counter field by one, wrapping. -/
def Hw.wrap (h : Hw) (f : Fld) (n : Nat) : Hw := h.set f n (h.get f n + 1)

/-- Bit `k` of a field. -/
def Hw.bitOf (h : Hw) (f : Fld) (n k : Nat) : Bool := Nat.testBit (h.get f n) k

/-- Set or clear bit `k` of a field. -/
def Hw.setBit (h : Hw) (f : Fld) (n k : Nat) (b : Bool) : Hw := h.set f n (nsetBit (h.get f n) k b)

/-- Apply an operation when a condition holds. -/
def Hw.when (h : Hw) (c : Bool) (f : Hw → Hw) : Hw := if c then f h else h

/-- Apply an operation to each number below `n`, from 0 upwards. -/
def Hw.forUpTo (h : Hw) (n : Nat) (f : Nat → Hw → Hw) : Hw := (List.range n).foldl (fun x i => f i x) h

/-- Apply an operation to each element of a list in turn. -/
def Hw.forEach {α : Type} (h : Hw) (l : List α) (f : α → Hw → Hw) : Hw := l.foldl (fun x i => f i x) h

/-- Send something to the surroundings. -/
def Hw.emit (h : Hw) (o : Output) : Hw := { h with out := h.out ++ [o] }

/-- The lane that an output leaves on. -/
def Output.onLane : Output → Option Nat
  | .laneBlock n _ _ _ => some n
  | .egressFrame n _ => some n
  | _ => none

/-- CLK_GATE runs the serial clock of the quad of lane `n` (R480). -/
def Hw.quadOn (h : Hw) (n : Nat) : Bool := h.bitOf F.CLK_GATE_QUAD 0 (n / 4)

/-- Send on a slice lane: its transmitters are in electrical idle except in STARTUP, RUN and TRIAL (R488), and without the serial
clock of its quad (R480). -/
def Hw.emitLane (h : Hw) (o : Output) : Hw :=
  if (h.get F.GLB_STATE_STATE 0 = 1 ∨ h.get F.GLB_STATE_STATE 0 = 2 ∨ h.get F.GLB_STATE_STATE 0 = 3) ∧ o.onLane.all h.quadOn = true
  then h.emit o else h


/-- The 64-bit number that two registers hold, low word first. -/
def Hw.get64 (h : Hw) (lo hi : Fld) : Nat := h.get lo 0 + 2 ^ 32 * h.get hi 0

/-- Put a 64-bit number into two registers, low word first. -/
def Hw.set64 (h : Hw) (lo hi : Fld) (v : Nat) : Hw := (h.set lo 0 (v % 2 ^ 32)).set hi 0 (v / 2 ^ 32 % 2 ^ 32)

/-- Put bytes into an array of registers, four to a word, byte 0 in bits [7:0] of word 0. -/
def Hw.setBytes (h : Hw) (r : Reg) : Nat → List Byte → Hw
  | n, b0 :: b1 :: b2 :: b3 :: bs => (h.putWord r n (BitVec.ofNat 32 (ofBytesLE [b0, b1, b2, b3]))).setBytes r (n + 1) bs
  | _, _ => h

/-- The bytes of `k` words of an array of registers, byte 0 in bits [7:0] of word 0. -/
def Hw.getBytes (h : Hw) (r : Reg) (k : Nat) : List Byte := (List.range k).flatMap fun n => bytesLE 4 (h.word r n).toNat

/-! ### Cross link XLK_C (R45) -/

/-- The A-die offers a message on XLK_C; a link that is not trained drops it. -/
def Hw.sendB (h : Hw) (m : AtoB) : Hw :=
  if h.on F.XLK_STAT_XLKC_UP 0 then { h with toB := h.toB ++ [m] } else h.setB F.XLK_ERR_XLKC_DROP 0 true

/-- The B-die runs: it has its supply, its crystal and its PLL (R477, R482). -/
def BDie.runs (b : BDie) : Bool := b.vsysOk && b.xbOk && b.pllLock

/-- The B-die offers a message on XLK_C; a link that is not trained drops it, and a B-die that does not run sends none. -/
def Hw.sendA (h : Hw) (m : BtoA) : Hw :=
  if !h.b.runs then h
  else if h.on F.XLK_STAT_XLKC_UP 0 then { h with toA := h.toA ++ [m] } else h.setB F.XLK_ERR_XLKC_DROP 0 true

/-! ### Free values -/

/-- Draw a fresh free value: the counter of draws advances. -/
def Hw.draw (h : Hw) : Hw := { h with draws := h.draws + 1 }

/-! ### Events (R374 to R376) -/

/-- The route kind code for MSI-X (EVT_ROUTE.KIND). -/
def routeMsix : Nat := 3

/-- Queue an MSI-X message for event `e` if its route and mask send it to a vector (R376). -/
def Hw.queueMsix (h : Hw) (e : Nat) : Hw :=
  if h.get F.EVT_ROUTE_KIND e = routeMsix ∧ h.bitOf F.EVT_MASK_MASK (e / 32) (e % 32) = false
  then { h with msixQ := h.msixQ ++ [h.get F.EVT_ROUTE_INDEX e] } else h

/-- An occurrence waits for its event-log record (R408). -/
def Hw.log (h : Hw) (cls code inst : Nat) (data : List Byte) : Hw :=
  { h with logQ := h.logQ ++ [{ cls := cls, code := code, inst := inst, time := h.time, data := data }] }

/-- A pulse source of the timers' captures gives an edge in this clock (R344). -/
def Hw.pulse (h : Hw) (src : Nat) : Hw := { h with pulses := h.pulses ++ [src] }

/-- Event `e` fires for instance `i`: its pending bit rises, is logged and signals its target, or the event merges into a
pending bit that is already 1 and is counted; either way it is a pulse at capture source `e` (R344, R374 to R376, R408). -/
def Hw.raiseAt (h : Hw) (e i : Nat) : Hw :=
  if h.bitOf F.EVT_PEND_PEND (e / 32) (e % 32) then (h.bump F.EVT_MERGECNT_COUNT 0 1).pulse e
  else (((h.setBit F.EVT_PEND_PEND (e / 32) (e % 32) true).queueMsix e).log 1 e i []).pulse e

/-- The instance that an event number names: lane, engine, timer or check-value unit (R409). -/
def eventInst (e : Nat) : Nat :=
  if e < 32 then e % 16 else if 64 ≤ e ∧ e < 96 then e - 64 else if 96 ≤ e ∧ e < 104 then e - 96 else 0

/-- Event `e` fires. -/
def Hw.raise (h : Hw) (e : Nat) : Hw := h.raiseAt e (eventInst e)

/-! ### Lanes, check engines and B-side engines as tables -/

/-- Lane `n`. -/
def Hw.lane (h : Hw) (n : Nat) : Lane := Store.get (fun _ => {}) h.lanes n

/-- Change lane `n`. -/
def Hw.updLane (h : Hw) (n : Nat) (f : Lane → Lane) : Hw :=
  { h with lanes := Store.upd (fun _ => {}) h.lanes n f }

/-- Check engine `m`. -/
def Hw.ce (h : Hw) (m : Nat) : CheckEngine := Store.get (fun _ => {}) h.pool.ces m

/-- Change check engine `m`. -/
def Hw.updCe (h : Hw) (m : Nat) (f : CheckEngine → CheckEngine) : Hw :=
  { h with pool := { h.pool with ces := Store.upd (fun _ => {}) h.pool.ces m f } }

/-- The B-die's record of engine `n`. -/
def Hw.bEng (h : Hw) (n : Nat) : BEngine := Store.get (fun _ => {}) h.b.engines n

/-- Change the B-die's record of engine `n`. -/
def Hw.updBEng (h : Hw) (n : Nat) (f : BEngine → BEngine) : Hw :=
  { h with b := { h.b with engines := Store.upd (fun _ => {}) h.b.engines n f } }

/-- Change the field I/O. -/
def Hw.updFio (h : Hw) (f : Fio → Fio) : Hw := { h with fio := f h.fio }

/-! ### Device state (R221) -/

/-- GLB_STATE.STATE codes. -/
def devBoot : Nat := 0
@[inherit_doc devBoot] def devStartup : Nat := 1
@[inherit_doc devBoot] def devRun : Nat := 2
@[inherit_doc devBoot] def devTrial : Nat := 3
@[inherit_doc devBoot] def devSafeHold : Nat := 4
@[inherit_doc devBoot] def devUnconfigured : Nat := 5

/-- The device state. -/
def Hw.dev (h : Hw) : Nat := h.get F.GLB_STATE_STATE 0

/-! ### Owned outputs (R313) -/

/-- The slot numbers of owned outputs in a Pod's image. -/
def slotSfn (n : Nat) : Nat := n
@[inherit_doc slotSfn] def slotSo (n : Nat) : Nat := 256 + n
@[inherit_doc slotSfn] def slotSeo (n : Nat) : Nat := 272 + n
@[inherit_doc slotSfn] def slotZone (z : Nat) : Nat := 288 + z
@[inherit_doc slotSfn] def slotPeer (p k : Nat) : Nat := 352 + 2 * p + k

/-- What an image slot holds at reset: the reset word of SFN_STAT, or 0. -/
def imageDefault (k : Nat) : Nat := if k % 1024 < 256 then Reg.resetWord .SFN_STAT |>.toNat else 0

/-- The image of one owned output in Pod `p`. -/
def Hw.image (h : Hw) (p slot : Nat) : Nat := Store.get imageDefault h.images (p * 1024 + slot)

/-- Write the image of one owned output in Pod `p`. -/
def Hw.putImage (h : Hw) (p slot v : Nat) : Hw :=
  { h with images := Store.put imageDefault h.images (p * 1024 + slot) v }

/-- The pair that owns an output: 0 to 2, or 3 for none (R313, R418). -/
def Hw.ownerPair (h : Hw) (slot : Nat) : Nat :=
  if slot < 256 then h.get F.SFN_CFG_PAIR slot
  else if slot < 272 then nfield (h.get F.POD_OWN_SO_OWN 0) (2 * (slot - 256)) 2
  else if slot < 288 then nfield (h.get F.POD_OWN_SEO_OWN 0) (2 * (slot - 272)) 2
  else if slot < 352 then nfield (h.get F.POD_OWN_ZONE_OWN ((slot - 288) / 16)) (2 * ((slot - 288) % 16)) 2
  else h.get F.NPS_CFG_PAIR ((slot - 352) / 2)

/-- The Pod of pair `q` that is its vote source; the even Pod while neither is. -/
def Hw.voteSource (h : Hw) (q : Nat) : Nat := if h.on F.POD_STAT_VOTE (2 * q + 1) then 2 * q + 1 else 2 * q

/-- The value of an owned output: the image of the owning pair's vote source; an output without owner keeps its reset
value (R313). -/
def Hw.owned (h : Hw) (slot : Nat) : Nat :=
  if h.ownerPair slot < 3 then h.image (h.voteSource (h.ownerPair slot)) slot else imageDefault slot

/-- The pair of a Pod. -/
def pairOf (p : Nat) : Nat := p / 2

/-- A flag per pair from the three fields of POD_PAIR. -/
def pairFld (f0 f1 f2 : Fld) (q : Nat) : Fld := if q = 0 then f0 else if q = 1 then f1 else f2

/-- Pair `q` is forced SAFE (R324, R335). -/
def Hw.forcedPair (h : Hw) (q : Nat) : Bool := h.on (pairFld F.POD_PAIR_GSAFE0 F.POD_PAIR_GSAFE1 F.POD_PAIR_GSAFE2 q) 0

/-- What channel A applies at an owned output since t2 of the last cycle (R177, R313). -/
def Hw.appliedAt (h : Hw) (slot : Nat) : Nat := Store.get (fun _ => 0) h.applied slot

/-- Apply a value at an owned output. -/
def Hw.putApplied (h : Hw) (slot v : Nat) : Hw := { h with applied := Store.put (fun _ => 0) h.applied slot v }

/-- REL[n].SEO.PERMIT as applied. -/
def Hw.relPermit (h : Hw) (n : Nat) : Bool := h.appliedAt (slotSeo n) != 0

/-- Bit z of CHK_ZOPEN as applied. -/
def Hw.zopen (h : Hw) (z : Nat) : Bool := h.appliedAt (slotZone z) != 0

/-! ### Lane states (R78, R79) -/

/-- Lane state codes (LANE_STAT.IN_STATE, EG_STATE). -/
def laneOff : Nat := 0
@[inherit_doc laneOff] def laneTraining : Nat := 1
@[inherit_doc laneOff] def laneResync : Nat := 2
@[inherit_doc laneOff] def laneActive : Nat := 3
@[inherit_doc laneOff] def laneShutting : Nat := 4
@[inherit_doc laneOff] def laneFault : Nat := 5

/-- The state field of a direction. -/
def stateFld : Dir → Fld
  | .ingress => F.LANE_STAT_IN_STATE
  | .egress => F.LANE_STAT_EG_STATE

/-- The state of a direction of lane `n`. -/
def Hw.laneState (h : Hw) (n : Nat) (d : Dir) : Nat := h.get (stateFld d) n

/-- RESYNC or ACTIVE. -/
def laneLive (st : Nat) : Bool := st == laneResync || st == laneActive

/-- Lane `n` is in service (R78). -/
def Hw.inService (h : Hw) (n : Nat) : Bool :=
  laneLive (h.laneState n .ingress) && h.laneState n .egress == laneActive

/-! ### SEO_A lines (R153, R155, R78, R216) -/

/-- SEO_An permits: its PERMIT bit, the lane in service, no A-side engine fault, the device in RUN, channel A's drive
latch clear, and no integrity hold (R439). -/
def Hw.seoA (h : Hw) (n : Nat) : Bool :=
  h.relPermit n && h.inService n && !h.on F.REL_STAT_AFAULT n && h.dev == devRun && !(h.lane n).seoLatch &&
    !h.on F.OTP_STAT_HOLD 0

end Sys2Proof.Machine
end

