-- ==== Sys2Proof/Machine/Access.lean ====
section
/-! DEFINITION. What a bus write does to the fields of one register by their access types (R11, R16). -/

namespace Sys2Proof.Machine

/-- A written value is accepted by a field (R16). -/
def FieldInfo.accepts (f : FieldInfo) (v : Nat) : Bool := f.ok.isEmpty || f.ok.any fun r => decide (r.1 ≤ v ∧ v ≤ r.2)

/-- One field of a register word after a write of `v`; `locked` says whether its RWL fields are locked. -/
def FieldInfo.after (f : FieldInfo) (locked : Bool) (old v : Word) : Word :=
  let o := (old.extractLsb' f.lo f.w).toNat
  let x := (v.extractLsb' f.lo f.w).toNat
  match f.ty with
  | .rw => if f.accepts x then putBits old f.lo f.w x else old
  | .rwl => if !locked && f.accepts x then putBits old f.lo f.w x else old
  | .w1c => putBits old f.lo f.w (Nat.land o (2 ^ f.w - 1 - x))
  | .w1s => putBits old f.lo f.w (Nat.lor o x)
  | .ro => old
  | .rc => old
  | .wo => old

/-- The word of a register after a write. -/
def Reg.after (r : Reg) (locked : Bool) (old v : Word) : Word := r.info.fields.foldl (fun w f => f.after locked w v) old

/-- A write of `v` to word `n` of register `r`. -/
def Hw.writeFields (h : Hw) (r : Reg) (n : Nat) (locked : Bool) (v : Word) : Hw :=
  h.putWord r n (r.after locked (h.word r n) v)

/-- The RC fields of a register word cleared (R11). -/
def Reg.cleared (r : Reg) (old : Word) : Word :=
  r.info.fields.foldl (fun w f => if f.ty = .rc then putBits w f.lo f.w 0 else w) old

/-- Bit `k` of a written word. -/
def wbit (v : Word) (k : Nat) : Bool := v.getLsbD k

/-- The bits of a field in a word. -/
def Fld.val (f : Fld) (v : Word) : Nat := (v.extractLsb' f.lo f.w).toNat

/-- A word with a field replaced. -/
def Fld.put (f : Fld) (w : Word) (v : Nat) : Word := putBits w f.lo f.w v

/-- A written one-bit field is 1. -/
def Fld.one (f : Fld) (v : Word) : Bool := f.val v != 0

end Sys2Proof.Machine
end

