-- ==== Sys2Proof/Machine/Crypto.lean ====
section
/-! DEFINITION. SHAKE256 of FIPS 202 and the digests built on it (spec/00_scope.md, spec/14_fuses_lifecycle_security.md). -/

namespace Sys2Proof.Machine

/-- The state of the SHAKE256 unit: five planes of five 64-bit lanes, plane `y` holding its lanes in the order of `x`. -/
abbrev Planes := List (List (BitVec 64))

/-- The exclusive or of two planes. -/
def mixPlanes (p q : List (BitVec 64)) : List (BitVec 64) := List.zipWith (· ^^^ ·) p q

/-- A plane seen from lane `k` on, cyclically. -/
def seenFrom (k : Nat) (p : List (BitVec 64)) : List (BitVec 64) := p.drop k ++ p.take k

/-- Theta: every plane takes up the column parity of the lane before and, turned by one bit, of the lane after. -/
def thetaStep (s : Planes) : Planes :=
  let parity := s.foldl mixPlanes (List.replicate 5 0)
  let effect := mixPlanes (seenFrom 4 parity) ((seenFrom 1 parity).map (·.rotateLeft 1))
  s.map (mixPlanes effect)

/-- Rho: lanes visited on the walk (x, y) → (y, 2x + 3y) from (1, 0) turn by the triangular numbers; `n` of the 24 visits are
left. -/
def rhoWalk : Nat → Nat → Nat → Planes → Planes
  | 0, _, _, s => s
  | n + 1, x, y, s =>
    let visit := 24 - n
    rhoWalk n y ((2 * x + 3 * y) % 5) (s.modify y fun p => p.modify x (·.rotateLeft (visit * (visit + 1) / 2 % 64)))

/-- Pi: lane (x, y) comes from lane (x + 3y, x). -/
def piStep (s : Planes) : Planes :=
  (List.range 5).map fun y => List.zipWith (fun x p => p.getD ((x + 3 * y) % 5) 0) (List.range 5) s

/-- Chi, within a plane. -/
def chiStep (p : List (BitVec 64)) : List (BitVec 64) :=
  mixPlanes p (List.zipWith (fun b c => ~~~b &&& c) (seenFrom 1 p) (seenFrom 2 p))

/-- One step of the shift register, with the polynomial x⁸ + x⁶ + x⁵ + x⁴ + 1, whose low bits make the round constants. -/
def rcShift (r : Nat) : Nat := if r < 128 then 2 * r else (2 * r) ^^^ 0x171

/-- The round constant that the register `r` gives, with bits at the places 2^j − 1 for j from `7 - n` to 6, and the register
after it. -/
def rcTake : Nat → Nat → Nat × Nat
  | 0, r => (0, r)
  | n + 1, r =>
    let rest := rcTake n (rcShift r)
    (r % 2 * 2 ^ (2 ^ (6 - n) - 1) + rest.1, rest.2)

/-- Iota: the round constant goes into lane (0, 0). -/
def iotaStep (rc : Nat) (s : Planes) : Planes := s.modify 0 fun p => p.modify 0 (· ^^^ BitVec.ofNat 64 rc)

/-- `n` rounds of the permutation, with the shift register at `r`. -/
def permRounds : Nat → Nat → Planes → Planes
  | 0, _, s => s
  | n + 1, r, s =>
    let rc := rcTake 7 r
    permRounds n rc.2 (iotaStep rc.1 ((piStep (rhoWalk 24 1 0 (thetaStep s))).map chiStep))

/-- The permutation of 1,600 bits and 24 rounds (FIPS 202). -/
def permute (s : Planes) : Planes := permRounds 24 1 s

/-- The rate of SHAKE256 in bytes. -/
def shakeRate : Nat := 136

/-- A byte string as planes, little-endian lane by lane, zeros where it ends. -/
def planesOf (b : List Byte) : Planes :=
  (List.range 5).map fun y => (List.range 5).map fun x => BitVec.ofNat 64 (ofBytesLE ((b.drop (40 * y + 8 * x)).take 8))

/-- Absorb one block of the rate's size. -/
def absorb (s : Planes) (b : List Byte) : Planes := permute (List.zipWith mixPlanes s (planesOf b))

/-- The message with the SHAKE padding, cut into blocks; `fuel` bounds their number. -/
def shakeBlocks : Nat → List Byte → List (List Byte)
  | 0, _ => []
  | fuel + 1, m =>
    if shakeRate ≤ m.length then m.take shakeRate :: shakeBlocks fuel (m.drop shakeRate)
    else
      let p := m ++ [0x1F] ++ List.replicate (shakeRate - 1 - m.length) 0
      [p.take (shakeRate - 1) ++ [p.getD (shakeRate - 1) 0 ||| 0x80]]

/-- The first 136 bytes of a state. -/
def squeezeBlock (s : Planes) : List Byte := (s.flatMap fun p => p.flatMap fun l => bytesLE 8 l.toNat).take shakeRate

/-- Squeeze `k` blocks. -/
def squeeze : Nat → Planes → List Byte
  | 0, _ => []
  | k + 1, s => squeezeBlock s ++ squeeze k (permute s)

/-- SHAKE256 of a byte string, first `n` bytes (FIPS 202). -/
def shake256 (m : List Byte) (n : Nat) : List Byte :=
  let s := (shakeBlocks (m.length / shakeRate + 1) m).foldl absorb (planesOf [])
  (squeeze ((n + shakeRate - 1) / shakeRate) s).take n

/-- A domain tag: eight ASCII characters, given as the number of their bytes in order (R453). -/
def tagBytes (t : Nat) : List Byte := (bytesLE 8 t).reverse

/-- A digest: the first 32 bytes of SHAKE256 over a domain tag and an input. -/
def digest (tag : Nat) (m : List Byte) : List Byte := shake256 (tagBytes tag ++ m) 32

end Sys2Proof.Machine
end

