-- ==== Sys2Proof/Machine/Ed448.lean ====
section
/-! DEFINITION. The pure Ed448 signatures of RFC 8032 with empty context (R6, R164, R452). -/

namespace Sys2Proof.Machine

/-- The field prime. -/
def edP : Nat := 2 ^ 448 - 2 ^ 224 - 1

/-- The order of the base point. -/
def edL : Nat := 2 ^ 446 - 13818066809895115352007386748515426880336692474882178609894547503885

/-- The curve constant d = −39081. -/
def edD : Nat := edP - 39081

/-- A point in projective coordinates. -/
structure EdPoint where
  x : Nat
  y : Nat
  z : Nat
deriving DecidableEq, Repr

/-- The neutral point. -/
def edZero : EdPoint := ⟨0, 1, 1⟩

/-- The base point. -/
def edBase : EdPoint :=
  ⟨224580040295924300187604334099896036246789641632564134246125461686950415467406032909029192869357953282578032075146446173674602635247710,
   298819210078481492676017930443930673437544040154080242095928241372331506189835876003536878655418784733982303233503462500531545062832660, 1⟩

/-- Powers modulo the prime; `fuel` bounds the bits of the exponent. -/
def edPow : Nat → Nat → Nat → Nat
  | 0, _, _ => 1
  | fuel + 1, b, e =>
    if e = 0 then 1
    else
      let r := edPow fuel (b * b % edP) (e / 2)
      if e % 2 = 1 then r * b % edP else r

/-- The inverse modulo the prime. -/
def edInv (a : Nat) : Nat := edPow 448 a (edP - 2)

/-- Subtraction modulo the prime. -/
def edSub (a b : Nat) : Nat := (a % edP + edP - b % edP) % edP

/-- Addition of points. -/
def edAdd (p q : EdPoint) : EdPoint :=
  let a := p.z * q.z % edP
  let b := a * a % edP
  let c := p.x * q.x % edP
  let d := p.y * q.y % edP
  let e := edD * (c * d % edP) % edP
  let f := edSub b e
  let g := (b + e) % edP
  let s := edSub (edSub ((p.x + p.y) * (q.x + q.y) % edP) c) d
  ⟨a * (f * s % edP) % edP, a * (g * edSub d c % edP) % edP, f * g % edP⟩

/-- Multiples of a point; `fuel` bounds the bits of the scalar. -/
def edMul : Nat → Nat → EdPoint → EdPoint
  | 0, _, _ => edZero
  | fuel + 1, k, p =>
    if k = 0 then edZero
    else
      let r := edMul fuel (k / 2) (edAdd p p)
      if k % 2 = 1 then edAdd r p else r

/-- Two points are the same. -/
def edEq (p q : EdPoint) : Bool :=
  p.x * q.z % edP == q.x * p.z % edP && p.y * q.z % edP == q.y * p.z % edP

/-- The 57 bytes of a point. -/
def edEncode (p : EdPoint) : List Byte :=
  let zi := edInv p.z
  bytesLE 57 (p.y * zi % edP + (p.x * zi % edP % 2) * 2 ^ 455)

/-- The point of 57 bytes, if they are one. -/
def edDecode (b : List Byte) : Option EdPoint :=
  let v := ofBytesLE b
  let y := v % 2 ^ 455
  let sgn := v / 2 ^ 455 % 2
  if b.length ≠ 57 ∨ edP ≤ y then none
  else
    let u := edSub (y * y) 1
    let w := edSub (edD * (y * y % edP)) 1
    let x := u * u % edP * u % edP * w % edP *
      edPow 448 (u * u % edP * u % edP * u % edP * u % edP * w % edP * w % edP * w % edP) ((edP - 3) / 4) % edP
    if w * (x * x % edP) % edP ≠ u then none
    else if x = 0 ∧ sgn = 1 then none
    else some ⟨if x % 2 = sgn then x else edP - x, y, 1⟩

/-- dom4 of RFC 8032 for pure Ed448 with empty context. -/
def edDom : List Byte := [0x53, 0x69, 0x67, 0x45, 0x64, 0x34, 0x34, 0x38, 0, 0]

/-- The secret scalar and prefix of a 57-byte private key. -/
def edSecret (k : List Byte) : Nat × List Byte :=
  let h := shake256 k 114
  let s := ofBytesLE (h.take 57) % 2 ^ 447
  ((s - s % 4) + (if nbit s 447 then 0 else 2 ^ 447), h.drop 57)

/-- The public key of a private key. -/
def ed448Public (k : List Byte) : List Byte := edEncode (edMul 448 (edSecret k).1 edBase)

/-- The signature of a message under a private key. -/
def ed448Sign (k m : List Byte) : List Byte :=
  let (s, pre) := edSecret k
  let pub := ed448Public k
  let r := ofBytesLE (shake256 (edDom ++ pre ++ m) 114) % edL
  let rs := edEncode (edMul 448 r edBase)
  let c := ofBytesLE (shake256 (edDom ++ rs ++ pub ++ m) 114) % edL
  rs ++ bytesLE 57 ((r + c * s) % edL)

/-- A signature verifies under a public key. -/
def ed448Verify (pub m sig : List Byte) : Bool :=
  match edDecode pub, edDecode (sig.take 57) with
  | some a, some r =>
    let s := ofBytesLE (sig.drop 57)
    let c := ofBytesLE (shake256 (edDom ++ sig.take 57 ++ pub ++ m) 114) % edL
    sig.length == 114 && decide (s < edL) &&
      edEq (edMul 450 (4 * s) edBase) (edAdd (edMul 4 4 r) (edMul 450 (4 * c) a))
  | _, _ => false

end Sys2Proof.Machine
end

