-- ==== Sys2Proof/Config.lean ====
section
/-! DEFINITION. What the spec leaves open, as constants without a body: nothing in Lean can tell their values, so that a
statement about one holds for every value. `State` counts the draws of fresh free values. -/

namespace Sys2Proof.Config

/-- The byte that the random source gives at draw `k` (R166, R450, R463): any byte. -/
opaque randomByte : Nat → Byte

/-- A value that the spec does not state, at draw `k`. -/
opaque freeValue : Nat → Nat

/-- The module's factory trim of one CLI path, by the path (`true` for S), the input and the current in nA before the trim
(R281). The spec does not give its form. -/
opaque factoryTrim : Bool → Nat → Int → Int

/-- Word `k` of the port MAC address registers as the payload words of the MFG region give it (NPS_PADDR). The spec does
not give their place in the region. -/
opaque portMac : List Nat → Nat → BitVec 32

/-- A result whose value the spec does not state because it falls outside its number format, by the exact result. -/
opaque overflow32 : Int → BitVec 32

end Sys2Proof.Config
end

