-- ==== Sys2Proof/Machine/Codec.lean ====
section
/-! DEFINITION. The frame and payload formats of the Naliz Slice Link (R50 to R59, R505). Both dies use them, each with
its own parameters. -/

namespace Sys2Proof.Machine

/-- Byte `i` of a byte string, 0 past its end. -/
def byteAt (bs : List Byte) (i : Nat) : Nat := (bs.getD i 0).toNat

/-- The little-endian number of `k` bytes at offset `i` (R9). -/
def numAt (bs : List Byte) (i k : Nat) : Nat := ofBytesLE ((bs.drop i).take k)

/-- MAGIC of a slice frame. -/
def frameMagic : Nat := 0xA7

/-- The DCOD field of a frame header. -/
def frameDcod (bs : List Byte) : Nat := nfield (byteAt bs 3) 4 2

/-- The SYNC flag of a frame header. -/
def frameSync (bs : List Byte) : Bool := nbit (byteAt bs 3) 0

/-- The PAYLOAD_LEN field of a frame header. -/
def framePayloadLen (bs : List Byte) : Nat := numAt bs 14 2

/-- The header fields that a segment carries on. -/
def frameHdr (bs : List Byte) : SegHdr :=
  { seq := numAt bs 4 4, layer := numAt bs 8 4, seg := byteAt bs 12 % 32, ctag := numAt bs 16 8,
    sync := frameSync bs }

/-- The payload bytes of a frame whose check value takes `ck` bytes. -/
def framePayload (ck : Nat) (bs : List Byte) : List Byte := (bs.drop 32).take (bs.length - 32 - ck)

/-- The check value of a frame verifies over all bytes before it (R59, R505). -/
def frameCheckOk (p : CrcParams) (bs : List Byte) : Bool :=
  let k := bs.length - crcBytes p
  ofBytesLE (bs.drop k) == crcOf p (bs.take k)

/-- Literal 16-bit doses. -/
def lit16 : Nat → List Byte → Option (List Nat × List Byte)
  | 0, bs => some ([], bs)
  | n + 1, b0 :: b1 :: bs => (lit16 n bs).map fun r => ((b0.toNat + 256 * b1.toNat) :: r.1, r.2)
  | _ + 1, _ => none

/-- Literal 12-bit doses, two in three bytes; an odd count ends with a lone value in two bytes whose upper nibble is 0
(R57). `sh` is the shift of R58. -/
def lit12 (sh : Nat) : Nat → List Byte → Option (List Nat × List Byte)
  | 0, bs => some ([], bs)
  | 1, b0 :: b1 :: bs => if b1.toNat < 16 then some ([(b0.toNat + 256 * b1.toNat) * 2 ^ sh], bs) else none
  | n + 2, b0 :: b1 :: b2 :: bs =>
    (lit12 sh n bs).map fun r =>
      ((b0.toNat + 256 * (b1.toNat % 16)) * 2 ^ sh :: (b1.toNat / 16 + 16 * b2.toNat) * 2 ^ sh :: r.1, r.2)
  | _, _ => none

/-- The doses of a run list: `fuel` bounds the number of runs, `left` counts the doses still to come (R57). -/
def runList (p12 : Bool) (sh : Nat) : Nat → Nat → List Byte → Option (List Nat)
  | _, 0, [] => some []
  | 0, _, _ => none
  | fuel + 1, left, b0 :: b1 :: bs =>
    let cw := b0.toNat + 256 * b1.toNat
    let n := cw % 4096
    if n = 0 ∨ nfield cw 12 3 ≠ 0 ∨ left < n then none
    else if nbit cw 15 then
      match (if p12 then lit12 sh n bs else lit16 n bs) with
      | none => none
      | some (ds, rest) => (runList p12 sh fuel (left - n) rest).map fun r => ds ++ r
    else (runList p12 sh fuel (left - n) bs).map fun r => List.replicate n 0 ++ r
  | _, _, _ => none

/-- The doses of a payload under its coding; none when the payload does not decode (R57, R58). -/
def decodePayload (dcod sh : Nat) (bs : List Byte) : Option (List Nat) :=
  match dcod with
  | 0 => (lit16 2048 bs).map fun r => r.1
  | 1 => (lit12 sh 2048 bs).map fun r => r.1
  | 2 => runList false sh 2049 2048 bs
  | _ => runList true sh 2049 2048 bs

/-- PAYLOAD_LEN agrees with the coding (the DCOD table). -/
def payloadLenOk (dcod len : Nat) : Bool :=
  match dcod with
  | 0 => len == 4096
  | 1 => len == 3072
  | _ => decide (2 ≤ len ∧ len ≤ 4096)

/-- The run-list conditions of R57 hold for a frame; other codings have none. -/
def runListOk (dcod ck : Nat) (bs : List Byte) : Bool :=
  if dcod < 2 then true
  else (decodePayload dcod 0 (framePayload ck bs)).isSome && (framePayload ck bs).length == framePayloadLen bs

/-- The bytes of an egress frame (R74 to R76). -/
def egressBytes (p : CrcParams) (ver n : Nat) (h : SegHdr) (blanked part : Bool) (doses : List Nat) : List Byte :=
  let flags := (if h.seg = 0 ∧ h.sync then 1 else 0) + 4 * bit blanked + 8 * bit part
  let body := bytesLE 1 frameMagic ++ bytesLE 1 ver ++ bytesLE 1 n ++ bytesLE 1 flags ++ bytesLE 4 h.seq ++
    bytesLE 4 h.layer ++ bytesLE 1 h.seg ++ bytesLE 1 0 ++ bytesLE 2 4096 ++ bytesLE 8 h.ctag ++ bytesLE 8 0 ++
    doses.flatMap (bytesLE 2)
  body ++ bytesLE (crcBytes p) (crcOf p body)

/-- The sum of the doses of tile column `c` of a segment (R131, R147). -/
def tileSum (doses : List Nat) (c : Nat) : Nat :=
  ((List.range 64).map fun j => doses.getD (256 * (j / 8) + 8 * c + j % 8) 0).foldl (· + ·) 0

/-- The sums of the 32 tile columns of a segment. -/
def tileSums (doses : List Nat) : List Nat := (List.range 32).map (tileSum doses)

end Sys2Proof.Machine
end

