-- ==== Sys2Proof/Machine/Lane.lean ====
section
/-! DEFINITION. Slice lanes (spec/02_slice_lanes.md): training, states, ingress frames, slots and egress. -/

namespace Sys2Proof.Machine

/-! ### Codes -/

/-- Control block types (R50). -/
def blkTs : Nat := 0x33
@[inherit_doc blkTs] def blkCap : Nat := 0x4B
@[inherit_doc blkTs] def blkCapAck : Nat := 0x55
@[inherit_doc blkTs] def blkCredit : Nat := 0x99
@[inherit_doc blkTs] def blkSlotMark : Nat := 0x78
@[inherit_doc blkTs] def blkLinkDown : Nat := 0xAA
@[inherit_doc blkTs] def blkSof : Nat := 0x66
@[inherit_doc blkTs] def blkEof : Nat := 0x87

/-- LANE_ERR flag numbers. -/
def leChk : Nat := 0
@[inherit_doc leChk] def leLen : Nat := 1
@[inherit_doc leChk] def leMagic : Nat := 2
@[inherit_doc leChk] def leVer : Nat := 3
@[inherit_doc leChk] def leEngine : Nat := 4
@[inherit_doc leChk] def leSeq : Nat := 5
@[inherit_doc leChk] def leSeg : Nat := 6
@[inherit_doc leChk] def leDs : Nat := 7
@[inherit_doc leChk] def leCredit : Nat := 8
@[inherit_doc leChk] def leSlotOvr : Nat := 9
@[inherit_doc leChk] def leLinkLoss : Nat := 10

/-! ### Parameters and views -/

/-- The ingress check parameters of lane `n` (R59). -/
def Hw.laneCrc (h : Hw) (n : Nat) : CrcParams :=
  { width := h.get F.LANE_CRC_CFG_WIDTH n, poly := h.get F.LANE_CRC_POLY_VALUE n,
    init := h.get F.LANE_CRC_INIT_VALUE n, xorOut := h.get F.LANE_CRC_XOR_VALUE n,
    refIn := h.on F.LANE_CRC_CFG_REFIN n, refOut := h.on F.LANE_CRC_CFG_REFOUT n }

/-- The egress check parameters of lane `n` (R76). -/
def Hw.laneEgCrc (h : Hw) (n : Nat) : CrcParams :=
  { width := h.get F.LANE_EG_CRC_CFG_WIDTH n, poly := h.get F.LANE_EG_CRC_POLY_VALUE n,
    init := h.get F.LANE_EG_CRC_INIT_VALUE n, xorOut := h.get F.LANE_EG_CRC_XOR_VALUE n,
    refIn := h.on F.LANE_EG_CRC_CFG_REFIN n, refOut := h.on F.LANE_EG_CRC_CFG_REFOUT n }

/-- The block-lock field of a direction. -/
def lockFld : Dir → Fld
  | .ingress => F.LANE_STAT_IN_LOCK
  | .egress => F.LANE_STAT_EG_LOCK

/-- The training record of a direction. -/
def Lane.training (l : Lane) : Dir → Training
  | .ingress => l.trainIn
  | .egress => l.trainEg

/-- Change the training record of a direction. -/
def Lane.setTraining (l : Lane) (d : Dir) (t : Training) : Lane :=
  match d with
  | .ingress => { l with trainIn := t }
  | .egress => { l with trainEg := t }

/-- The 7 content bytes of a control block that begin with `c`; the rest are 0 (R50). -/
def blockContent (c : List Nat) : List Nat := (c ++ List.replicate 7 0).take 7

/-- Send a control block on a direction of lane `n`: the only thing that an ingress lane sends, its reverse direction carrying link
control alone (R48). -/
def Hw.sendBlock (h : Hw) (n : Nat) (d : Dir) (kind : Nat) (content : List Nat) : Hw :=
  h.emitLane (.laneBlock n d kind (blockContent content))

/-- The training pattern of a TS block. -/
def tsPattern : List Nat := [0x4E, 0x53, 0x4C, 0x54]

/-- The bytes of a 32-bit number, least significant first (R9). -/
def word32 (v : Nat) : List Nat := [v % 256, v / 256 % 256, v / 65536 % 256, v / 16777216 % 256]

/-- The zero bytes that fill the last data block of a frame (R50). -/
def framePad (bs : List Byte) : Nat := (8 - bs.length % 8) % 8

/-- Send a frame on egress lane `n`: SOF, the data blocks, and EOF with PAD (R50). Slice frames go out on the forward direction of
an egress lane alone, which `Output.egressFrame` names by the lane (R48). -/
def Hw.sendFrame (h : Hw) (n : Nat) (bs : List Byte) : Hw :=
  ((h.sendBlock n .egress blkSof []).emitLane (.egressFrame n (bs ++ List.replicate (framePad bs) 0))).sendBlock n .egress blkEof
    [framePad bs]

/-- Grant `k` credits to the exposure controller in a CREDIT block (R69). -/
def Hw.grantCredits (h : Hw) (n k : Nat) : Hw :=
  (h.updLane n fun l => { l with credits := l.credits + k }).sendBlock n .ingress blkCredit [k]

/-- Return one credit for each of `k` frames that left the lane buffer, one CREDIT block each (R69). -/
def Hw.returnCredits (h : Hw) (n k : Nat) : Hw := h.forUpTo k fun _ h => h.grantCredits n 1

/-- Set flags of LANE_ERR and raise event LANEn when one of them is enabled. -/
def Hw.laneFlags (h : Hw) (n : Nat) (flags : List Nat) : Hw :=
  let h' := h.forEach flags fun k h => h.setBit ⟨.LANE_ERR, 0, 11⟩ n k true
  h'.when (flags.any fun k => h.bitOf F.LANE_IEN_ERR n k) fun h => h.raise n

/-! ### Discards of a lane that leaves service (R80, R146) -/

/-- The DISCARDED report of a segment (R147). -/
def discardReport (n : Nat) (s : Seg) : RelReport :=
  { lane := n, entry := s.entry, seg := s.hdr.seg, seq := s.hdr.seq, released := false, sums := List.replicate 32 0 }

/-- Send a release report on XLK_C. -/
def Hw.sendReport (h : Hw) (r : RelReport) : Hw := h.sendB (.report r)

/-- Reports of segments that are discarded now, generated ones apart (R146). -/
def Hw.reportDiscards (h : Hw) (n : Nat) (l : List Seg) : Hw :=
  h.forEach l fun s h => h.when (!s.generated) fun h => h.sendReport (discardReport n s)

/-- The verdict of a segment or frame is still to come: its frame is on its way on XLK_D, or its verdict on XLK_C. -/
def Hw.verdictComing (h : Hw) (n e seg seq : Nat) : Bool :=
  (h.xlkD.any fun f => f.lane == n && f.entry == e && (frameHdr f.bytes).seg == seg && (frameHdr f.bytes).seq == seq) ||
    h.toA.any fun m => match m with
      | .verdict v => v.lane == n && v.entry == e && v.seg == seg && v.seq == seq
      | _ => false

/-- The verdict of a frame is lost, with the frame or before XLK_C takes it: it is late no more if it was the one that the lane
counts as late, which it is when the late verdicts of its key exceed those under way on XLK_C (R45, R141). -/
def Hw.lateLost (h : Hw) (n e seg seq : Nat) : Hw :=
  let onC := h.toA.countP fun m => match m with
    | .verdict v => v.lane == n && v.entry == e && v.seg == seg && v.seq == seq
    | _ => false
  h.when (decide (onC < (h.lane n).late.count (e, seg, seq))) (·.updLane n fun l => { l with late := l.late.erase (e, seg, seq) })

/-- The verdicts still to come of segments that no longer wait for one are late (R141). -/
def Hw.noteLate (h : Hw) (n : Nat) (gone : List Seg) : Hw :=
  let come (s : Seg) : Bool := !s.generated && decide (s.verdict = .waiting) && h.verdictComing n s.entry s.hdr.seg s.hdr.seq
  h.updLane n fun l => { l with late := l.late ++ (gone.filter come).map fun s => (s.entry, s.hdr.seg, s.hdr.seq) }

/-- The segments in flight are discarded: the checked ones at once with their reports, those in the pool are marked to be
discarded when their check ends (R64, R80). -/
def Hw.discardInFlight (h : Hw) (n : Nat) : Hw :=
  let gone := (h.lane n).segs.filter fun s => decide (s.phase = .written)
  ((h.reportDiscards n gone).noteLate n gone).updLane n fun l =>
    { l with segs := (l.segs.filter fun s => !decide (s.phase = .written)).map fun s => { s with discard := true } }

/-- Released segments that egress can no longer send are discarded with their reports (R146). DESIGN CHOICE (log entry 82):
the ledger record that the release made stays. -/
def Hw.dropEgress (h : Hw) (n : Nat) : Hw :=
  (h.forEach (h.lane n).egress fun e h =>
    match e.report with
    | none => h
    | some entry => h.sendReport { lane := n, entry := entry, seg := e.hdr.seg, seq := e.hdr.seq, released := false,
                                   sums := List.replicate 32 0 }).updLane n fun l => { l with egress := [] }

/-! ### State changes (R78, R79) -/

/-- The lane leaves service: channel A's drive latch of SEO_An is set, and what is in flight is discarded (R78, R80,
R216). -/
def Hw.leaveService (h : Hw) (n : Nat) : Hw := (h.updLane n fun l => { l with seoLatch := true }).discardInFlight n

/-- What a direction does on entering a state: TRAINING starts an attempt with TS blocks, SHUTTING_DOWN sends LINKDOWN
unless it comes from FAULT, and an ingress direction that leaves RESYNC or ACTIVE loses its credits and empties its
buffer (R54, R79, R82, R511). Block lock stands or falls on its own, and with it its window (R49). -/
def Hw.onLaneEntry (h : Hw) (n : Nat) (d : Dir) (old new : Nat) : Hw :=
  let h := h.when (decide (d = .ingress) && laneLive old && !laneLive new) fun h =>
    h.updLane n fun l => { l with credits := 0, buf := [], lastSeg := none, cur := none, submitted := 0 }
  let h := h.when (decide (d = .egress) && (new == laneTraining || new == laneFault)) fun h =>
    (h.dropEgress n).set F.LANE_EG_STAT_CREDITS n 0
  let h := h.when (new == laneTraining) fun h =>
    (h.updLane n fun l => l.setTraining d { invalid := (l.training d).invalid }).sendBlock n d blkTs tsPattern
  h.when (new == laneShutting && old != laneFault) fun h => h.sendBlock n d blkLinkDown []

/-- Put a direction of lane `n` into a state; a change raises event LANEn when STATE_CHG is enabled, and always on entry
to FAULT. A lane that leaves service, shuts down or stops receiving discards what is in flight (R64, R78, R80). -/
def Hw.setLane (h : Hw) (n : Nat) (d : Dir) (new : Nat) : Hw :=
  let old := h.laneState n d
  let was := h.inService n
  if old = new then h
  else
    let h := (h.set (stateFld d) n new).onLaneEntry n d old new
    let h := h.when (new == laneFault || h.on F.LANE_IEN_STATE_CHG n) fun h => h.raise n
    if was && !h.inService n then h.leaveService n
    else h.when (new == laneShutting || (decide (d = .ingress) && laneLive old && !laneLive new)) (·.discardInFlight n)

/-- Both directions enter FAULT with a cause; the event is raised whatever LANE_IEN holds (R79). -/
def Hw.laneFaultEntry (h : Hw) (n cause : Nat) : Hw :=
  if h.laneState n .ingress = laneFault ∧ h.laneState n .egress = laneFault then h
  else
    (((h.set F.LANE_STAT_FCAUSE n cause).setB F.LANE_STAT_PEND n false).setLane n .ingress laneFault).setLane n
      .egress laneFault

/-! ### Writes of LANE_CTL (R79, R81, R82) -/

/-- EN written 1 on one direction. -/
def Hw.laneEnDir (n : Nat) (d : Dir) (h : Hw) : Hw :=
  if h.laneState n d = laneOff then h.setLane n d laneTraining
  else if h.laneState n d = laneShutting then h.setB F.LANE_STAT_PEND n true
  else h

/-- EN written 1: FCAUSE is dropped unless a direction is in FAULT, OFF directions start training, and a direction that
shuts down keeps one pending enable. -/
def Hw.laneEnable (h : Hw) (n : Nat) : Hw :=
  let h := h.when (h.laneState n .ingress != laneFault && h.laneState n .egress != laneFault) fun h =>
    h.set F.LANE_STAT_FCAUSE n 0
  (h.laneEnDir n .ingress).laneEnDir n .egress

/-- EN written 0 on one direction. -/
def Hw.laneDisDir (n : Nat) (d : Dir) (h : Hw) : Hw :=
  if h.laneState n d = laneFault then h.setLane n d laneOff
  else if h.laneState n d = laneOff ∨ h.laneState n d = laneShutting then h
  else h.setLane n d laneShutting

/-- EN written 0: the pending enable is cleared and each direction leaves service. -/
def Hw.laneDisable (h : Hw) (n : Nat) : Hw :=
  ((h.setB F.LANE_STAT_PEND n false).laneDisDir n .ingress).laneDisDir n .egress

/-- LRST on one direction (R82). -/
def Hw.laneResetDir (n : Nat) (d : Dir) (h : Hw) : Hw :=
  if h.laneState n d = laneOff ∨ h.laneState n d = laneShutting then h else h.setLane n d laneShutting

/-- Flags, counters and FCAUSE of a lane at their reset values. -/
def Hw.laneClear (h : Hw) (n : Nat) : Hw :=
  let h := h.forEach [Reg.LANE_ERR, .LANE_ERRCNT, .LANE_HOLDCNT, .LANE_OVRCNT, .LANE_FRMCNT, .LANE_EG_SEGCNT,
    .LANE_EG_BLKCNT, .LANE_EG_ERR, .REL_RELCNT] fun r h => h.putWord r n r.resetWord
  (h.set F.LANE_STAT_FCAUSE n 0).updLane n fun l => { l with errTimes := [] }

/-- LANE reset (R82). -/
def Hw.laneReset (h : Hw) (n : Nat) : Hw :=
  (((h.setB F.LANE_STAT_PEND n false).laneResetDir n .ingress).laneResetDir n .egress).laneClear n

/-- A write of LANE_CTL: EN first, then LRST; CFGLK is set by a 1. -/
def laneCtlWrite (n : Nat) (v : Nat) (h : Hw) : Hw :=
  let h := h.setB F.LANE_CTL_EN n (nbit v 0)
  let h := if nbit v 0 then h.laneEnable n else h.laneDisable n
  let h := h.when (nbit v 1) fun h => h.laneReset n
  h.when (nbit v 2) fun h => h.setB F.LANE_CTL_CFGLK n true

/-! ### Block lock (R49, R51) -/

/-- Block lock acquired: the count of invalid headers starts afresh. -/
def Hw.lockAcquired (h : Hw) (n : Nat) (d : Dir) : Hw :=
  (h.setB (lockFld d) n true).updLane n fun l => l.setTraining d { l.training d with invalid := [] }

/-- Block lock lost: a direction in RESYNC or ACTIVE sets LINK_LOSS and returns to TRAINING, and a running attempt needs its TS
blocks again. DESIGN CHOICE (log entry 83): where ingress alone takes the lane out of service, egress sends no LINKDOWN, as
the row of R79 says and though R64 speaks of one. -/
def Hw.lockLost (h : Hw) (n : Nat) (d : Dir) : Hw :=
  let was := h.on (lockFld d) n
  let h := (h.setB (lockFld d) n false).updLane n fun l =>
    l.setTraining d { l.training d with invalid := [], ts := false, agreed := none }
  if was && laneLive (h.laneState n d) then
    let h := match d with
      | .ingress => h.laneFlags n [leLinkLoss]
      | .egress => h.setB F.LANE_EG_ERR_LINK_LOSS n true
    h.setLane n d laneTraining
  else h

/-- A control block of unknown type is discarded and counted as invalid; the sixteenth within 64 blocks loses block lock.
`gap` counts the blocks received since the last invalid one, this one included. -/
def Hw.unknownBlock (h : Hw) (n : Nat) (d : Dir) (gap : Nat) : Hw :=
  if h.on (lockFld d) n then
    let h := h.updLane n fun l =>
      l.setTraining d { l.training d with invalid := 0 :: (((l.training d).invalid.map (· + gap)).filter fun k => decide (k < 64)) }
    if 16 ≤ ((h.lane n).training d).invalid.length then h.lockLost n d else h
  else h

/-! ### Training (R52 to R56) -/

/-- The highest of versions 1.0, 1.1 and 2.0 no higher than both (R52). -/
def negotiateVer (peer max : Nat) : Option Nat :=
  let m := min peer max
  if 0x20 ≤ m then some 0x20 else if 0x11 ≤ m then some 0x11 else if 0x10 ≤ m then some 0x10 else none

/-- The features agreed on a direction (R52). -/
def Hw.agreeFeat (h : Hw) (n : Nat) (d : Dir) (ver feat : Nat) : Nat :=
  match d with
  | .egress => 0
  | .ingress =>
    bit (decide (0x11 ≤ ver) && nbit feat 0 && h.on F.LANE_CFG_P12_EN n) +
      2 * bit (ver == 0x20 && nbit feat 1 && h.on F.LANE_CFG_DS_EN n)

/-- The lane's own CRC_ID in a direction. -/
def Hw.ownCrcId (h : Hw) (n : Nat) : Dir → Nat
  | .ingress => h.get F.LANE_CRC_ID_ID n
  | .egress => h.get F.LANE_EG_CRC_ID_ID n

/-- The configured maximum version of a direction. -/
def Hw.ownMaxVer (h : Hw) (n : Nat) : Dir → Nat
  | .ingress => h.get F.LANE_CFG_MAXVER n
  | .egress => h.get F.LANE_EG_CFG_MAXVER n

/-- The features that the AK7216 offers in CAP. -/
def Hw.ownFeat (h : Hw) (n : Nat) : Dir → Nat
  | .ingress => bit (h.on F.LANE_CFG_P12_EN n) + 2 * bit (h.on F.LANE_CFG_DS_EN n)
  | .egress => 0

/-- The ROLE of a direction (capability word). -/
def ownRole : Dir → Nat
  | .ingress => 2
  | .egress => 3

/-- The content bytes of a capability block. -/
def capContent (c : CapWord) (role : Nat) : List Nat :=
  [c.ver, c.feat, role] ++ word32 c.crcId

/-- One failed training attempt: a new attempt starts at once, and the third in a row puts the lane in FAULT (R55). -/
def Hw.attemptFailed (h : Hw) (n : Nat) (d : Dir) (cause : Nat) : Hw :=
  let fails := ((h.lane n).training d).fails + 1
  if 3 ≤ fails then h.laneFaultEntry n cause
  else
    (h.updLane n fun l => l.setTraining d { fails := fails, invalid := (l.training d).invalid }).sendBlock n d blkTs tsPattern

/-- FCAUSE codes of training failures. -/
def fcTrain : Dir → Nat
  | .ingress => 1
  | .egress => 2
@[inherit_doc fcTrain] def fcCapCrc : Dir → Nat
  | .ingress => 3
  | .egress => 4
/-- FCAUSE code ERRLIM. -/
def fcErrlim : Nat := 5
/-- FCAUSE code EG_STALL. -/
def fcStall : Nat := 6

/-- The running attempt of a direction has block lock, so that blocks reach it (R54, t1). -/
def Hw.trainable (h : Hw) (n : Nat) (d : Dir) : Bool := h.laneState n d == laneTraining && h.on (lockFld d) n

/-- 16 consecutive TS blocks received under block lock: CAP is sent (R54, t2). -/
def Hw.tsReceived (h : Hw) (n : Nat) (d : Dir) : Hw :=
  if h.trainable n d then
    (h.updLane n fun l => l.setTraining d { l.training d with ts := true }).sendBlock n d blkCap
      (capContent { ver := h.ownMaxVer n d, feat := h.ownFeat n d, crcId := h.ownCrcId n d } (ownRole d))
  else h

/-- Record the capability word last received from the peer. -/
def Hw.recordPeerCap (h : Hw) (n : Nat) (d : Dir) (c : CapWord) (role : Nat) : Hw :=
  match d with
  | .ingress => ((h.set F.LANE_PEER_CAP_VER n c.ver).set F.LANE_PEER_CAP_FEAT n c.feat).set F.LANE_PEER_CAP_ROLE n role
  | .egress =>
    ((h.set F.LANE_EG_PEER_CAP_VER n c.ver).set F.LANE_EG_PEER_CAP_FEAT n c.feat).set F.LANE_EG_PEER_CAP_ROLE n role

/-- A peer CAP: recorded; in an attempt that has sent its own CAP, another CRC_ID fails the attempt (R53), without a common
version nothing is decided, and otherwise CAPACK is sent with what R52 gives (R54, t3). -/
def Hw.capReceived (h : Hw) (n : Nat) (d : Dir) (c : CapWord) (role : Nat) : Hw :=
  let h := h.recordPeerCap n d c role
  if h.trainable n d && ((h.lane n).training d).ts then
    if c.crcId ≠ h.ownCrcId n d then h.attemptFailed n d (fcCapCrc d)
    else
      match negotiateVer c.ver (h.ownMaxVer n d) with
      | none => h
      | some ver =>
        let a : CapWord := { ver := ver, feat := h.agreeFeat n d ver c.feat, crcId := c.crcId }
        (h.updLane n fun l => l.setTraining d { l.training d with agreed := some a }).sendBlock n d blkCapAck
          (capContent a (ownRole d))
  else h

/-- A peer LINKDOWN in TRAINING, RESYNC or ACTIVE starts the drain of that direction (R79). -/
def Hw.linkDownReceived (h : Hw) (n : Nat) (d : Dir) : Hw :=
  let st := h.laneState n d
  if st = laneTraining ∨ laneLive st then h.setLane n d laneShutting else h

/-- The drain ends: what egress still holds is dropped once the lane is out of service, and each draining direction goes
to TRAINING with EN at 1 or a pending enable, else to OFF (R79 to R81). -/
def Hw.drainComplete (h : Hw) (n : Nat) : Hw :=
  let go := h.on F.LANE_STAT_PEND n || h.on F.LANE_CTL_EN n
  let dest := if go then laneTraining else laneOff
  let one (d : Dir) (h : Hw) : Hw := if h.laneState n d = laneShutting then h.setLane n d dest else h
  let h := h.when (h.laneState n .egress == laneShutting) fun h => h.dropEgress n
  (one .egress (one .ingress h)).setB F.LANE_STAT_PEND n false

/-! ### Ingress frames (R60 to R65, R71) -/

/-- DCOD is allowed by the negotiated version and features. -/
def Hw.dcodAllowed (h : Hw) (n dcod : Nat) : Bool :=
  match dcod with
  | 0 => true
  | 1 => h.on F.LANE_STAT_P12_ON n
  | 2 => h.on F.LANE_STAT_DS_ON n
  | _ => h.on F.LANE_STAT_P12_ON n && h.on F.LANE_STAT_DS_ON n

/-- The failed conditions of R60, order apart, as LANE_ERR flag numbers (R84, R505). -/
def Hw.frameErrors (h : Hw) (n : Nat) (bs : List Byte) : List Nat :=
  let ck := crcBytes (h.laneCrc n)
  if bs.length < 32 + ck then [leLen]
  else
    let dcod := frameDcod bs
    (if frameCheckOk (h.laneCrc n) bs then [] else [leChk]) ++
    (if payloadLenOk dcod (framePayloadLen bs) && bs.length == 32 + framePayloadLen bs + ck then [] else [leLen]) ++
    (if byteAt bs 0 = frameMagic then [] else [leMagic]) ++
    (if byteAt bs 1 = h.get F.LANE_STAT_NEGVER n ∧ h.dcodAllowed n dcod = true then [] else [leVer]) ++
    (if byteAt bs 2 = n then [] else [leEngine]) ++
    (if byteAt bs 12 < 32 then [] else [leSeg]) ++
    (if runListOk dcod ck bs then [] else [leDs]) ++
    (if (h.lane n).credits = 0 then [leCredit] else [])

/-- The order errors of a frame in ACTIVE (R61). -/
def Hw.orderErrors (h : Hw) (n : Nat) (hd : SegHdr) : List Nat :=
  let seq := h.get F.LANE_SEQ_VALUE n
  let layer := h.get F.LANE_LAYER_VALUE n
  match (h.lane n).lastSeg with
  | none => if hd.seg = 0 then [] else [leSeg]
  | some s =>
    if s = 31 then
      (if hd.seg = 0 then [] else [leSeg]) ++ (if hd.seq = (seq + 1) % 2 ^ 32 ∧ layer ≤ hd.layer then [] else [leSeq])
    else
      (if hd.seg = s + 1 then [] else [leSeg]) ++ (if hd.seq = seq ∧ hd.layer = layer then [] else [leSeq])

/-- Blank segments for the segments of the admitted slice that will not be submitted (R64, R74). -/
def blankSegs (c : SegHdr) (slot t from_ : Nat) : List Seg :=
  ((List.range 32).filter fun s => from_ ≤ s).map fun s =>
    { generated := true, hdr := { c with seg := s, sync := c.sync && s == 0 }, slot := slot, tRx := t,
      phase := .written, doses := List.replicate 2048 0, blank := true, verdict := .expired }

/-- The admitted slice is abandoned: while the lane is in service, the segments that were not submitted are released blanked
(R64). -/
def Hw.abandonAdmitted (h : Hw) (n : Nat) : Hw :=
  let slot := h.get F.LANE_SLOTCNT_COUNT n
  h.updLane n fun l =>
    match l.cur with
    | none => l
    | some c =>
      if l.submitted < 32 ∧ h.inService n = true then
        { l with segs := l.segs ++ blankSegs c slot h.time l.submitted, cur := none, submitted := 0 }
      else { l with cur := none, submitted := 0 }

/-- The frames of a buffer from its first SYNC frame with segment 0 onwards. -/
def fromSync (buf : List BufFrame) : List BufFrame := buf.dropWhile fun f => !(f.hdr.sync && f.hdr.seg == 0)

/-- Entry to RESYNC on a frame error or slot overrun in ACTIVE: the current slice is abandoned, buffered frames up to a
SYNC frame with segment 0 are discarded with their credits returned, and with such a frame the lane is ACTIVE again
(R63). -/
def Hw.enterResync (h : Hw) (n : Nat) : Hw :=
  if h.laneState n .ingress = laneActive then
    let kept := fromSync (h.lane n).buf
    let dropped := (h.lane n).buf.length - kept.length
    let h := (h.abandonAdmitted n).setLane n .ingress laneResync
    let h := h.updLane n fun l => { l with buf := kept, lastSeg := kept.getLast?.map fun f => f.hdr.seg }
    let h := h.returnCredits n dropped
    h.when (!kept.isEmpty) fun h => h.setLane n .ingress laneActive
  else h

/-- Training reached t4: the agreed parameters are taken, ingress enters RESYNC and grants its credits, egress enters
ACTIVE, and TRAIN_DONE may raise event LANEn (R54). A lane that returns to service by its egress while ingress is ACTIVE
resumes on a SYNC frame with segment 0, so that ingress enters RESYNC (R64, log entry 127). -/
def Hw.trainingDone (h : Hw) (n : Nat) (d : Dir) (a : CapWord) : Hw :=
  let h := match d with
    | .ingress =>
      let h := ((h.set F.LANE_STAT_NEGVER n a.ver).setB F.LANE_STAT_P12_ON n (nbit a.feat 0)).setB F.LANE_STAT_DS_ON n
        (nbit a.feat 1)
      (h.setLane n .ingress laneResync).grantCredits n (h.get F.LANE_CFG_CREDITS n)
    | .egress => ((h.set F.LANE_EG_STAT_NEGVER n a.ver).enterResync n).setLane n .egress laneActive
  h.when (h.on F.LANE_IEN_TRAIN_DONE n) fun h => h.raise n

/-- A peer CAPACK: the one that the AK7216 sent completes training, another one is a failed attempt (R54, R56). DESIGN CHOICE
(log entry 84): at the third such attempt in a row FCAUSE is IN_TRAIN or EG_TRAIN; the spec names none. -/
def Hw.capAckReceived (h : Hw) (n : Nat) (d : Dir) (c : CapWord) : Hw :=
  match ((h.lane n).training d).agreed with
  | none => h
  | some a =>
    if !h.trainable n d then h
    else if c = a then h.trainingDone n d a
    else h.attemptFailed n d (fcTrain d)

/-- Count a frame error with its flags (R60, R65). -/
def Hw.countFrameError (h : Hw) (n : Nat) (flags : List Nat) : Hw :=
  ((h.laneFlags n flags).bump F.LANE_ERRCNT_COUNT n 1).updLane n fun l => { l with errTimes := h.time :: l.errTimes }

/-- A frame with its failed conditions is discarded: its credit is returned if it used one, and an ACTIVE lane enters
RESYNC (R60, R63, R69). DESIGN CHOICE (log entry 85): a frame too short to be judged (R505) counts as one that used a credit,
so that one is returned even where none was held. -/
def Hw.frameError (h : Hw) (n : Nat) (flags : List Nat) : Hw :=
  let h := h.countFrameError n flags
  let h := h.when (!flags.contains leCredit) fun h => h.grantCredits n 1
  h.enterResync n

/-- Frame errors that lie within the last 1 s (R65). -/
def Hw.recentErrors (h : Hw) (n : Nat) : Nat :=
  ((h.lane n).errTimes.filter fun t => decide (h.time < t + 100000000)).length

/-- An accepted frame enters the lane buffer. A segment 0 that cannot be admitted in the slot that it belongs to, the one in
which its SOF came, counts as a held slice; `early` says that the SOF came before the running slot began (R60, R71, R72). -/
def Hw.acceptFrame (h : Hw) (n : Nat) (bs : List Byte) (early : Bool) : Hw :=
  let hd := frameHdr bs
  let l := h.lane n
  let held := hd.seg == 0 && ((if early then l.before else l.admitted) || l.buf.any fun f => f.hdr.seg == 0)
  let h := (((h.set F.LANE_SEQ_VALUE n hd.seq).set F.LANE_LAYER_VALUE n hd.layer).wrap F.LANE_FRMCNT_COUNT n).updLane n
    fun l => { l with buf := l.buf ++ [{ bytes := bs, hdr := hd, tRx := h.time }], lastSeg := some hd.seg }
  let h := h.when held fun h => h.bump F.LANE_HOLDCNT_COUNT n 1
  h.setLane n .ingress laneActive

/-- A SYNC frame with segment 0 that arrives while a slice is incomplete counts as a SEG error, and the incomplete slice
is abandoned (R62). -/
def Hw.syncRestart (h : Hw) (n : Nat) : Hw :=
  match (h.lane n).lastSeg with
  | none => h
  | some s =>
    if s = 31 then h
    else
      let drop (l : Lane) : Nat := (l.buf.reverse.takeWhile fun f => f.hdr.seg != 0).length + 1
      let gone := min (drop (h.lane n)) (h.lane n).buf.length
      let h := h.countFrameError n [leSeg]
      let inBuf := (h.lane n).buf.any fun f => f.hdr.seg == 0
      let h := h.when (!inBuf) fun h => h.abandonAdmitted n
      (h.updLane n fun l => { l with buf := l.buf.take (l.buf.length - gone) }).returnCredits n gone

/-- Every condition of R60 that a frame fails; the order of R61 is judged in ACTIVE alone, and for no frame with SYNC and
segment 0 (R62) nor one too short to hold a header (R84, R505). -/
def Hw.allErrors (h : Hw) (n : Nat) (bs : List Byte) : List Nat :=
  let hd := frameHdr bs
  let errs := h.frameErrors n bs
  if h.laneState n .ingress ≠ laneActive ∨ (hd.sync && hd.seg == 0) = true ∨ bs.length < 32 + crcBytes (h.laneCrc n) then errs
  else errs ++ h.orderErrors n hd

/-- A frame delimited by SOF and EOF arrives on ingress lane `n` (R60 to R63, R72, R83, R511). -/
def Hw.ingressFrame (h : Hw) (n : Nat) (bs : List Byte) (early : Bool) : Hw :=
  let st := h.laneState n .ingress
  if ¬ laneLive st then h
  else
    let errs := h.allErrors n bs
    let hd := frameHdr bs
    let h := h.updLane n fun l => { l with credits := l.credits - 1 }
    if errs ≠ [] then h.frameError n errs
    else if hd.sync && hd.seg == 0 then ((if st = laneActive then h.syncRestart n else h)).acceptFrame n bs early
    else if st = laneResync then h.grantCredits n 1
    else h.acceptFrame n bs early

/-! ### Submission (R66, R69, R71, R98, R139) -/

/-- Pool entries of a lane that are taken (R98). -/
def Lane.poolTaken (l : Lane) (e : Nat) : Bool := l.segs.any fun s => !s.generated && s.entry == e && decide (s.phase ≠ .written)

/-- Reorder entries of a lane that are taken (R139). -/
def Lane.robTaken (l : Lane) (e : Nat) : Bool :=
  (l.segs.any fun s => !s.generated && s.entry == e) || l.egress.any fun x => x.report == some e

/-- The lowest entry whose pool and reorder places are both free. -/
def Lane.freeEntry (l : Lane) : Option Nat := (List.range 32).find? fun e => !l.poolTaken e && !l.robTaken e

/-- Offer a frame to XLK_D: a link that is not trained drops it (R45). -/
def Hw.offerXlkD (h : Hw) (f : XlkFrame) : Hw :=
  if h.on F.XLK_STAT_XLKD_UP 0 then { h with xlkD := h.xlkD ++ [f] } else h.setB F.XLK_ERR_XLKD_DROP 0 true

/-- The first frame of the lane buffer is submitted when its slice may be admitted and entries are free: it goes out on
XLK_D unchanged, its decoded doses enter the pool, and its credit is returned. In a lane out of service it is discarded
when its check ends (R64, R80). -/
def Hw.segmentSubmit (h : Hw) (n : Nat) : Hw :=
  let l := h.lane n
  match l.buf, l.freeEntry with
  | f :: rest, some e =>
    if ¬ laneLive (h.laneState n .ingress) ∨ (f.hdr.seg = 0 ∧ l.admitted = true) then h
    else
      let doses := (decodePayload (frameDcod f.bytes) (h.get F.LANE_CFG_P12_SHIFT n)
        (framePayload (crcBytes (h.laneCrc n)) f.bytes)).getD []
      let s : Seg := { entry := e, hdr := f.hdr, slot := h.get F.LANE_SLOTCNT_COUNT n, tRx := f.tRx, doses := doses,
                       discard := !h.inService n }
      let h := h.updLane n fun l =>
        { l with
          buf := rest, segs := l.segs ++ [s], slotDone := nsetBit l.slotDone f.hdr.seg true
          admitted := l.admitted || f.hdr.seg == 0
          cur := if f.hdr.seg = 0 then some f.hdr else l.cur
          submitted := f.hdr.seg + 1 }
      (h.offerXlkD { lane := n, entry := e, bytes := f.bytes }).grantCredits n 1
  | _, _ => h

/-! ### Slots (R72, R73, R108 to R111) -/

/-- CHK event enables: the event is raised when its CHK_IEN bit is 1. -/
def Hw.raiseChk (h : Hw) (e : Nat) : Hw := h.when (h.bitOf F.CHK_IEN_EN 0 (e - 32)) fun h => h.raise e

/-- The slice of the ending slot overruns when its segment 31 was not submitted (R73). -/
def Hw.slotOverrun (h : Hw) (n : Nat) : Hw :=
  if (h.lane n).cur.isSome ∧ (h.lane n).submitted < 32 then
    (((h.laneFlags n [leSlotOvr]).bump F.LANE_OVRCNT_COUNT n 1)).enterResync n
  else h

/-- Decay segments of the slot before the ending one that are not written back are overruns (R111). -/
def Hw.decayOverruns (h : Hw) (n : Nat) : Hw :=
  let late := (h.lane n).decays.filter fun d => !d.late && decide (d.phase ≠ .written)
  let h := h.forEach late fun _ h =>
    (((h.setB F.CHK_ERR_DECAY_OVR 0 true).bump F.CHK_OVRCNT_COUNT 0 1)).raiseChk 37
  h.updLane n fun l => { l with decays := l.decays.map fun d => { d with late := true } }

/-- One decay segment for each segment number that was not submitted in the ending slot (R109). -/
def Hw.generateDecay (h : Hw) (n : Nat) : Hw :=
  let slot := h.get F.LANE_SLOTCNT_COUNT n
  h.updLane n fun l =>
    { l with
      decays := l.decays ++ ((List.range 32).filter fun s => !nbit l.slotDone s).map fun s => { seg := s, slot := slot } }

/-- The slot timer of engine `n` expires: the ending slot is completed and the next one begins with SLOTMARK. -/
def Hw.slotStart (h : Hw) (n : Nat) : Hw :=
  if h.on F.CHK_STAT_ACTIVE 0 then
    let h := ((h.slotOverrun n).decayOverruns n).generateDecay n
    let h := (h.wrap F.LANE_SLOTCNT_COUNT n).updLane n fun l =>
      { l with before := l.admitted, admitted := false, slotDone := 0, cur := none, submitted := 0 }
    (h.pulse (0xB0 + n)).when (laneLive (h.laneState n .ingress)) fun h =>
      h.sendBlock n .ingress blkSlotMark (word32 (h.get F.LANE_SLOTCNT_COUNT n))
  else h

/-! ### Egress (R74 to R77, R145 to R147) -/

/-- A CREDIT block of the driver board; a count that R50 does not allow grants nothing. DESIGN CHOICE (log entry 86): credits
beyond the 15 that the CREDITS field can show are dropped. -/
def Hw.egressCredit (h : Hw) (n k : Nat) : Hw :=
  if (h.laneState n .egress = laneActive ∨ h.laneState n .egress = laneShutting) ∧ 1 ≤ k ∧ k ≤ 15 then
    h.set F.LANE_EG_STAT_CREDITS n (min 15 (h.get F.LANE_EG_STAT_CREDITS n + k))
  else h

/-- The first released segment is sent as an egress frame while a credit is held; its report follows and its reorder
entry is freed. -/
def Hw.egressSend (h : Hw) (n : Nat) : Hw :=
  match (h.lane n).egress with
  | [] => h
  | e :: rest =>
    if h.get F.LANE_EG_STAT_CREDITS n = 0 ∨
        (h.laneState n .egress ≠ laneActive ∧ h.laneState n .egress ≠ laneShutting) then h
    else
      let h := h.sendFrame n (egressBytes (h.laneEgCrc n) (h.get F.LANE_EG_STAT_NEGVER n) n e.hdr e.blanked e.part e.doses)
      let lat := min 0xFFFF (h.time - e.tRx)
      let h := ((h.set F.LANE_EG_STAT_CREDITS n (h.get F.LANE_EG_STAT_CREDITS n - 1)).wrap F.LANE_EG_SEGCNT_COUNT n).when
        e.blanked fun h => h.bump F.LANE_EG_BLKCNT_COUNT n 1
      let h := (h.set F.REL_LAT_LAST n lat).set F.REL_LAT_MAX n (max lat (h.get F.REL_LAT_MAX n))
      let h := h.updLane n fun l => { l with egress := rest }
      match e.report with
      | none => h
      | some entry => h.sendReport { lane := n, entry := entry, seg := e.hdr.seg, seq := e.hdr.seq, released := true,
                                     sums := tileSums e.doses }

/-- The oldest released segment has waited for a credit longer than STALL µs (R77). -/
def Hw.stalled (h : Hw) (n : Nat) : Bool :=
  match (h.lane n).egress with
  | [] => false
  | e :: _ => h.get F.LANE_EG_STAT_CREDITS n == 0 && decide (e.since + 100 * h.get F.LANE_EG_CFG_STALL n < h.time)

/-- EGRESS_CREDIT_STALL: in whatever state, FAULT with EG_STALL and event RELn (R77, R79). -/
def Hw.egressStall (h : Hw) (n : Nat) : Hw :=
  if h.stalled n then ((h.setB F.LANE_EG_ERR_STALL n true).laneFaultEntry n fcStall).raise (16 + n) else h

/-- TRAINING_ATTEMPT_TIMEOUT: a training attempt has not reached t4 within 5 ms (R55). -/
def Hw.trainingTimeout (h : Hw) (n : Nat) (d : Dir) : Hw :=
  if h.laneState n d = laneTraining then h.attemptFailed n d (fcTrain d) else h

/-- LANE_ERRLIM_FAULT: more than ERRLIM frame errors within 1 s (R65). -/
def Hw.errlimFault (h : Hw) (n : Nat) : Hw :=
  if h.get F.LANE_CFG_ERRLIM n < h.recentErrors n ∧ h.laneState n .ingress ≠ laneFault then h.laneFaultEntry n fcErrlim else h

end Sys2Proof.Machine
end

