-- ==== Sys2Proof/Machine/Pool.lean ====
section
/-! DEFINITION. The dose check pool (spec/03_dose_check_pool.md): zones, the emitter check, the scheduler, check engines,
decay, cold start and zone peaks. -/

namespace Sys2Proof.Machine

/-! ### Indices and dose SRAM (R25) -/

/-- The tile of emitter index `e`. -/
def tileOf (e : Nat) : Nat := 1024 * (e / 65536) + 32 * (e % 65536 / 256 / 8) + e % 256 / 8

/-- The emitter index of emitter `i` of segment `s` of engine `n` (R86). -/
def emitterOf (n s i : Nat) : Nat := 65536 * n + 256 * (8 * s + i / 256) + i % 256

/-- Zone of tile `t`. -/
def Hw.zoneOf (h : Hw) (t : Nat) : Nat := Store.get (fun _ => 0) h.pool.zmap t

/-- Ceiling of emitter `e`: a free value once a load has lost it (R124). -/
def Hw.ceiling (h : Hw) (e : Nat) : Nat :=
  match Store.get (fun _ => 0) h.pool.lostCeil (e / 65536) with
  | 0 => Store.get (fun _ => 0) h.pool.ceilings e
  | k + 1 => Config.freeValue (k + e % 65536) % 65536

/-- The ceiling word of emitter `e` is uncorrectable (R107). -/
def Hw.ceilBad (h : Hw) (e : Nat) : Bool := Store.get (fun _ => 0) h.pool.badCeil e == 1

/-- What an unlisted integrator reads as: the cold value of the zone of its tile (R112). -/
def Pool.coldOf (p : Pool) (e : Nat) : Nat := Store.get (fun _ => 0) p.cold (Store.get (fun _ => 0) p.zmap (tileOf e))

/-- Integrator of emitter `e`. -/
def Hw.integrator (h : Hw) (e : Nat) : Nat := Store.get h.pool.coldOf h.pool.integrators e

/-- The zones with tiles in the engines of a mask, as a 64-bit mask. -/
def Hw.zonesOf (h : Hw) (engines : Nat) : Nat :=
  nmask 64 fun z => (List.range 16).any fun n => nbit engines n && engineHasZone h.pool.zmap n z

/-- Engines of an envelope group (CHK_EGRP). -/
def Hw.groupEngines (h : Hw) (g : Nat) : Nat :=
  nmask 16 fun n => nfield (h.get F.CHK_EGRP_GROUP (n / 8)) (4 * (n % 8)) 4 == g

/-! ### Zones (R86, R92 to R94, R117) -/

/-- open_eff of zone `z` for engine `n`. -/
def Hw.openEff (h : Hw) (n z : Nat) : Bool :=
  h.zopen z && !h.on F.ZONE_STAT_TRIP z && !h.on F.ZONE_STAT_COLD z && h.bitOf F.CHK_ENV_VLD_VLD 0 n

/-- open_eff of every zone for engine `n`, as a mask. -/
def Hw.openMask (h : Hw) (n : Nat) : Nat := nmask 64 (h.openEff n)

/-- ZONE[z].STAT.TOUCH_OK (R117). -/
def Hw.touchOk (h : Hw) (z : Nat) : Bool :=
  h.on F.ZONE_STAT_PKVALID z && decide (h.get F.ZONE_PEAK_VALUE z ≤ h.get F.ZONE_TOUCH_VALUE z)

/-- Change the ledger's entries. -/
def Hw.updEntries (h : Hw) (f : List LedgerEntry → List LedgerEntry) : Hw :=
  { h with ledger := { h.ledger with entries := f h.ledger.entries } }

/-- The layers of the open ledger entries note a trip latch that sets (R160). -/
def Hw.noteTrip (h : Hw) (z : Nat) : Hw := h.updEntries fun es => es.map fun e => { e with trips := nsetBit e.trips z true }

/-- The layers of the open ledger entries note an engine fault of either side (R160). -/
def Hw.noteFault (h : Hw) (n : Nat) : Hw := h.updEntries fun es => es.map fun e => { e with faults := nsetBit e.faults n true }

/-- Set the trip latch of a zone; a latch that goes from 0 to 1 raises event 33, whatever CHK_IEN holds (R94). -/
def Hw.setTrip (h : Hw) (z : Nat) : Hw :=
  if h.on F.ZONE_STAT_TRIP z then h else ((h.setB F.ZONE_STAT_TRIP z true).noteTrip z).raise 33

/-- The exceedance bins of a zone, newest first (R93). -/
def Hw.binsOf (h : Hw) (z : Nat) : List Nat := Store.get (fun _ => []) h.pool.bins z

/-- The trip latch of a zone sets while the sum of its 16 bins exceeds EXLIM (R93). -/
def Hw.judgeTrip (h : Hw) (z : Nat) : Hw :=
  h.when (decide (h.get F.ZONE_CFG_EXLIM z < (h.binsOf z).foldl (· + ·) 0)) (·.setTrip z)

/-- A clear of the trip latch is ignored while the sum of the 16 bins sets it again (R12, R93, R97). -/
def Hw.tripHolds (h : Hw) (z : Nat) : Hw :=
  h.when (decide (h.get F.ZONE_CFG_EXLIM z < (h.binsOf z).foldl (· + ·) 0)) (·.setB F.ZONE_STAT_TRIP z true)

/-- Add exceedances to the current bin of a zone and judge its trip (R93). -/
def Hw.addExceed (h : Hw) (z k : Nat) : Hw :=
  if k = 0 then h
  else
    let b := match h.binsOf z with
      | [] => [k]
      | x :: xs => (x + k) :: xs
    ({ h with pool := { h.pool with bins := Store.put (fun _ => []) h.pool.bins z b } }).judgeTrip z

/-! ### The emitter check (R86 to R88) -/

/-- POLICY codes (R87). -/
def policyBlank : Nat := 1
@[inherit_doc policyBlank] def policyTrip : Nat := 2

/-- What one emitter's check gives: the released dose, the integrator written back, a ceiling violation and an
integrator exceedance. -/
structure EmitterResult where
  dose : Nat
  sum : Nat
  viol : Bool
  exceed : Bool
deriving DecidableEq, Repr

/-- Steps 1 to 4 of R86 for one emitter: dose `d`, ceiling `c`, integrator `a`, decay shift `k` and limit `l` of an open
or closed zone. A shift outside 1 to 15 applies no decay (R90). -/
def checkEmitter (isOpen : Bool) (d c a k l : Nat) : EmitterResult :=
  let d1 := if isOpen then d else 0
  let viol := decide (c < d1)
  let d2 := min d1 c
  let base := if 1 ≤ k ∧ k ≤ 15 then a - a / 2 ^ k else a
  let sum := min (base + d2) 0xFFFFFFFF
  if 0 < d2 ∧ l < sum then
    let d3 := if base < l then l - base else 0
    { dose := d3, sum := base + d3, viol := viol, exceed := true }
  else { dose := d2, sum := sum, viol := viol, exceed := false }

/-- What the check of a segment has gathered so far. -/
structure CheckAcc where
  integrators : Store Nat
  out : List Nat
  viol : Store Nat
  exceed : Store Nat
  peaks : Store Nat
  blank : Bool
  trip : Nat
  tilePeaks : Store Nat
  tileClamps : Store Nat
deriving DecidableEq, Repr

/-- The check of emitter `i` of a segment. -/
def Hw.checkStep (h : Hw) (j : CheckJob) (e : EccHits) (doses : List Nat) (acc : CheckAcc) (i : Nat) : CheckAcc :=
  let em := emitterOf j.lane j.seg i
  let z := h.zoneOf (tileOf em)
  let c := if e.ceil.contains i || h.ceilBad em then 0 else h.ceiling em
  let a := if e.intg.contains i then 0xFFFFFFFF else Store.get h.pool.coldOf acc.integrators em
  let r := checkEmitter (nbit j.openEff z) (doses.getD i 0) c a (h.get F.ZONE_CFG_K z) (h.get F.ZONE_LIM_VALUE z)
  let pol := h.get F.ZONE_CFG_POLICY z
  let col := i % 256 / 8
  let zero : Nat → Nat := fun _ => 0
  { integrators := Store.put h.pool.coldOf acc.integrators em r.sum
    out := r.dose :: acc.out
    viol := if r.viol then Store.upd zero acc.viol z (· + 1) else acc.viol
    exceed := if r.exceed then Store.upd zero acc.exceed z (· + 1) else acc.exceed
    peaks := Store.upd zero acc.peaks z (max r.sum)
    blank := acc.blank || (r.viol && (pol == policyBlank || pol == policyTrip))
    trip := if r.viol ∧ pol = policyTrip then nsetBit acc.trip z true else acc.trip
    tilePeaks := Store.upd zero acc.tilePeaks col (max r.sum)
    tileClamps := if r.viol || r.exceed then Store.upd zero acc.tileClamps col (· + bit r.viol + bit r.exceed)
      else acc.tileClamps }

/-- The check of a whole segment. -/
def Hw.checkSegment (h : Hw) (j : CheckJob) (e : EccHits) (doses : List Nat) : CheckAcc :=
  (List.range 2048).foldl (h.checkStep j e doses)
    { integrators := h.pool.integrators, out := [], viol := [], exceed := [], peaks := h.pool.peaks, blank := false,
      trip := 0, tilePeaks := [], tileClamps := [] }

/-- An uncorrectable ceiling or integrator word of an emitter is recorded (R107). -/
def Hw.eccError (h : Hw) (em : Nat) (intg : Bool) : Hw :=
  (((h.setB (if intg then F.CHK_ERR_ECC_INTG else F.CHK_ERR_ECC_CEIL) 0 true).setB F.CHK_ECCADDR_INTG 0 intg).set
    F.CHK_ECCADDR_EMITTER 0 em).raiseChk 39

/-- Record the ECC errors met in a check, in the order of the emitters; a ceiling word stays uncorrectable (R107). -/
def Hw.recordEcc (h : Hw) (j : CheckJob) (e : EccHits) : Hw :=
  (h.bump F.CHK_ECCCNT_COUNT 0 e.corrected).forUpTo 2048 fun i h =>
    let em := emitterOf j.lane j.seg i
    let h := h.when (e.ceil.contains i || h.ceilBad em) fun h =>
      ({ h with pool := { h.pool with badCeil := Store.put (fun _ => 0) h.pool.badCeil em 1 } }).eccError em false
    h.when (e.intg.contains i) (·.eccError em true)

/-- Count violations and exceedances of a slice segment, latch trips and raise event 32 (R92 to R94). -/
def Hw.recordCounts (h : Hw) (a : CheckAcc) : Hw :=
  let h := h.forEach a.viol fun p h => h.bump F.ZONE_CNT_VIOL p.1 p.2
  let h := h.forEach a.exceed fun p h => (h.bump F.ZONE_CNT_EXCEED p.1 p.2).addExceed p.1 p.2
  let h := h.forUpTo 64 fun z h => h.when (nbit a.trip z) fun h => h.setTrip z
  h.when (!a.viol.isEmpty) fun h => h.raiseChk 32

/-- The check engine's segment is written back: it returns to dispatch, or a shutting-down one goes ONLINE with a
pending enable and OFFLINE otherwise (R104). -/
def CheckEngine.release (c : CheckEngine) : CheckEngine :=
  if c.state = .shuttingDown then
    if c.pendEn then { state := .online } else { state := .offline }
  else { c with job := none }

/-- The fate of a slice segment whose check is written back: discarded with a report if its lane left service, else it
waits at the release gate with its checked doses (R80, R86, R139). -/
def Hw.writeBack (h : Hw) (j : CheckJob) (a : CheckAcc) : Hw :=
  let mine (s : Seg) : Bool := !s.generated && s.entry == j.entry && decide (s.phase = .checking)
  let gone := (h.lane j.lane).segs.filter fun s => mine s && s.discard
  let out := if a.blank then List.replicate 2048 0 else a.out.reverse
  let fin (s : Seg) : Seg :=
    { s with phase := .written, doses := out, blank := a.blank, ledgerBlank := a.blank,
             tripTiles := nmask 32 fun c => nbit a.trip (h.zoneOf (1024 * j.lane + 32 * j.seg + c)),
             peaks := (List.range 32).map (Store.get (fun _ => 0) a.tilePeaks),
             clamps := (List.range 32).map (Store.get (fun _ => 0) a.tileClamps) }
  ((h.reportDiscards j.lane gone).noteLate j.lane gone).updLane j.lane fun l =>
    { l with segs := (l.segs.filter fun s => !(mine s && s.discard)).map fun s => if mine s then fin s else s }

/-- A check engine completes its segment (R86, R89, R104, R107, R110). -/
def Hw.checkComplete (h : Hw) (m : Nat) (e : EccHits) : Hw :=
  match (h.ce m).job with
  | none => h
  | some j =>
    let doses := if j.decay then []
      else (((h.lane j.lane).segs.find? fun s => !s.generated && s.entry == j.entry).map fun s => s.doses).getD []
    let a := h.checkSegment j e doses
    let h := { h with pool := { h.pool with integrators := a.integrators, peaks := a.peaks } }
    let h := h.recordEcc j e
    let h :=
      if j.decay then
        h.updLane j.lane fun l =>
          { l with decays := l.decays.filter fun d => !(d.seg == j.seg && d.slot == j.slot && decide (d.phase = .checking)) }
      else (h.recordCounts a).writeBack j a
    h.updCe m CheckEngine.release

/-! ### Dispatch (R100 to R103) -/

/-- A segment with engine `n` and segment number `s` is being checked. -/
def Hw.beingChecked (h : Hw) (n s : Nat) : Bool :=
  (List.range 16).any fun m => match (h.ce m).job with
    | some j => j.lane == n && j.seg == s
    | none => false

/-- Slot `a` of an engine comes before slot `b`: LANE_SLOTCNT wraps at 2^32, and the slots that wait lie less than 2^31 apart
(R102; DEDUCED, log entry 126). -/
def slotBefore (a b : Nat) : Bool := a != b && decide ((b + 2 ^ 32 - a % 2 ^ 32) % 2 ^ 32 < 2 ^ 31)

/-- A decay segment of segment number `s` for a slot before `slot` still waits. -/
def Lane.decayBefore (l : Lane) (s slot : Nat) : Bool :=
  l.decays.any fun d => d.seg == s && slotBefore d.slot slot && decide (d.phase = .queued)

/-- A slice segment of segment number `s` for a slot before `slot` still waits. -/
def Lane.sliceBefore (l : Lane) (s slot : Nat) : Bool :=
  l.segs.any fun x => !x.generated && x.hdr.seg == s && slotBefore x.slot slot && decide (x.phase = .queued)

/-- The scoreboard holds a segment (n, s) of a slot (R102). -/
def Hw.held (h : Hw) (n s slot : Nat) : Bool :=
  h.beingChecked n s || (h.lane n).decayBefore s slot || (h.lane n).sliceBefore s slot

/-- What a lane offers to the scheduler. -/
inductive Candidate where
  | slice (s : Seg)
  | decay (d : DecaySeg)
deriving DecidableEq, Repr

/-- The candidate of lane `n` in the priority of R100. -/
def Hw.candidate (h : Hw) (n : Nat) : Option Candidate :=
  let l := h.lane n
  let ready (d : DecaySeg) : Bool := decide (d.phase = .queued) && !h.held n d.seg d.slot
  let waits (d : DecaySeg) : Bool :=
    l.segs.any fun x => !x.generated && x.hdr.seg == d.seg && slotBefore d.slot x.slot && decide (x.phase = .queued)
  match l.decays.find? fun d => ready d && waits d with
  | some d => some (.decay d)
  | none =>
    match l.segs.find? fun x => !x.generated && decide (x.phase = .queued) && !h.held n x.hdr.seg x.slot with
    | some s => some (.slice s)
    | none => (l.decays.find? ready).map .decay

/-- The free check engine with the lowest number (R101). -/
def Hw.freeCe (h : Hw) : Option Nat :=
  (List.range 16).find? fun m => decide ((h.ce m).state = .online) && (h.ce m).job.isNone

/-- Record open_eff of every zone as used at a dispatch (ZONE_STAT.OPEN_EFF). -/
def Hw.recordOpen (h : Hw) (mask : Nat) : Hw := h.forUpTo 64 fun z h => h.setB F.ZONE_STAT_OPEN_EFF z (nbit mask z)

/-- Hand a candidate of lane `n` to check engine `m`. -/
def Hw.grant (h : Hw) (m n : Nat) (c : Candidate) : Hw :=
  let mask := h.openMask n
  let h := (h.recordOpen mask).set F.CHK_RR_PTR 0 (n + 1)
  match c with
  | .slice s =>
    (h.updCe m fun x => { x with job := some { lane := n, decay := false, entry := s.entry, seg := s.hdr.seg,
                                               slot := s.slot, openEff := mask } }).updLane n fun l =>
      { l with segs := l.segs.map fun x => if !x.generated && x.entry == s.entry && decide (x.phase = .queued) then { x with phase := .checking } else x }
  | .decay d =>
    (h.updCe m fun x => { x with job := some { lane := n, decay := true, entry := 0, seg := d.seg, slot := d.slot,
                                               openEff := mask } }).updLane n fun l =>
      { l with decays := l.decays.map fun x => if x = d then { x with phase := .checking } else x }

/-- One grant of the scheduler: the lowest free check engine takes the candidate of the first offering lane at or after
the round-robin pointer. -/
def Hw.dispatch (h : Hw) : Hw :=
  match h.freeCe with
  | none => h
  | some m =>
    match ((List.range 16).map fun i => (h.get F.CHK_RR_PTR 0 + i) % 16).find? fun n => (h.candidate n).isSome with
    | none => h
    | some n =>
      match h.candidate n with
      | some c => h.grant m n c
      | none => h

/-- A segment (n, s) that the scoreboard holds waited beyond CHK_HAZ_LIM (R103). -/
def Hw.hazardStall (h : Hw) (n s : Nat) : Hw :=
  let l := h.lane n
  let waiting := (l.segs.any fun x => !x.generated && x.hdr.seg == s && decide (x.phase = .queued) && h.held n s x.slot) ||
    l.decays.any fun d => d.seg == s && decide (d.phase = .queued) && h.held n s d.slot
  if waiting then (h.setB F.CHK_ERR_HAZ_STALL 0 true).raiseChk 34 else h

/-- A 62.5 ms exceedance bin ends in every zone, and its trip is judged (R93). -/
def Hw.binEnd (h : Hw) : Hw :=
  h.forUpTo 64 fun z h =>
    ({ h with pool := { h.pool with bins := Store.put (fun _ => []) h.pool.bins z
                                      (if (h.binsOf z).all (· == 0) then [] else 0 :: (h.binsOf z).take 15) } }).judgeTrip z

/-! ### Check engines out of service (R104 to R106) -/

/-- Check engines that are not ONLINE. -/
def Hw.notOnline (h : Hw) (m : Nat) : Bool := !decide ((h.ce m).state = .online)

/-- The CEOFF bit of one check engine is written: an ONLINE one passes through SHUTTING_DOWN, with a segment or without
(R104). -/
def CheckEngine.writeOff (c : CheckEngine) (off : Bool) : CheckEngine :=
  match c.state, off with
  | .online, true => { c with state := .shuttingDown, pendEn := false }
  | .shuttingDown, b => { c with pendEn := !b }
  | .offline, false => if c.testDone then { state := .online } else c
  | _, _ => c

/-- A write of CHK_CEOFF: refused whole when a fifth check engine would leave ONLINE (R106). An OFFLINE engine that the same
write returns to ONLINE still counts: the spec does not say (DESIGN CHOICE, log entry 128). -/
def ceoffWrite (v : Nat) (h : Hw) : Hw :=
  let out := (List.range 16).filter fun m => h.notOnline m || nbit v m
  if 4 < out.length then h
  else (h.set F.CHK_CEOFF_OFF 0 v).forUpTo 16 fun m h => h.updCe m fun c => c.writeOff (nbit v m)

/-- A DOSE clock ends: the segment of a shutting-down check engine that holds none counts as written back (R104). -/
def CheckEngine.clock (c : CheckEngine) : CheckEngine := if c.job.isNone then c.release else c

/-- What the check engines and the dose SRAM do, which a stopped DOSE domain does not (R480). -/
def Hw.dosed (h : Hw) (f : Hw → Hw) : Hw := h.when (h.on F.CLK_GATE_DOSE 0) f

/-- A DOSE clock ends in every check engine. -/
def Hw.ceClock (h : Hw) : Hw := h.forUpTo 16 fun m h => h.updCe m CheckEngine.clock

/-- The self-test of an offline check engine ends; the DOSE clocks of its 20 µs have passed (R104, R105). -/
def Hw.selftestDone (h : Hw) (m : Nat) (pass : Bool) : Hw :=
  let h := h.ceClock
  if (h.ce m).state = .offline ∧ (h.ce m).testDone = false then
    if pass then
      h.updCe m fun c => if h.bitOf F.CHK_CEOFF_OFF 0 m then { c with testDone := true } else { state := .online }
    else ((h.updCe m fun c => { c with state := .failed }).setB F.CHK_ERR_CE_FAIL 0 true).raiseChk 39
  else h

/-! ### Zone map, activation, cold start and peaks (R112 to R117, R126) -/

/-- The offset of the staging area in DRAM (the DRAM map). -/
def stagingBase : Nat := 0x1B0000000

/-- Bytes of DRAM at an offset. -/
def Hw.dramBytes (h : Hw) (off n : Nat) : List Byte := Store.getList (fun _ => 0) h.dram off n

/-- Write bytes to DRAM. -/
def Hw.putDram (h : Hw) (off : Nat) (bs : List Byte) : Hw :=
  { h with dram := Store.putList (fun _ => (0 : Byte)) h.dram off bs }

/-- Load the zone map from staging, or refuse it (R126). The spec does not say what a map that runs past the end of staging,
which is the end of DRAM, holds there: bytes of 0 (DESIGN CHOICE, log entry 90). -/
def Hw.zmapLoad (h : Hw) : Hw :=
  if h.on F.CHK_STAT_ACTIVE 0 then h
  else
    let bs := h.dramBytes (stagingBase + 64 * h.get F.CHK_ZMAP_SRC_ADDR 0) 16384
    if bs.all fun (b : Byte) => decide (b.toNat < 64) then
      { h with pool := { h.pool with zmap := Store.putList (fun _ => 0) [] 0 (bs.map fun (b : Byte) => b.toNat) } }.setB
        F.CHK_STAT_ZMAP_OK 0 true
    else h.setB F.CHK_ERR_ZMAP_BAD 0 true

/-- ACTIVATE written 1: cold initialisation starts with COLD in every zone, or the write is refused (R112, R113). -/
def Hw.activate (h : Hw) : Hw :=
  if h.on F.CHK_CTL_ACTIVATE 0 then h
  else if h.on F.CHK_STAT_ZMAP_OK 0 ∧ h.get F.CHK_ENV_VLD_VLD 0 = 0xFFFF then
    ((h.setB F.CHK_CTL_ACTIVATE 0 true).setB F.CHK_STAT_COLDINIT 0 true).forUpTo 64 fun z h => h.setB F.ZONE_STAT_COLD z true
  else h.setB F.CHK_ERR_ACT_REFUSED 0 true

/-- A write of CHK_CTL: CFGLK, then the zone-map load, then ACTIVATE, which finds the ZMAP_OK that the load has set; the spec
gives no order inside the write (DESIGN CHOICE, log entry 120). -/
def chkCtlWrite (v : Nat) (h : Hw) : Hw :=
  let h := h.when (nbit v 2) fun h => h.setB F.CHK_CTL_CFGLK 0 true
  let h := h.when (nbit v 1) fun h => h.zmapLoad
  h.when (nbit v 0) fun h => h.activate

/-- The cold value of a zone (R112). -/
def Hw.coldValue (h : Hw) (z : Nat) : Nat :=
  if h.on F.ZONE_CFG_COLDSEL z then h.get F.ZONE_COLD_VALUE z else h.get F.ZONE_LIM_VALUE z

/-- Draw `k` random bytes of the SEC random source. -/
def randomBytes (Rnd : Nat → Byte) (d : Nat) : Nat → List Byte
  | 0 => []
  | k + 1 => Rnd d :: randomBytes Rnd (d + 1) k

/-- Peak epochs end: ZONE_PEAK is copied and the cold hold is released where the peak allows it (R114, R116). The spec does not say
from when epochs run: PEAK_EPOCH_END acts at any time, an epoch without a write-back having the peak 0 (DESIGN CHOICE, log
entry 118). -/
def Hw.peakEpochEnd (h : Hw) : Hw :=
  let h := h.forUpTo 64 fun z h =>
    let pk := Store.get (fun _ => 0) h.pool.peaks z
    let h := (h.set F.ZONE_PEAK_VALUE z pk).setB F.ZONE_STAT_PKVALID z true
    h.when (decide (pk ≤ h.get F.ZONE_COLDREL_VALUE z)) fun h => h.setB F.ZONE_STAT_COLD z false
  { h with pool := { h.pool with peaks := [] } }

end Sys2Proof.Machine
end

