-- ==== Sys2Proof/Machine/Ledger.lean ====
section
/-! DEFINITION. The exposure ledger (R159 to R173). -/

namespace Sys2Proof.Machine

/-- The slots of the ledger ring (R168). -/
def ringSlots : Nat := 49152

/-- The DRAM offset of the records of entry `lseq` (R168). -/
def recordsAt (lseq : Nat) : Nat := 131072 * (lseq % ringSlots)

/-- The DRAM offset of the header of entry `lseq` (R168). -/
def headerAt (lseq : Nat) : Nat := 0x1A0000000 + 512 * (lseq % ringSlots)

/-- LDG_WRSEQ. -/
def Hw.wrSeq (h : Hw) : Nat := h.get64 F.LDG_WRSEQ_LO_VALUE F.LDG_WRSEQ_HI_VALUE
/-- LDG_CLSEQ. -/
def Hw.clSeq (h : Hw) : Nat := h.get64 F.LDG_CLSEQ_LO_VALUE F.LDG_CLSEQ_HI_VALUE
/-- LDG_RDSEQ. -/
def Hw.rdSeq (h : Hw) : Nat := h.get64 F.LDG_RDSEQ_LO_VALUE F.LDG_RDSEQ_HI_VALUE

/-- LDG_EVT flag numbers. -/
def levClosed : Nat := 0
@[inherit_doc levClosed] def levCkpt : Nat := 1
@[inherit_doc levClosed] def levWarn : Nat := 2
@[inherit_doc levClosed] def levFull : Nat := 3
@[inherit_doc levClosed] def levGap : Nat := 4
@[inherit_doc levClosed] def levDram : Nat := 5

/-- Set a flag of LDG_EVT; an enabled one raises event 16. -/
def Hw.ledgerEvt (h : Hw) (k : Nat) : Hw :=
  (h.setBit ⟨.LDG_EVT, 0, 6⟩ 0 k true).when (h.bitOf F.LDG_IEN_EN 0 k) fun h => h.raise 16

/-- The log coding of a tile peak (R161). -/
def peakCode (v : Nat) : Nat :=
  if v < 2048 then v
  else
    let p := Nat.log2 v
    let q := 2 ^ (p - 11)
    let m := (v + q - 1) / q - 2048
    if m = 2048 then (p - 10 + 1) * 2048 else (p - 10) * 2048 + m

/-- The value that a peak code decodes to (R161). -/
def peakDecode (c : Nat) : Nat := if c / 2048 = 0 then c % 2048 else (2048 + c % 2048) * 2 ^ (c / 2048 - 1)

/-- Ledger record flags (R160). -/
def lfNodata : Nat := 0
@[inherit_doc lfNodata] def lfZmask : Nat := 1
@[inherit_doc lfNodata] def lfBlank : Nat := 2
@[inherit_doc lfNodata] def lfBfail : Nat := 3
@[inherit_doc lfNodata] def lfBtimeout : Nat := 4
@[inherit_doc lfNodata] def lfTrip : Nat := 5
@[inherit_doc lfNodata] def lfEngFault : Nat := 6
@[inherit_doc lfNodata] def lfCsat : Nat := 7

/-- What a released segment says about one of its tiles. -/
structure TileNote where
  peak : Nat := 0
  total : Nat := 0
  clamps : Nat := 0
  flags : List Nat := []
deriving DecidableEq, Repr

/-- A tile record after one more segment (R160). -/
def updateRecord (rec : List Byte) (t : TileNote) : List Byte :=
  let peak := max (numAt rec 0 2) (peakCode t.peak)
  let total := min 0xFFFFFFFF (numAt rec 2 4 + t.total)
  let clamps := numAt rec 6 1 + t.clamps
  let flags := t.flags.foldl (fun f k => nsetBit f k true) (nsetBit (numAt rec 7 1) lfNodata false)
  let flags := if 255 < clamps then nsetBit flags lfCsat true else flags
  bytesLE 2 peak ++ bytesLE 4 total ++ bytesLE 1 (min 255 clamps) ++ bytesLE 1 flags

/-- The record of a tile that nothing has been recorded for (R160, R162). -/
def freshRecord : List Byte := [0, 0, 0, 0, 0, 0, 0, 1]

/-- The records of a fresh entry: 0 with NODATA set (R162). -/
def Hw.initRecords (h : Hw) (lseq : Nat) : Hw :=
  h.forUpTo 16384 fun t h => h.putDram (recordsAt lseq + 8 * t) freshRecord

/-! ### DRAM errors (R47, R164) -/

/-- A flag of DDR_EVT and its enable. -/
def Hw.ddrEvt (h : Hw) (flag ien : Fld) : Hw :=
  let rises := !h.on flag 0
  (h.setB flag 0 true).when (rises && h.on ien 0) (·.raise 126)

/-- An uncorrectable error at DRAM offset `off`, wherever it was read: one in a record of an open entry marks the entry
DRAM_ERR, and one in any record or header that the ring holds sets LDG_EVT.DRAM_ERR (R164). -/
def Hw.ledgerUe (h : Hw) (off : Nat) : Hw :=
  let hits (lseq : Nat) : Bool := decide (recordsAt lseq ≤ off ∧ off < recordsAt lseq + 131072)
  let slot := if off < 0x1A0000000 then off / 131072 else (off - 0x1A0000000) / 512
  let inRing := decide (off < 0x1A0000000 + 512 * ringSlots) &&
    decide ((slot + ringSlots - h.rdSeq % ringSlots) % ringSlots < h.wrSeq - h.rdSeq)
  (h.updEntries fun es => es.map fun e => if hits e.lseq then { e with dramErr := true } else e).when inRing
    (·.ledgerEvt levDram)

/-- An uncorrectable error at DRAM offset `off`; the spec gives no master ID to the hardware's own readers: with none, the
master is a free value. -/
def Hw.ddrUe (h : Hw) (off : Nat) (master : Option Nat) (scrub : Bool) : Hw :=
  let m := master.getD (Config.freeValue h.draws % 32)
  let h := if master.isNone then h.draw else h
  let h := (h.bump F.DDR_UECNT_COUNT 0 1).set F.DDR_UEADDR_LO_VALUE 0 (off % 2 ^ 32 / 8 * 8)
  let h := (h.set F.DDR_UEADDR_HI_VALUE 0 (off / 2 ^ 32 % 8)).set F.DDR_UEMST_VALUE 0 (m + 256 * bit scrub)
  (h.ddrEvt F.DDR_EVT_UE F.DDR_IEN_UE).ledgerUe off

/-- An uncorrectable error that a reader may have met. -/
def Hw.ddrMay (h : Hw) (err : Option Nat) (master : Option Nat) : Hw :=
  match err with
  | none => h
  | some off => h.ddrUe off master false

/-- Corrected errors. -/
def Hw.ddrCe (h : Hw) (k : Nat) : Hw :=
  if k = 0 then h else (h.bump F.DDR_CECNT_COUNT 0 k).ddrEvt F.DDR_EVT_CE F.DDR_IEN_CE

/-! ### Entries (R159 to R163, R169, R170) -/

/-- An entry has met its close condition (R163): marked so, or every recorded engine in service has recorded a segment
of a later slice of another layer. The condition is judged anew at the header: an engine that enters service while the entry
waits can undo it (DESIGN CHOICE, log entry 122). -/
def Hw.closeMet (h : Hw) (e : LedgerEntry) : Bool :=
  e.met || (List.range 16).all fun n =>
    !(h.bitOf F.LDG_ENGMASK_MASK 0 n && h.inService n) || nbit e.later n

/-- An entry still takes segments: it is not being closed by force, by EN = 0 or with its signature running. One that has
met its condition takes them until its header is due (R163). -/
def Hw.takes (h : Hw) (e : LedgerEntry) : Bool :=
  !e.forced && !e.ckpt && (h.ledger.signing.map fun s => s.entry.lseq) != some e.lseq

/-- Entries that count as open: at most 4 (R162). -/
def Hw.openEntries (h : Hw) : Nat := (h.ledger.entries.filter h.takes).length

/-- The ledger may open an entry: a free slot of the ring and a working DRAM (R169, R477). -/
def Hw.canOpen (h : Hw) : Bool := decide (h.wrSeq - h.rdSeq < ringSlots) && h.on F.CLK_STAT_DDR_LOCK 0

/-- Force-close the open entry with the lowest LSEQ. -/
def forceOldest (takes : LedgerEntry → Bool) : List LedgerEntry → List LedgerEntry
  | [] => []
  | e :: es => if takes e then { e with forced := true, met := true } :: es else e :: forceOldest takes es

/-- A fresh entry of a layer, with the trip latches and engine faults that stand at its opening (R160). -/
def Hw.freshEntry (h : Hw) (lseq layer : Nat) : LedgerEntry :=
  { lseq := lseq, layer := layer, tOpen := h.time
    trips := nmask 64 fun z => h.on F.ZONE_STAT_TRIP z
    faults := nmask 16 fun n => h.on F.REL_STAT_AFAULT n || decide ((h.bEng n).fault ≠ .none) }

/-- Open an entry for a layer (R162, LDG_WARN); the layers lost before may be lost, and counted, again (R170). -/
def Hw.openEntry (h : Hw) (layer : Nat) : Hw :=
  let lseq := h.wrSeq
  let h := h.when (h.openEntries == 4) fun h => h.updEntries (forceOldest h.takes)
  let h := (h.updEntries fun es => es ++ [h.freshEntry lseq layer]).initRecords lseq
  let h := { h with ledger := { h.ledger with lostLayers := [] } }
  let h := (h.set64 F.LDG_WRSEQ_LO_VALUE F.LDG_WRSEQ_HI_VALUE (lseq + 1)).setB F.LDG_STAT_FULL 0 false
  let free := ringSlots - (h.wrSeq - h.rdSeq)
  h.when (free == min ringSlots (h.get F.LDG_WARN_SLOTS 0)) fun h => h.ledgerEvt levWarn

/-- An entry cannot be opened: FULL, and with FULL_ACT = 0 the layer counts as lost once (R170). -/
def Hw.ledgerFull (h : Hw) (layer : Nat) : Hw :=
  let h := h.when (!h.on F.LDG_STAT_FULL 0) fun h => (h.setB F.LDG_STAT_FULL 0 true).ledgerEvt levFull
  if h.on F.LDG_CFG_FULL_ACT 0 ∨ h.ledger.lostLayers.contains layer = true then h
  else
    (({ h with ledger := { h.ledger with lostLayers := layer :: h.ledger.lostLayers, lost := h.ledger.lost + 1 } }).bump
      F.LDG_LOST_COUNT 0 1).ledgerEvt levGap

/-- An entry for the layer stands open. -/
def Hw.hasEntry (h : Hw) (layer : Nat) : Bool := h.ledger.entries.any fun e => e.layer == layer && h.takes e

/-- Engine `n` is recorded (R159). -/
def Hw.recorded (h : Hw) (n : Nat) : Bool := h.on F.LDG_CTL_EN 0 && h.bitOf F.LDG_ENGMASK_MASK 0 n

/-- A segment of engine `n` and a layer asks for its entry: opened where there is none (R162, R169, R170). A layer that counts as
lost is recorded from its next segment on once an entry can be opened (DESIGN CHOICE, log entry 123). -/
def Hw.wantEntry (h : Hw) (n layer : Nat) : Hw :=
  if !h.recorded n || h.hasEntry layer then h
  else if h.canOpen then h.openEntry layer
  else h.ledgerFull layer

/-- The release gates of recorded engines blank every segment under FULL_ACT from FULL until an entry can be opened
(R170), and no longer once LDG_CTL.EN is 0 (DESIGN CHOICE, log entry 125). -/
def Hw.ledgerBlanks (h : Hw) (n : Nat) : Bool :=
  h.recorded n && h.on F.LDG_STAT_FULL 0 && h.on F.LDG_CFG_FULL_ACT 0 && !h.canOpen

/-- A record that is read back: lost with an uncorrectable error at its place (R164). -/
def Hw.readRecord (h : Hw) (off : Nat) (bad : Bool) : List Byte := if bad then freshRecord else h.dramBytes off 8

/-- The slice of a layer that engine `n` records in entry `e` is later than its slices of entry `x`: it has recorded in `x`
before, or has gone past it (R163). -/
def passedBy (n : Nat) (e x : LedgerEntry) : Bool := x.layer != e.layer && (nbit x.engines n || decide (x.lseq < e.lseq))

/-- Record a released segment in the entry of its layer (R159, R160, R163); `bad` lists the tile columns whose record meets an
uncorrectable error and is rewritten from this segment alone (R164). -/
def Hw.ledgerRecord (h : Hw) (n : Nat) (hd : SegHdr) (notes : List TileNote) (bad : List Nat) : Hw :=
  if !h.recorded n then h
  else
    match h.ledger.entries.find? fun e => e.layer == hd.layer && h.takes e with
    | none => h
    | some e =>
      let base := recordsAt e.lseq + 8 * (1024 * n + 32 * hd.seg)
      let h := h.forUpTo 32 fun c h =>
        let bad := bad.contains c
        let h := h.when bad (·.ddrUe (base + 8 * c) none false)
        h.putDram (base + 8 * c) (updateRecord (h.readRecord (base + 8 * c) bad) (notes.getD c {}))
      h.updEntries fun es => es.map fun x =>
        if x.lseq = e.lseq then { x with engines := nsetBit x.engines n true }
        else if passedBy n e x then { x with later := nsetBit x.later n true } else x

/-! ### Closing (R163 to R167) -/

/-- CLOSE_TO passed for the entry of a layer (R163). -/
def Hw.ledgerTimeout (h : Hw) (lseq : Nat) : Hw :=
  h.updEntries fun es => es.map fun e => if e.lseq = lseq ∧ e.met = false then { e with timeout := true, met := true } else e

/-- The digest that the first header carries as PREV_DIG (R165). -/
def Hw.genesisDigest (h : Hw) : List Byte :=
  digest 0x414B4C4447473031 (h.getBytes .LDG_NONCE 4 ++ h.getBytes .GLB_CFGDIG 8 ++ h.getBytes .GLB_SERIAL 2)

/-- Header bytes 0 to 175 of an entry (R164). -/
def Hw.headerBody (h : Hw) (e : LedgerEntry) (ckpt : Bool) (recDig : List Byte) : List Byte :=
  let hf := bit e.forced + 2 * bit ckpt + 4 * bit (e.lseq == 0) + 8 * bit e.timeout + 16 * bit e.dramErr + 32 * bit (Nat.land e.loads e.engines != 0)
  [0x41, 0x4B, 0x4C, 0x48, 0x01] ++ bytesLE 1 hf ++ bytesLE 2 0 ++ bytesLE 8 e.lseq ++ bytesLE 4 e.layer ++
    bytesLE 2 e.engines ++ bytesLE 2 0 ++ bytesLE 8 (e.tOpen - h.ledger.tActive) ++
    bytesLE 8 (h.time - h.ledger.tActive) ++ bytesLE 4 h.ledger.lost ++ bytesLE 4 0 ++
    bytesLE 8 (h.get F.CHK_ENV_ACT_SET 0 + 2 ^ 32 * h.get F.CHK_ENV_ACT_SET 1) ++ bytesLE 8 0 ++
    h.getBytes .GLB_CFGDIG 8 ++ h.getBytes .LDG_NONCE 4 ++ recDig ++
    (if e.lseq = 0 then h.genesisDigest else h.ledger.prevDig)

/-- The TRIP and ENGFAULT flags of the records of an entry that closes: those of its layer, in every tile recorded (R160). -/
def Hw.finishRecords (h : Hw) (e : LedgerEntry) : Hw :=
  let late (t : Nat) : List Nat := (if nbit e.trips (h.zoneOf t) then [lfTrip] else []) ++
    if nbit e.faults (t / 1024) then [lfEngFault] else []
  if e.trips = 0 ∧ e.faults = 0 then h
  else
    h.forUpTo 16384 fun t h =>
      let off := recordsAt e.lseq + 8 * t + 7
      let f := numAt (h.dramBytes off 1) 0 1
      if nbit f lfNodata then h else h.putDram off (bytesLE 1 ((late t).foldl (fun f k => nsetBit f k true) f))

/-- Write a header and close its entry: LDG_CLSEQ, LDG_HDIG and CLOSED (R164, R165). -/
def Hw.writeHeader (h : Hw) (e : LedgerEntry) (header hdig sig : List Byte) : Hw :=
  let h := h.putDram (headerAt e.lseq) (header ++ sig ++ List.replicate 222 0)
  let h := (h.set64 F.LDG_CLSEQ_LO_VALUE F.LDG_CLSEQ_HI_VALUE (e.lseq + 1)).setBytes .LDG_HDIG 0 hdig
  let h := { h with ledger := { h.ledger with entries := h.ledger.entries.filter (fun x => x.lseq != e.lseq),
                                              prevDig := hdig, signing := none } }
  h.ledgerEvt levClosed

/-- Reading back the records of an entry may meet an uncorrectable error in byte `k` of them: that record is rewritten from
values in hand that the spec does not state, which are free (R164). -/
def Hw.rereadRecords (h : Hw) (e : LedgerEntry) (err : Option Nat) : Hw :=
  match err with
  | none => h
  | some k =>
    let off := recordsAt e.lseq + k % 131072 / 8 * 8
    let h := h.ddrUe (recordsAt e.lseq + k % 131072) none false
    (h.putDram off (bytesLE 8 (Config.freeValue h.draws))).draw

/-- The header of the oldest entry is due once its close condition is met: a checkpoint goes to signing, another header
is written; its LOST counts the layers lost since the header before it. `met` gives the place of an uncorrectable error in the
entry's records and the count of corrected ones (R47, R164, R165, R167, R170). -/
def Hw.headerWritten (h : Hw) (met : DramMet) : Hw :=
  match h.ledger.entries, h.ledger.signing with
  | e :: _, none =>
    if h.closeMet e then
      let h := ((h.finishRecords e).rereadRecords e met.ue).ddrCe met.ce
      let e := { e with dramErr := e.dramErr || met.ue.isSome }
      let ckpt := e.ckpt || (e.lseq + 1) % (h.get F.LDG_CFG_CKINT 0) == 0
      let recDig := digest 0x414B4C4447523031 (h.dramBytes (recordsAt e.lseq) 131072)
      let body := h.headerBody e ckpt recDig
      let hdig := digest 0x414B4C4447483031 body
      let h := { h with ledger := { h.ledger with lost := 0 } }
      if ckpt then
        ({ h with ledger := { h.ledger with entries := { e with met := true } :: h.ledger.entries.tail,
                                            signing := some { entry := e, header := body, digest := hdig } } }).setB
          F.LDG_STAT_SIGNING 0 true
      else h.writeHeader e body hdig (List.replicate 114 0)
    else h
  | _, _ => h

/-- The checkpoint signature completes and the header is written with it (R167). The spec gives no case in which no device
identity key is held: the model then signs with the empty key (DESIGN CHOICE, log entry 92). -/
def Hw.checkpointSigned (h : Hw) : Hw :=
  match h.ledger.signing with
  | none => h
  | some s =>
    let sig := ed448Sign h.idKey (tagBytes 0x414B4C4447433031 ++ s.digest)
    ((h.setB F.LDG_STAT_SIGNING 0 false).writeHeader s.entry s.header s.digest sig).ledgerEvt levCkpt

/-- A write of LDG_CTL: EN = 0 closes every open entry as a checkpoint and stops recording (R167). -/
def ldgCtlWrite (v : Nat) (h : Hw) : Hw :=
  let h := h.when (!nbit v 0 && h.on F.LDG_CTL_EN 0) fun h =>
    h.updEntries fun es => es.map fun e => { e with met := true, ckpt := true }
  let h := h.setB F.LDG_CTL_EN 0 (nbit v 0)
  h.when (nbit v 1) fun h => h.setB F.LDG_CTL_CFGLK 0 true

/-- A write of LDG_RDSEQ_LO is held (R173). -/
def ldgRdLoWrite (v : Nat) (h : Hw) : Hw := { h with ledger := { h.ledger with rdLo := some (BitVec.ofNat 32 v) } }

/-- Advance LDG_RDSEQ unless it would pass the closed entries (R171). -/
def Hw.setRdSeq (h : Hw) (v : Nat) : Hw :=
  if v ≤ h.clSeq then h.set64 F.LDG_RDSEQ_LO_VALUE F.LDG_RDSEQ_HI_VALUE v else h

/-- The low half that a write of LDG_RDSEQ_HI takes: the held one, else the one that stands (R173). -/
def Hw.rdLow (h : Hw) : Nat := match h.ledger.rdLo with
  | some w => w.toNat
  | none => h.get F.LDG_RDSEQ_LO_VALUE 0

/-- A write of LDG_RDSEQ_HI applies the held low half with it and holds none any more (R171, R173). -/
def ldgRdHiWrite (v : Nat) (h : Hw) : Hw :=
  ({ h with ledger := { h.ledger with rdLo := none } }).setRdSeq (h.rdLow + 2 ^ 32 * v)

/-- Firmware writes LDG_RDSEQ_LO and then LDG_RDSEQ_HI (R171, R173). -/
def Hw.ackSeq (h : Hw) (v : Nat) : Hw := ldgRdHiWrite (v / 2 ^ 32) (ldgRdLoWrite (v % 2 ^ 32) h)

/-! ### Activation (R112, R166) -/

/-- Cold initialisation ends: integrators at their cold values, and the configuration active with its slot timers, LSEQ and
nonce. A held LDG_RDSEQ_LO stays held (R173). -/
def Hw.coldInitComplete (Rnd : Nat → Byte) (h : Hw) : Hw :=
  if h.on F.CHK_STAT_COLDINIT 0 then
    let h := { h with
      pool := { h.pool with integrators := [], cold := Store.putList (fun _ => 0) [] 0 ((List.range 64).map h.coldValue),
                            peaks := [], bins := [] } }
    let h := (h.setB F.CHK_STAT_COLDINIT 0 false).setB F.CHK_STAT_ACTIVE 0 true
    let h := h.forUpTo 16 fun n h => h.set F.LANE_SLOTCNT_COUNT n 0
    let h := (h.setBytes .LDG_NONCE 0 (randomBytes Rnd h.draws 16))
    let h := ((h.set64 F.LDG_WRSEQ_LO_VALUE F.LDG_WRSEQ_HI_VALUE 0).set64 F.LDG_CLSEQ_LO_VALUE F.LDG_CLSEQ_HI_VALUE 0).set64
      F.LDG_RDSEQ_LO_VALUE F.LDG_RDSEQ_HI_VALUE 0
    { h with draws := h.draws + 16, ledger := { tActive := h.time, rdLo := h.ledger.rdLo } }
  else h

end Sys2Proof.Machine
end

