-- ==== Sys2Proof/Machine/Env.lean ====
section
/-! DEFINITION. Envelope loads (R118 to R125) on both dies. -/

namespace Sys2Proof.Machine

/-- Loader state codes (CHK_ENV_STAT.STATE). -/
def envIdle : Nat := 0
@[inherit_doc envIdle] def envChecking : Nat := 1
@[inherit_doc envIdle] def envLoading : Nat := 2
@[inherit_doc envIdle] def envDigestSt : Nat := 3
@[inherit_doc envIdle] def envVerifying : Nat := 4

/-- Load results (CHK_ENV_STAT.RESULT). -/
def erNone : Nat := 0
@[inherit_doc erNone] def erOk : Nat := 1
@[inherit_doc erNone] def erBusy : Nat := 2
@[inherit_doc erNone] def erZoneOpen : Nat := 3
@[inherit_doc erNone] def erBadImage : Nat := 4
@[inherit_doc erNone] def erDigest : Nat := 5
@[inherit_doc erNone] def erTimeout : Nat := 6
@[inherit_doc erNone] def erReadErr : Nat := 7

/-- Report the result of a load of a group: a result other than OK sets ENV_REFUSED, and event 38 is raised (R122,
R124). -/
def Hw.envReport (h : Hw) (group result : Nat) : Hw :=
  let h := { h with envRes := Store.put (fun _ => erNone) h.envRes group result }
  ((h.set F.CHK_ENV_STAT_RESULT 0 result).when (result != erOk) fun h => h.setB F.CHK_ERR_ENV_REFUSED 0 true).raiseChk 38

/-- A load ends with a result. -/
def Hw.envEnd (h : Hw) (result : Nat) : Hw :=
  ({ h with env := none }).set F.CHK_ENV_STAT_STATE 0 envIdle |>.envReport (h.get F.CHK_ENV_STAT_GROUP 0) result

/-- Set the CHK_ENV_VLD bits of the engines of a mask. -/
def Hw.setEnvVld (h : Hw) (engines : Nat) (b : Bool) : Hw :=
  h.forUpTo 16 fun n h => h.when (nbit engines n) fun h => h.setBit F.CHK_ENV_VLD_VLD 0 n b

/-- START written with SET and GROUP (R122 t0 and t1, R124); CHK_ENV_SRC is taken with them (DEDUCED, log entry 31). -/
def Hw.envStart (h : Hw) (group set : Nat) : Hw :=
  if h.get F.CHK_ENV_STAT_STATE 0 ≠ envIdle then h.envReport group erBusy
  else
    let engines := h.groupEngines group
    let zones := h.zonesOf engines
    let h := (h.set F.CHK_ENV_STAT_GROUP 0 group).set F.CHK_ENV_STAT_SET 0 set
    if (List.range 64).any fun z => nbit zones z && h.zopen z then h.envReport group erZoneOpen
    else
      let h := ((h.set F.CHK_ENV_STAT_RESULT 0 erNone).set F.CHK_ENV_STAT_STATE 0 envChecking).setEnvVld engines false
      { h with env := some { group := group, set := set, src := 64 * h.get F.CHK_ENV_SRC_ADDR 0, engines := engines },
               envRes := Store.put (fun _ => erNone) h.envRes group erNone }

/-- A write of CHK_ENV_CTL. -/
def envCtlWrite (v : Nat) (h : Hw) : Hw :=
  let h := (h.set F.CHK_ENV_CTL_GROUP 0 (nfield v 16 4)).set F.CHK_ENV_CTL_SET 0 (nfield v 8 4)
  h.when (nbit v 0) fun h => h.envStart (nfield v 16 4) (nfield v 8 4)

/-! ### The image (R120, R121) -/

/-- The engines of a mask in ascending order. -/
def engineList (m : Nat) : List Nat := (List.range 16).filter (nbit m)

/-- The rules for one zone record (R120): `fnOk` says which functions are configured. -/
def recordOk (fnOk : Nat → Bool) (z : Nat) (r : List Byte) : Bool :=
  let cfg := numAt r 4 4
  let k := nfield cfg 0 4
  let lim := numAt r 8 4
  byteAt r 0 == z && numAt r 1 3 == 0 && decide (1 ≤ k) && nfield cfg 4 2 != 3 && !nbit cfg 7 &&
    fnOk (nfield cfg 8 8) && decide (1 ≤ lim ∧ lim ≤ 0xFFFF0000) && decide (2 ^ k ≤ numAt r 16 4 ∧ numAt r 16 4 ≤ lim) &&
    decide (2 ^ k ≤ numAt r 20 4) && numAt r 24 8 == 0

/-- The bytes of zone record `i` of an image. -/
def imageRecord (img : List Byte) (i : Nat) : List Byte := (img.drop (64 + 32 * i)).take 32

/-- Every rule of R120 and R121 for the image of a load, whose header and zone records are `img`. -/
def Hw.imageOk (h : Hw) (l : EnvLoad) (img : List Byte) : Bool :=
  let zones := (List.range 64).filter (nbit (h.zonesOf l.engines))
  let others := h.zonesOf (0xFFFF - l.engines)
  img.take 4 == [0x45, 0x4E, 0x56, 0x31] && byteAt img 4 == l.set && byteAt img 5 == l.group &&
    numAt img 6 2 == l.engines && byteAt img 8 == zones.length && ((img.drop 9).take 55).all (· == 0) &&
    decide (1 ≤ zones.length) &&
    ((List.range zones.length).all fun i =>
      recordOk (fun f => h.get F.SFN_CFG_TYPE f != 0) (zones.getD i 0) (imageRecord img i)) &&
    zones.all (fun z => !nbit others z) &&
    decide (l.src + 64 + 32 * zones.length + 131072 * (engineList l.engines).length ≤ 0x10000000)

/-- Little-endian 16-bit words of a byte string, as the ceilings stand in an image (R120). -/
def halfWords : List Byte → List Nat
  | a :: b :: r => (a.toNat + 256 * b.toNat) :: halfWords r
  | _ => []

/-- The ceilings of a load that meets an uncorrectable error are no longer held: free values until a later load of the group
rewrites them (R124). -/
def Hw.loseCeilings (h : Hw) (engines : Nat) : Hw :=
  h.forUpTo 16 fun n h => h.when (nbit engines n) fun h =>
    { h with draws := h.draws + 65536
             pool := { h.pool with lostCeil := Store.put (fun _ => 0) h.pool.lostCeil n (h.draws + 1) } }

/-- The load meets an uncorrectable error in the image: result READ_ERR. -/
def Hw.envReadErr (h : Hw) (l : EnvLoad) : Hw := (h.loseCeilings l.engines).envEnd erReadErr

/-- The loader finishes checking the image (R121, R122 t2). -/
def Hw.envImageChecked (h : Hw) (readErr : Bool) : Hw :=
  match h.env with
  | none => h
  | some l =>
    if h.get F.CHK_ENV_STAT_STATE 0 ≠ envChecking then h
    else if readErr then h.envReadErr l
    else
      let zc := byteAt (h.dramBytes (stagingBase + l.src) 64) 8
      let ne := (engineList l.engines).length
      let img := h.dramBytes (stagingBase + l.src) (64 + 32 * zc)
      if h.imageOk l img then
        let recs := (List.range zc).map fun i =>
          let r := imageRecord img i
          [byteAt r 0, numAt r 4 4, numAt r 8 4, numAt r 12 4, numAt r 16 4, numAt r 20 4]
        let ceils := halfWords (h.dramBytes (stagingBase + l.src + 64 + 32 * zc) (131072 * ne))
        ({ h with env := some { l with records := recs, ceilings := ceils } }).set F.CHK_ENV_STAT_STATE 0 envLoading
      else h.envEnd erBadImage

/-- Write one zone record to its ZONE registers; a lower EXLIM may set the zone's trip latch (R93). LOADED is set here, before the
load is confirmed, and no later load or failed result clears it: the spec does not say when it is 0 again (DESIGN CHOICE, log
entry 119). -/
def Hw.writeZone (h : Hw) (r : List Nat) : Hw :=
  let z := r.getD 0 0
  ((((h.putWord .ZONE_CFG z (BitVec.ofNat 32 (r.getD 1 0) &&& 0xFFFFFF7F)).set F.ZONE_LIM_VALUE z (r.getD 2 0)).set
    F.ZONE_COLD_VALUE z (r.getD 3 0)).set F.ZONE_COLDREL_VALUE z (r.getD 4 0)).set F.ZONE_TOUCH_VALUE z (r.getD 5 0)
    |>.setB F.ZONE_STAT_LOADED z true |>.judgeTrip z

/-- Zone records and ceilings are written (R122 t2, t3). With an error while the ceilings are read, the zone records are
written and the ceilings lost (R124). -/
def Hw.envWriteDone (h : Hw) (readErr : Bool) : Hw :=
  match h.env with
  | none => h
  | some l =>
    if h.get F.CHK_ENV_STAT_STATE 0 ≠ envLoading then h
    else if readErr then (h.forEach l.records fun r h => h.writeZone r).envReadErr l
    else
      let h := h.forEach l.records fun r h => h.writeZone r
      let kept (kv : Nat × Nat) : Bool := !nbit l.engines (kv.1 / 65536)
      let ces := (engineList l.engines)
      let c := (List.range ces.length).foldl (fun m i =>
        Store.putList (fun _ => 0) m (65536 * ces.getD i 0) ((l.ceilings.drop (65536 * i)).take 65536)) h.pool.ceilings
      ({ h with pool := { h.pool with ceilings := c, badCeil := h.pool.badCeil.filter kept
                                      lostCeil := h.pool.lostCeil.filter fun kv => !nbit l.engines kv.1 } }).set
        F.CHK_ENV_STAT_STATE 0 envDigestSt

/-- The 32-byte record rebuilt from the ZONE registers of zone `z` (R123). -/
def Hw.zoneRecord (h : Hw) (z : Nat) : List Byte :=
  bytesLE 1 z ++ bytesLE 3 0 ++ bytesLE 4 (h.word .ZONE_CFG z).toNat ++ bytesLE 4 (h.get F.ZONE_LIM_VALUE z) ++
    bytesLE 4 (h.get F.ZONE_COLD_VALUE z) ++ bytesLE 4 (h.get F.ZONE_COLDREL_VALUE z) ++
    bytesLE 4 (h.get F.ZONE_TOUCH_VALUE z) ++ bytesLE 8 0

/-- The envelope digest over what the loader reads back (R123). -/
def Hw.envDigestOf (h : Hw) (group set engines : Nat) : List Byte :=
  digest 0x414B454E56533031 (bytesLE 1 set ++ bytesLE 1 group ++
    ((List.range 64).filter (nbit (h.zonesOf engines))).flatMap h.zoneRecord ++
    (engineList engines).flatMap (fun n => (List.range 1024).flatMap fun t => bytesLE 1 (h.zoneOf (1024 * n + t))) ++
    (engineList engines).flatMap fun n => (List.range 65536).flatMap fun i => bytesLE 2 (h.ceiling (65536 * n + i)))

/-- The envelope digest is computed and sent to the B-die (R122 t4, R123). -/
def Hw.envDigestDone (h : Hw) : Hw :=
  match h.env with
  | none => h
  | some l =>
    if h.get F.CHK_ENV_STAT_STATE 0 ≠ envDigestSt then h
    else
      let d := h.envDigestOf l.group l.set l.engines
      ((h.setBytes .CHK_ENV_DIG 0 d).set F.CHK_ENV_STAT_STATE 0 envVerifying).sendB (.envDigest l.group l.set d)

/-! ### The B-die's comparison (R119, R122) -/

/-- The first envelope digest on its way to the B-die, and the messages without it. -/
def takeEnvDigest : List AtoB → Option ((Nat × Nat × List Byte) × List AtoB)
  | [] => none
  | .envDigest g s d :: ms => some ((g, s, d), ms)
  | m :: ms => (takeEnvDigest ms).map fun p => (p.1, m :: p.2)

/-- The B-die's selection for a group. -/
def Hw.bSel (h : Hw) (g : Nat) : Nat := Store.get (fun _ => 0) h.b.sel g

/-- The B-die compares an envelope digest with the package digest of its own selected set and group, answers, and on a
match resumes its tile check for those engines (R122). -/
def Hw.bEnvCheck (h : Hw) : Hw :=
  match takeEnvDigest h.toB with
  | none => h
  | some ((g, _, d), rest) =>
    let h := { h with toB := rest }
    let same := d == Store.get (fun _ => []) h.b.cfg.envDigest (16 * g + h.bSel g)
    let h := h.when same fun h => h.forUpTo 16 fun n h =>
      h.when (h.b.cfg.groupOf n == g) fun h => h.updBEng n fun e => { e with envOk := true }
    h.sendA (.envReply g same)

/-- The first envelope answer on its way to the A-die, and the messages without it. -/
def takeEnvReply : List BtoA → Option ((Nat × Bool) × List BtoA)
  | [] => none
  | .envReply g b :: ms => some ((g, b), ms)
  | m :: ms => (takeEnvReply ms).map fun p => (p.1, m :: p.2)

/-- The load of a group ends with OK: the set is confirmed for its engines, and open ledger entries of those engines
note the change (R122 t5, R164). -/
def Hw.envConfirm (h : Hw) (l : EnvLoad) : Hw :=
  let h := h.setEnvVld l.engines true
  let h := h.forUpTo 16 fun n h => h.when (nbit l.engines n) fun h =>
    let w := h.get F.CHK_ENV_ACT_SET (n / 8)
    h.set F.CHK_ENV_ACT_SET (n / 8) (w - 2 ^ (4 * (n % 8)) * nfield w (4 * (n % 8)) 4 + 2 ^ (4 * (n % 8)) * l.set)
  (h.updEntries fun es => es.map fun e => { e with loads := Nat.lor e.loads l.engines }).envEnd erOk

/-- The B-die's answer arrives (R122 t5). An answer names no load: one that comes after its own load ended with BDIE_TIMEOUT
decides a later load of the same group that waits for an answer (DESIGN CHOICE, log entry 91). -/
def Hw.envVerifyReply (h : Hw) : Hw :=
  match takeEnvReply h.toA with
  | none => h
  | some ((g, same), rest) =>
    let h := { h with toA := rest }
    match h.env with
    | none => h
    | some l =>
      if h.get F.CHK_ENV_STAT_STATE 0 ≠ envVerifying ∨ l.group ≠ g then h
      else if same then h.envConfirm l
      else h.envEnd erDigest

/-- No answer within 1 ms (R122 t5). -/
def Hw.envVerifyTimeout (h : Hw) : Hw :=
  if h.get F.CHK_ENV_STAT_STATE 0 = envVerifying then h.envEnd erTimeout else h

end Sys2Proof.Machine
end

