-- ==== Sys2Proof/Machine/Field.lean ====
section
/-! DEFINITION. Field links, digital inputs and test pulses (R22, R226 to R251). -/

namespace Sys2Proof.Machine

/-! ### Access to the records -/

/-- Digital input `i` in channel `c`; inputs 48 to 63 are DQ0 to DQ15 as inputs of kind DQIN (R268). -/
def Hw.di (h : Hw) (c : Chan) (i : Nat) : DiChan := Store.get (fun _ => {}) h.fio.di (64 * c.num + i)

/-- Test-pulse source `j` in channel `c`. -/
def Hw.tp (h : Hw) (c : Chan) (j : Nat) : TpChan := Store.get (fun _ => {}) h.fio.tp (64 * c.num + j)

/-- The end of the field link of die `d` in channel `c`. -/
def Hw.link (h : Hw) (c : Chan) (d : Nat) : LinkEnd := Store.get (fun _ => {}) h.fio.links (2 * c.num + d)

/-- Source `j` at its field die. -/
def Hw.tpSrc (h : Hw) (j : Nat) : TpSource := Store.get (fun _ => {}) h.fio.srcs j

/-- Field die `d`. -/
def Hw.die (h : Hw) (d : Nat) : FieldDie := Store.get (fun _ => {}) h.fio.dies d

/-- Change source `j` in channel `c`. -/
def Hw.updTp (h : Hw) (c : Chan) (j : Nat) (f : TpChan → TpChan) : Hw :=
  h.updFio fun x => { x with tp := Store.upd (fun _ => {}) x.tp (64 * c.num + j) f }

/-- Change one link end. -/
def Hw.updLink (h : Hw) (c : Chan) (d : Nat) (f : LinkEnd → LinkEnd) : Hw :=
  h.updFio fun x => { x with links := Store.upd (fun _ => {}) x.links (2 * c.num + d) f }

/-- Change source `j` at its field die. -/
def Hw.updSrc (h : Hw) (j : Nat) (f : TpSource → TpSource) : Hw :=
  h.updFio fun x => { x with srcs := Store.upd (fun _ => {}) x.srcs j f }

/-- Change field die `d`. -/
def Hw.updDie (h : Hw) (d : Nat) (f : FieldDie → FieldDie) : Hw :=
  h.updFio fun x => { x with dies := Store.upd (fun _ => {}) x.dies d f }

/-- The field die of input `i` of a channel (DI or DQIN). -/
def inputDie (i : Nat) : Nat := if i < 48 then i / 24 else (i - 48) / 8

/-! ### Parameters (R235) -/

/-- The parameters of an input in a channel. -/
def Hw.diPar (h : Hw) (c : Chan) (i : Nat) : DiCfg :=
  match c with
  | .a =>
    if i < 48 then
      { filt := h.get F.DI_CFG_FILT i, ossd := h.get F.DI_CFG_OSSD i,
        src := if h.on F.DI_CFG_TPEN i then some (h.get F.DI_CFG_TPSRC i) else none }
    else { filt := h.get F.DQ_CFG_FILT (i - 48) }
  | .b =>
    if i < 48 then Store.get (fun _ => {}) h.b.cfg.di i
    else { filt := Store.get (fun _ => 0x1E) h.b.cfg.dqFilt (i - 48) }

/-- The pulse width in 10 µs samples. -/
def Hw.tpW (h : Hw) : Chan → Nat
  | .a => h.get F.TPG_CFG_W 0
  | .b => h.b.cfg.tpW

/-- The slot length in 10 µs samples. -/
def Hw.tpL (h : Hw) : Chan → Nat
  | .a => h.get F.TPG_CFG_L 0
  | .b => h.b.cfg.tpL

/-- Whether source `j` is enabled. -/
def Hw.tpEn (h : Hw) (c : Chan) (j : Nat) : Bool :=
  match c with
  | .a => h.on F.TP_CFG_EN j
  | .b => nbit h.b.cfg.tpEn j

/-- The supply-cut override of a die in a channel (R248). -/
def Hw.forced (h : Hw) (c : Chan) (d : Nat) : Bool :=
  ((h.die d).cut && !(h.die d).start) || (h.die d).held || (h.link c d).err

/-! ### Notices of the field dies -/

/-- Act on one notice of a field die. -/
def Hw.takeNote (h : Hw) : FieldNote → Hw
  | .flag f n k => h.setBit f n k true
  | .count f n => h.bump f n 1
  | .event e i => h.raiseAt e i

/-- A field die reports a notice on FLA: at once while channel A's end of FLA is not in error, else with the next valid
frame. -/
def Hw.note (h : Hw) (d : Nat) (x : FieldNote) : Hw :=
  if (h.link .a d).err then
    h.updFio fun f => { f with notes := Store.upd (fun _ => []) f.notes d (· ++ [x]) }
  else h.takeNote x

/-- A valid FLA frame carries the notices that have waited. -/
def Hw.takeNotes (h : Hw) (d : Nat) : Hw :=
  (h.forEach (Store.get (fun _ => []) h.fio.notes d) fun x h => h.takeNote x).updFio fun f =>
    { f with notes := Store.put (fun _ => []) f.notes d [] }

/-! ### Writing an input's state back -/

/-- The finding codes of DI_TPLAST.FIND. -/
def findClean : Nat := 0
@[inherit_doc findClean] def findXshort : Nat := 1
@[inherit_doc findClean] def findStuck : Nat := 2
@[inherit_doc findClean] def findSuppressed : Nat := 3

/-- DI_TPLAST.CONF: consecutive periods that are not CLEAN, or CLEAN periods while a fault is reported. -/
def DiChan.conf (x : DiChan) : Nat := if x.bad != 0 then min x.bad 2 else if x.tpf != 0 then min x.clean 2 else 0

/-- DI_STAT.UNPROVEN of an input: it has a test-pulse source and no CLEAN period yet (R246). -/
def Hw.showUnproven (h : Hw) (i : Nat) : Hw :=
  h.setB F.DI_STAT_UNPROVEN i ((h.diPar .a i).src.isSome && !(h.di .a i).proven)

/-- DI_STAT and DI_TPLAST show the state of an input in channel A. -/
def Hw.showDi (h : Hw) (i : Nat) (x : DiChan) : Hw :=
  (((((((((((h.setB F.DI_STAT_RAW i x.raw).setB F.DI_STAT_FILT i x.filt).setB F.DI_STAT_BLANK i x.blank).set F.DI_STAT_TPF i
    x.tpf).setB F.DI_STAT_SRC i x.src).set F.DI_STAT_XSRC i x.xsrc).set F.DI_TPLAST_FIND i x.find).setB F.DI_TPLAST_OWN_LOW i
    x.ownLow).set F.DI_TPLAST_CONF i x.conf).set F.DI_TPLAST_FOREIGN i x.foreign).setB F.DI_STAT_FORCED i
    (h.forced .a (i / 24))).showUnproven i

/-- Put the state of an input; a filtered change in channel A counts and may raise event 48 or 49 (R232). -/
def Hw.putDi (h : Hw) (c : Chan) (i : Nat) (x : DiChan) : Hw :=
  let chg := (h.di c i).filt != x.filt
  let h := h.updFio fun f => { f with di := Store.put (fun _ => {}) f.di (64 * c.num + i) x }
  match c with
  | .b => h
  | .a =>
    if i < 48 then
      let h := h.showDi i x
      (h.when chg (·.bump F.DI_CHGCNT_COUNT i 1)).when (chg && h.on F.DI_CFG_EVEN i) (·.raiseAt (48 + i / 24) i)
    else h.setB F.DQ_STAT_FILT (i - 48) (x.filt && h.on F.DQ_CFG_MODE (i - 48))

/-! ### The four stages (R229 to R232) -/

/-- OSSD tolerance (R230): the state after sample `x` and what the stage passes. -/
def DiChan.ossdStage (o : Nat) (x : Bool) (s : DiChan) : DiChan × Bool :=
  if o = 0 then ({ s with was1 := x }, x)
  else if x then
    let gap := if s.tol && decide (0 < s.run ∧ s.run ≤ o) then 1 else min (s.gap + 1) 200
    ({ s with was1 := true, run := 0, tol := false, gap := gap }, true)
  else
    let tol := if s.run = 0 then s.was1 && decide (2 * o ≤ s.gap) else s.tol
    ({ s with was1 := false, run := min (s.run + 1) 200, tol := tol, gap := min (s.gap + 1) 200 },
      tol && decide (s.run + 1 ≤ o))

/-- Test-pulse blanking (R231, R246): `flag` says that the frame flags the input's source as pulsing. -/
def DiChan.blankStage (src : Option Nat) (flag : Bool) (y : Bool) (s : DiChan) : DiChan × Bool :=
  if src.isNone then ({ s with last := y, blank := false }, y)
  else
    let held := if flag && !s.blank then s.last else s.held
    let z := if flag then held else y
    ({ s with blank := flag, held := held, last := y }, z && s.proven)

/-- The filter (R232) with N_F = 10·FILT - 2 samples. -/
def DiChan.filterStage (filt : Nat) (z : Bool) (s : DiChan) : DiChan :=
  let n := 10 * filt - 2
  let run := if s.fVal = z ∧ s.fRun ≠ 0 then min (s.fRun + 1) n else 1
  { s with fVal := z, fRun := run, filt := if n ≤ run then z else s.filt }

/-- One sample of an input through the four stages. -/
def DiChan.sample (p : DiCfg) (override flag : Bool) (raw : Bool) (s : DiChan) : DiChan :=
  let (s, y) := s.ossdStage p.ossd (raw && !override)
  let (s, z) := s.blankStage p.src flag y
  { s.filterStage p.filt z with raw := raw }

/-! ### Raw samples to test-pulse detection (R243) -/

/-- The place of the next sample in a slot of `l` samples. -/
def nextPos (l : Nat) (flag : Bool) : Option Nat → Option Nat
  | none => if flag then some 0 else none
  | some p => if p + 1 < l then some (p + 1) else if flag then some 0 else none

/-- Whether a place lies in the second half of the pulse, its last floor(w/2) samples. -/
def secondHalf (w p : Nat) : Bool := decide (w - w / 2 ≤ p ∧ p < w)

/-- A raw sample of an input at place `p` of the slot of source `j`; `prev` is the raw sample before. -/
def DiChan.detect (w l j : Nat) (prev raw : Bool) (s : DiChan) : Option Nat → DiChan
  | none => s
  | some p =>
    let s := if p = 0 then { s with pre := nsetBit s.pre j prev } else s
    let s := if secondHalf w p && !raw then { s with low := nsetBit s.low j true } else s
    if p + 1 = l ∧ raw = true then { s with post := nsetBit s.post j true } else s

/-- The source samples of a frame of die `d`, and the place of its samples in the slots of the other die's sources
(R243). -/
def Hw.sourceSamples (h : Hw) (c : Chan) (d : Nat) (rb : Nat) : Hw :=
  h.forUpTo 8 fun k h =>
    let j := 8 * d + k
    let far := 8 * (1 - d) + k
    let h := h.updTp c far fun t => { t with other := nextPos (h.tpL c) (h.tpSrc far).flag t.other }
    let pos := nextPos (h.tpL c) (h.tpSrc j).flag (h.tp c j).pos
    let r := nbit rb k
    let high := match pos with
      | none => false
      | some p => secondHalf (h.tpW c) p && r
    let low := match pos with
      | none => false
      | some p => decide (p + 1 = h.tpL c) && h.tpEn c j && !(h.tpSrc j).ovld && !r
    let h := h.updTp c j fun t => { t with pos := pos, rb := r, high := t.high || high, low := t.low || low }
    match c with
    | .a => h.setB F.TP_STAT_RB j r
    | .b => h

/-- The place of the running sample of die `d` in the slot of source `j`. -/
def Hw.slotPos (h : Hw) (c : Chan) (d j : Nat) : Option Nat := if d = j / 8 then (h.tp c j).pos else (h.tp c j).other

/-- One sample of input `i` of die `d` in a channel; in a field link error the input reads as the demand state (R22). -/
def Hw.inputSample (h : Hw) (c : Chan) (d i : Nat) (raw : Bool) : Hw :=
  let p := h.diPar c i
  let x := h.di c i
  let flag := match p.src with
    | none => false
    | some k => (h.tpSrc k).flag
  let x1 := if p.src.isSome then
      (List.range 16).foldl (fun s j => DiChan.detect (h.tpW c) (h.tpL c) j x.raw raw s (h.slotPos c d j)) x
    else x
  let x2 := x1.sample p (h.forced c d) flag raw
  h.putDi c i { x2 with filt := x2.filt && !(h.link c d).err }

/-! ### Suppressed periods (R249) -/

/-- Bits of `Fio.perSupp`: the running period of channel `c` overlaps the suppression of group `g`. -/
def perBit (c : Chan) (g : Nat) : Nat := 2 * c.num + g

/-- Whether the running period of a channel is SUPPRESSED for the sources of a group. -/
def Hw.tpPeriodSuppressed (h : Hw) (c : Chan) (g : Nat) : Bool :=
  nbit h.fio.perSupp (perBit c g) || (h.link c g).gap

/-- TPG_STAT shows whether channel A suppresses the running period of a group. -/
def Hw.showSupp (h : Hw) (d : Nat) : Hw :=
  h.setB (if d = 0 then F.TPG_STAT_SUPP_F0 else F.TPG_STAT_SUPP_F1) 0 (h.tpPeriodSuppressed .a d)

/-! ### Field link errors at a channel (R22) -/

/-- The inputs of a die as a channel holds them. -/
def dieInputs (d : Nat) : List Nat :=
  (List.range 24).map (24 * d + ·) ++ (List.range 8).map (48 + 8 * d + ·)

/-- Every input of a die reads as the demand state and passes the filter afresh (R22, R234). -/
def Hw.restartInputs (h : Hw) (c : Chan) (d : Nat) : Hw :=
  h.forEach (dieInputs d) fun i h =>
    h.putDi c i { h.di c i with filt := false, fRun := 0, fVal := false }

/-- A frame that fails its check, or a link without a valid frame for 100 µs, puts the link in field link error; in an
error it restarts the count of valid frames (R22). -/
def Hw.linkFault (h : Hw) (c : Chan) (d : Nat) : Hw :=
  if (h.link c d).err then h.updLink c d fun l => { l with good := 0 }
  else
    let h := h.updLink c d fun l => { l with err := true, good := 0, gap := true }
    ((h.raise (62 + d)).restartInputs c d).showSupp d

/-- FIELD_LINK_RECOVERED: the error ends after 100 consecutive valid frames, once no readback of the die disagrees with the
channel's command (R22, R258). -/
def Hw.linkRecovered (h : Hw) (c : Chan) (d : Nat) : Hw :=
  let l := h.link c d
  if l.err && decide (100 ≤ l.good ∧ l.dis = 0) then (h.updLink c d fun l => { l with err := false }).restartInputs c d else h

/-! ### Test-pulse schedule (R238 to R242) -/

/-- TP_STAT.STATE codes. -/
def tpOff : Nat := 0
@[inherit_doc tpOff] def tpOn : Nat := 1
@[inherit_doc tpOff] def tpPulsing : Nat := 2
@[inherit_doc tpOff] def tpOvld : Nat := 3
@[inherit_doc tpOff] def tpNoSync : Nat := 4
@[inherit_doc tpOff] def tpSuppressed : Nat := 5

/-- Whether the sources of a group are switched off by its supply (R249). -/
def Hw.groupOff (h : Hw) (d : Nat) : Bool := (h.die d).cut || (h.die d).held

/-- Whether the device holds its field outputs off (R488). -/
def Hw.fieldOff (h : Hw) : Bool := h.dev == devSafeHold || h.dev == devUnconfigured

/-- The device holds the test-pulse sources off: with its field outputs, and in BOOT until they are tested at t9 (R488). -/
def Hw.tpHeldOff (h : Hw) : Bool := h.fieldOff || (h.dev == devBoot && h.boot.phase != .tested)

/-- TP_STAT.STATE of source `j`; in BOOT a source that is on gives no pulses (R488). -/
def Hw.tpState (h : Hw) (j : Nat) : Nat :=
  let die := h.die (j / 8)
  if !h.on F.TP_CFG_EN j || h.tpHeldOff then tpOff
  else if (h.tpSrc j).ovld then tpOvld
  else if h.groupOff (j / 8) || die.tpSupp then tpSuppressed
  else if h.dev = devBoot then tpOn
  else if !h.on F.TPG_CTL_RUN 0 then tpOn
  else if die.noSync then tpNoSync
  else if die.synced && !die.tpPaused then tpPulsing
  else tpOn

/-- TP_STAT and TPG_STAT show the sources and the suppression of a die. -/
def Hw.showTp (h : Hw) (d : Nat) : Hw :=
  let h := h.forUpTo 8 fun k h => h.set F.TP_STAT_STATE (8 * d + k) (h.tpState (8 * d + k))
  (h.showSupp d).setB (if d = 0 then F.TPG_STAT_SYNC_F0 else F.TPG_STAT_SYNC_F1) 0 (h.die d).synced

/-- The TPG sends a period marker: a die that receives it on FLA times its slots from it, ends NOSYNC, and resumes
pulsing if its supply is valid and its group not held (R241, R242, R249). The marker is a pulse at capture source 0xC1
(R344). -/
def Hw.periodMarker (h : Hw) : Hw :=
  let h := ((h.wrap F.TPG_PERIOD_COUNT 0).set F.TPG_STAT_SLOT 0 0).pulse 0xC1
  h.forUpTo 2 fun d h =>
    (if (h.die d).errA then h
     else h.updDie d fun x =>
       { x with synced := true, noSync := false, tpPaused := x.tpPaused && (x.cut || x.held) }).showTp d

/-- TPG_CTL.RUN is written 1: the schedule starts with its first period marker (R241). -/
def Hw.tpgRun (h : Hw) : Hw :=
  if h.on F.TPG_CTL_RUN 0 then h
  else ((h.setB F.TPG_CTL_RUN 0 true).setB F.TPG_STAT_RUNNING 0 true).periodMarker

/-- TP_PERIOD_START: a further period starts. -/
def Hw.tpPeriodStart (h : Hw) : Hw := if h.on F.TPG_CTL_RUN 0 then h.periodMarker else h

/-- TEST_PULSE_BEGIN: slot `j` begins; an enabled source of a synchronised die is flagged as pulsing and, unless it is
off in overload, goes low (R238 to R241); none pulses in BOOT (R488). -/
def Hw.pulseBegin (h : Hw) (j : Nat) : Hw :=
  let die := h.die (j / 8)
  if h.on F.TPG_CTL_RUN 0 then
    let h := h.set F.TPG_STAT_SLOT 0 j
    if h.on F.TP_CFG_EN j && die.synced && !die.noSync && !die.tpPaused && !h.groupOff (j / 8) && !h.fieldOff && h.dev != devBoot then
      (h.updSrc j fun s => { s with flag := true }).when (!(h.tpSrc j).ovld) (·.wrap F.TP_PCNT_COUNT j)
    else h
  else h

/-- TEST_PULSE_END: the source returns high and its flag ends. -/
def Hw.pulseEnd (h : Hw) (j : Nat) : Hw := h.updSrc j fun s => { s with flag := false }

/-- TP_NOSYNC: a die without a marker for 2·P holds its enabled sources on without pulses (R242). -/
def Hw.tpNoSync (h : Hw) (d : Nat) : Hw :=
  if h.on F.TPG_CTL_RUN 0 then
    let h := h.updDie d fun x => { x with noSync := true, synced := false }
    let h := h.forUpTo 8 fun k h =>
      let j := 8 * d + k
      (h.updSrc j fun s => { s with flag := false }).when (h.on F.TP_CFG_EN j) (·.note d (.flag F.TP_FLT_NOSYNC j 0))
    h.showTp d
  else h

/-- TP_OVERLOAD: a source at its current limit for 5 ms switches off (R238). -/
def Hw.tpOverload (h : Hw) (j : Nat) : Hw :=
  if h.on F.TP_CFG_EN j && !h.tpHeldOff && !h.groupOff (j / 8) then
    let h := h.updSrc j fun s => { s with ovld := true }
    (h.note (j / 8) (.flag F.TP_FLT_OVLD j 0)).showTp (j / 8)
  else h

/-- TP_OVERLOAD_RETRY: the source switches on again after 1 s. -/
def Hw.tpOverloadRetry (h : Hw) (j : Nat) : Hw := (h.updSrc j fun s => { s with ovld := false }).showTp (j / 8)

/-! ### Detection once per period (R243 to R246, R249) -/

/-- A group's test-pulse suppression begins: its running period is SUPPRESSED in both channels. -/
def Hw.suppressTp (h : Hw) (g : Nat) : Hw :=
  let h := h.updDie g fun x => { x with tpSupp := true, tpPaused := true }
  let h := h.updFio fun f => { f with perSupp := nsetBit (nsetBit f.perSupp (perBit .a g) true) (perBit .b g) true }
  (h.forUpTo 8 fun k h => h.updSrc (8 * g + k) fun s => { s with flag := false }).showSupp g

/-- The source findings of one period: two periods in a row confirm a fault with the bits of the second, and two
periods without findings clear it (R245). -/
def Hw.judgeSource (h : Hw) (c : Chan) (j : Nat) : Hw :=
  let t := h.tp c j
  let found := t.high || t.low
  let supp := h.tpPeriodSuppressed c (j / 8)
  let bad := if found then min (t.bad + 1) 2 else 0
  let clean := if found then 0 else min (t.clean + 1) 2
  let fault := if bad = 2 then true else if clean = 2 then false else t.fault
  if supp then h.updTp c j fun t => { t with high := false, low := false }
  else
    let h := h.updTp c j fun t => { t with high := false, low := false, bad := bad, clean := clean, fault := fault }
    let new := fault && !t.fault
    match c with
    | .b => h.when new (·.raiseAt (50 + j / 8) j)
    | .a =>
      let h := h.setB F.TP_STAT_FAULT j fault
      let h := h.when (decide (bad = 2) && t.high) (·.setB F.TP_FLT_SRC_HIGH j true)
      let h := h.when (decide (bad = 2) && t.low) (·.setB F.TP_FLT_SRC_LOW j true)
      h.when new (·.raiseAt (50 + j / 8) j)

/-- The lowest set bit of a 16-bit mask. -/
def lowestBit (m : Nat) : Nat := ((List.range 16).find? (fun j => nbit m j)).getD 0

/-- The finding of one period for an input with source `k` (R244): the code, and whether the source is the cause. -/
def DiChan.finding (k : Nat) (supp srcFound : Bool) (s : DiChan) : Nat × Bool :=
  let foreign := nsetBit (s.low &&& s.pre &&& s.post) k false
  if supp then (findSuppressed, false)
  else if srcFound then (findStuck, true)
  else if foreign ≠ 0 then (findXshort, false)
  else if nbit s.low k then (findClean, false)
  else (findStuck, false)

/-- An input after the finding of one period (R245, R246). -/
def DiChan.judge (k : Nat) (supp srcFound : Bool) (s : DiChan) : DiChan :=
  let foreign := nsetBit (s.low &&& s.pre &&& s.post) k false
  let (find, src) := s.finding k supp srcFound
  let s := { s with find := find, foreign := foreign, ownLow := nbit s.low k, low := 0, post := 0,
                    xsrc := if find = findXshort then lowestBit foreign else s.xsrc }
  if find = findSuppressed then s
  else if find = findClean then
    let clean := min (s.clean + 1) 2
    let s := { s with clean := clean, bad := 0, proven := true }
    if clean = 2 then { s with tpf := 0, src := false } else s
  else
    let bad := min (s.bad + 1) 2
    let s := { s with clean := 0, bad := bad }
    if bad = 2 then { s with tpf := find, src := src } else s

/-- The findings of one period for input `i`. -/
def Hw.judgeInput (h : Hw) (c : Chan) (found : Nat) (i : Nat) : Hw :=
  match (h.diPar c i).src with
  | none => h
  | some k =>
    let s := h.di c i
    let supp := h.tpPeriodSuppressed c (k / 8) || (h.link c (i / 24)).gap
    let s1 := s.judge k supp (nbit found k)
    (h.putDi c i s1).when (s1.tpf != 0 && s.tpf == 0) (·.raiseAt (50 + i / 24) (256 + i))

/-- TP_DETECTION: the end of slot 15 in a channel. -/
def Hw.tpDetection (h : Hw) (c : Chan) : Hw :=
  let found := nmask 16 fun j => (h.tp c j).high || (h.tp c j).low
  let h := h.forUpTo 48 fun i h => h.judgeInput c found i
  let h := h.forUpTo 16 fun j h => if h.tpEn c j then h.judgeSource c j else h
  h.forUpTo 2 fun g h =>
    let h := h.updLink c g fun l => { l with gap := l.err }
    (h.updFio fun f => { f with perSupp := nsetBit f.perSupp (perBit c g) (h.die g).tpSupp }).showSupp g

end Sys2Proof.Machine
end

