-- ==== Sys2Proof/Machine/Outputs.lean ====
section
/-! DEFINITION. Safety outputs, standard outputs, field supply groups and current loops (R252 to R291, R507, R508). -/

namespace Sys2Proof.Machine

/-! ### Access to the records -/

/-- SO pair `n` at its field die. -/
def Hw.so (h : Hw) (n : Nat) : SoPair := Store.get (fun _ => {}) h.fio.so n

/-- DQ `n` at its field die. -/
def Hw.dq (h : Hw) (n : Nat) : DqOut := Store.get (fun _ => {}) h.fio.dq n

/-- CLO `n` at its field die. -/
def Hw.clo (h : Hw) (n : Nat) : CloOut := Store.get (fun _ => {}) h.fio.clo n

/-- CLI path of a channel. -/
def Hw.cli (h : Hw) (c : Chan) (n : Nat) : CliPath := Store.get (fun _ => {}) h.fio.cli (64 * c.num + n)

/-- Put SO pair `n`. -/
def Hw.putSo (h : Hw) (n : Nat) (x : SoPair) : Hw :=
  h.updFio fun f => { f with so := Store.put (fun _ => {}) f.so n x }

/-- Put DQ `n`. -/
def Hw.putDq (h : Hw) (n : Nat) (x : DqOut) : Hw :=
  h.updFio fun f => { f with dq := Store.put (fun _ => {}) f.dq n x }

/-- Put CLO `n`. -/
def Hw.putClo (h : Hw) (n : Nat) (x : CloOut) : Hw :=
  h.updFio fun f => { f with clo := Store.put (fun _ => {}) f.clo n x }

/-- The device is in a state that evaluates functions and lets outputs switch on: STARTUP, RUN and TRIAL (R221, R222,
R488). -/
def Hw.devLive (h : Hw) : Bool := h.dev == devStartup || h.dev == devRun || h.dev == devTrial

/-- SO pairs and DQs may switch on: the device lets them, and no integrity hold stands (R439). -/
def Hw.outputsLive (h : Hw) : Bool := h.devLive && !h.on F.OTP_STAT_HOLD 0

/-- The group's supply is valid (R274). -/
def Hw.supplyValid (h : Hw) (g : Nat) : Bool := (h.die g).state == .valid

/-! ### Fault codes -/

/-- SO_STAT.FCODE codes. -/
def soRbP : Nat := 1
@[inherit_doc soRbP] def soRbM : Nat := 2
@[inherit_doc soRbP] def soOffpP : Nat := 3
@[inherit_doc soRbP] def soOffpM : Nat := 4
@[inherit_doc soRbP] def soOvld : Nat := 5
@[inherit_doc soRbP] def soHot : Nat := 6
@[inherit_doc soRbP] def soUv : Nat := 7
@[inherit_doc soRbP] def soGrpOvc : Nat := 8
@[inherit_doc soRbP] def soDemag : Nat := 9

/-- DQ_STAT.FCODE codes. -/
def dqRb : Nat := 1
@[inherit_doc dqRb] def dqOvld : Nat := 2
@[inherit_doc dqRb] def dqHot : Nat := 3
@[inherit_doc dqRb] def dqUv : Nat := 4
@[inherit_doc dqRb] def dqGrpOvc : Nat := 5

/-- CLO_STAT.FCODE codes. -/
def cloOpen : Nat := 1
@[inherit_doc cloOpen] def cloCompliance : Nat := 2
@[inherit_doc cloOpen] def cloRb : Nat := 3

/-! ### What the registers show -/

/-- The condition of the latched fault of an SO pair (R265). -/
def Hw.soCond (h : Hw) (n : Nat) : Bool :=
  let p := h.so n
  if p.state != .latched then false
  else if p.fcode = soRbP then p.pRb
  else if p.fcode = soHot then p.hotP || p.hotM
  else if p.fcode = soUv then !h.supplyValid (n / 8)
  else if p.fcode = soGrpOvc then (h.die (n / 8)).held
  else false

/-- The open-load indication of an SO pair: it sets with both switches off, and stands until the pair leaves OFF or M_RB is 0
(R257). -/
def Hw.soOpen (h : Hw) (n : Nat) : Bool :=
  let p := h.so n
  p.state == .off && p.mRb && h.on F.SO_CFG_OLEN n && ((!p.pOn && !p.mOn) || h.on F.SO_STAT_OPEN n)

/-- SO_STAT.STATE codes. -/
def SoState.code : SoState → Nat
  | .off => 0
  | .on => 1
  | .shutting => 2
  | .latched => 3

/-- SO_STAT as the field die reports it. -/
def Hw.showSo (h : Hw) (n : Nat) : Hw :=
  let p := h.so n
  ((((((((h.set F.SO_STAT_STATE n p.state.code).setB F.SO_STAT_P_CMD n p.pCmd).setB F.SO_STAT_M_CMD n p.mCmd).setB
    F.SO_STAT_P_RB n p.pRb).setB F.SO_STAT_M_RB n p.mRb).setB F.SO_STAT_SUPP n (h.die (n / 8)).supp).setB
    F.SO_STAT_COND n (h.soCond n)).setB F.SO_STAT_OPEN n (h.soOpen n)).set F.SO_STAT_FCODE n p.fcode

/-- The condition of the latched fault of a DQ is present (R267, R270, R274, R277, R507). -/
def Hw.dqCond (h : Hw) (n : Nat) : Bool :=
  let q := h.dq n
  if q.state != .latched then false
  else if q.fcode = dqHot then q.hot
  else if q.fcode = dqUv then !h.supplyValid (n / 8) || (h.die (n / 8)).errA
  else if q.fcode = dqGrpOvc then (h.die (n / 8)).held
  else false

/-- DQ_STAT.STATE codes in MODE OUTPUT. -/
def DqState.code : DqState → Nat
  | .off => 0
  | .on => 1
  | .shutting => 2
  | .latched => 3

/-- MODE INPUT of a DQ (R268). -/
def Hw.dqInput (h : Hw) (n : Nat) : Bool := h.on F.DQ_CFG_MODE n

/-- DQ_STAT as the field die reports it. -/
def Hw.showDq (h : Hw) (n : Nat) : Hw :=
  let q := h.dq n
  (((((h.set F.DQ_STAT_STATE n (if h.dqInput n then 4 else q.state.code)).setB F.DQ_STAT_RB n q.rb).setB F.DQ_STAT_SUPP n
    (h.die (n / 8)).supp).setB F.DQ_STAT_COND n (h.dqCond n)).setB F.DQ_STAT_PEND n q.pend).set F.DQ_STAT_FCODE n q.fcode

/-- CLO_STAT.STATE codes. -/
def CloState.code : CloState → Nat
  | .off => 0
  | .on => 1
  | .shutting => 2
  | .alarm => 3
  | .uvOff => 4

/-- The distance of two currents in µA. -/
def absDiff (a b : Nat) : Nat := (a - b) + (b - a)

/-- The condition of a CLO fault is present (R288, R290). -/
def CloOut.condOf (x : CloOut) (code : Nat) : Bool :=
  if code = cloOpen then decide (x.meas < 500)
  else if code = cloCompliance then decide (x.headroom < 1000 ∧ 500 ≤ x.meas)
  else if code = cloRb then decide (200 < absDiff x.meas x.drive ∧ 500 ≤ x.meas ∧ 1000 ≤ x.headroom)
  else false

/-- In ALARM, the OPEN condition is gone at 0.5 mA or more and the COMPLIANCE condition at 1.0 V or more (R290). -/
def CloOut.alarmCond (x : CloOut) : Bool :=
  if x.fcode = cloCompliance then decide (x.headroom < 1000) else x.condOf x.fcode

/-- CLO_STAT and CLO_MEAS as the field die reports them. -/
def Hw.showClo (h : Hw) (n : Nat) : Hw :=
  let x := h.clo n
  let low := (x.state == .on || x.state == .shutting || x.state == .alarm) && decide (x.headroom < 1000)
  (((((((h.set F.CLO_STAT_STATE n x.state.code).setB F.CLO_STAT_PEND n x.pend).setB F.CLO_STAT_COMPLIANCE_LOW n low).setB
    F.CLO_STAT_FORCED_LOW n x.forcedLow).setB F.CLO_STAT_COND n (x.state == .alarm && x.alarmCond)).set F.CLO_STAT_FCODE n
    x.fcode).set F.CLO_MEAS_UA n x.meas).set F.CLO_MEAS_HEADROOM n x.headroom

/-- SUP_STAT.STATE codes. -/
def SupState.code : SupState → Nat
  | .valid => 0
  | .warn => 1
  | .low => 2
  | .cut => 3
  | .recovering => 4

/-- VFn_OUT is switched on: the supply is not cut or held, no overload, and the boot sequence has reached t8 (R274,
R277, R278, R508). -/
def Hw.vfOn (h : Hw) (g : Nat) : Bool :=
  let x := h.die g
  !x.cut && !x.held && !x.vfOvld && (h.dev != devBoot || h.on F.TPG_CTL_CFGLK 0)

/-- SUP_STAT as the field die reports it. -/
def Hw.showSup (h : Hw) (g : Nat) : Hw :=
  let x := h.die g
  (((h.set F.SUP_STAT_STATE g x.state.code).setB F.SUP_STAT_SUPP g x.supp).setB F.SUP_STAT_OVC g x.ovc).setB
    F.SUP_STAT_VFOUT_ON g (h.vfOn g)

/-- The status registers of a field die, whatever the state of FLA. -/
def Hw.showDieNow (h : Hw) (d : Nat) : Hw :=
  let h := h.forUpTo 8 fun k h => (h.showSo (8 * d + k)).showDq (8 * d + k)
  let h := h.forUpTo 2 fun k h => h.showClo (2 * d + k)
  let h := h.forUpTo 24 fun k h => h.setB F.DI_STAT_FORCED (24 * d + k) (h.forced .a d)
  (h.showSup d).showTp d

/-- The status registers follow the field die while channel A's end of FLA is not in error. -/
def Hw.showDie (h : Hw) (d : Nat) : Hw := if (h.link .a d).err then h else h.showDieNow d

/-! ### Faults and commands of one sample (R262, R264, R273)

A field die samples every 10 µs and sends a frame with each sample. Two occurrences fall in one sample when TIMEBASE places
them in the same 10 µs and no frame of the die on FLA has come between them. -/

/-- Two times in the same 10 µs of TIMEBASE. -/
def sameSample (t : Ticks) : Option Ticks → Bool
  | none => false
  | some u => decide (t / 1000 = u / 1000)

/-- A fault of SO pair `n` was found in the running sample. -/
def Hw.soFresh (h : Hw) (n : Nat) : Bool := sameSample h.time (h.so n).fresh

/-- A fault of DQ `n` was found in the running sample. -/
def Hw.dqFresh (h : Hw) (n : Nat) : Bool := sameSample h.time (h.dq n).fresh

/-- A fault of CLO `n` was found in the running sample. -/
def Hw.cloFresh (h : Hw) (n : Nat) : Bool := sameSample h.time (h.clo n).fresh

/-- The pair as its running sample began with it. -/
def SoPair.atStart (p : SoPair) (t : Ticks) : SoPair :=
  match p.before with
  | none => p
  | some b =>
    if sameSample t (some b.time) then
      { p with state := b.state, pOn := b.pOn, mOn := b.mOn, fcode := b.fcode, offP := b.offP, offM := b.offM, clrA := b.clrA, clrB := b.clrB }
    else p

/-- A command, a clear or a fault makes `q` of the pair `p`: how the sample began with it is kept. -/
def SoPair.becomes (p q : SoPair) (t : Ticks) : SoPair :=
  if q = p then p
  else
    let s := p.atStart t
    { q with before := some { time := t, state := s.state, pOn := s.pOn, mOn := s.mOn, fcode := s.fcode, offP := s.offP, offM := s.offM,
                              clrA := s.clrA, clrB := s.clrB } }

/-- SO pair `n` as the running sample began with it: faults are judged by it, so that a command or a fault of the same sample
hides none (R262, R273). -/
def Hw.soStart (h : Hw) (n : Nat) : SoPair := (h.so n).atStart h.time

/-- A DQ as its running sample began with it. -/
def DqOut.atStart (q : DqOut) (t : Ticks) : DqOut :=
  match q.before with
  | none => q
  | some b => if sameSample t (some b.time) then { q with state := b.state, fcode := b.fcode } else q

/-- A command makes `r` of the DQ `q`: how the sample began with it is kept. -/
def DqOut.becomes (q r : DqOut) (t : Ticks) : DqOut :=
  if r = q then q else { r with before := some { time := t, state := (q.atStart t).state, fcode := (q.atStart t).fcode } }

/-- DQ `n` as the running sample began with it. -/
def Hw.dqStart (h : Hw) (n : Nat) : DqOut := (h.dq n).atStart h.time

/-! ### Safety outputs (R254 to R265) -/

/-- A field die reports that fault `code` of SO pair `n` latches (R262). -/
def Hw.soReport (h : Hw) (n code : Nat) : Hw :=
  (h.note (n / 8) (.flag F.SO_FLT_FLT n (code - 1))).note (n / 8) (.count F.SO_FCNT_COUNT n)

/-- An SO pair latches with fault `code` (R261). A further fault of the sample in which it latched latches too, and FCODE
takes the lowest code (R262). A fault of a pair that was latched before the sample takes the effect from the clears of the sample, those
that have come and those to come (R264, R273). -/
def Hw.soLatch (h : Hw) (n code : Nat) : Hw :=
  let p := h.so n
  let s := h.soStart n
  let now := some h.time
  if p.state == .latched then
    if p.one && h.soFresh n && decide (code ≠ p.fcode) then
      (h.putSo n { p with fcode := min code p.fcode, fresh := now }).soReport n code
    else h.putSo n { p with clrA := s.clrA, clrB := s.clrB, fresh := now, one := p.one && h.soFresh n }
  else if s.state == .latched then
    h.putSo n { p with state := .latched, pOn := false, mOn := false, offP := false, offM := false, fcode := s.fcode, clrA := s.clrA,
                       clrB := s.clrB, fresh := now, one := false }
  else
    let h := h.putSo n (p.becomes { p with state := .latched, pOn := false, mOn := false, offP := false, offM := false,
                                           fcode := code, clrA := none, clrB := none, fresh := now, one := true } h.time)
    (h.soReport n code).note (n / 8) (.event (52 + n / 8) n)

/-- The drive latch of a channel for an SO target sets, and the channel commands its switch off (R263). -/
def Hw.soDriveLatch (h : Hw) (c : Chan) (n : Nat) : Hw :=
  h.updFio fun f =>
    match c with
    | .a => { f with latchA := nsetBit f.latchA n true, cmdP := nsetBit f.cmdP n false }
    | .b => { f with latchB := nsetBit f.latchB n true, cmdM := nsetBit f.cmdM n false }

/-- The switch of a channel at its pair is commanded on or off, or held off (R261). -/
def Hw.soSwitch (h : Hw) (c : Chan) (n : Nat) (on : Bool) : Hw :=
  let p := h.so n
  let own := match c with
    | .a => p.pOn
    | .b => p.mOn
  let q := match c with
    | .a => { p with pOn := on }
    | .b => { p with mOn := on }
  match p.state with
  | .off => h.putSo n (p.becomes (if q.pOn && q.mOn then { q with state := .on } else q) h.time)
  | .on => if on then h else h.putSo n (p.becomes { q with state := .shutting, offP := false, offM := false } h.time)
  | .shutting => if on && !own then h.soDriveLatch c n else h.putSo n (p.becomes q h.time)
  | .latched => h

/-- A command for an SO switch arrives in a frame. -/
def Hw.soCommand (h : Hw) (c : Chan) (n : Nat) (on : Bool) : Hw :=
  let h := match c with
    | .a => h.putSo n { h.so n with pCmd := on }
    | .b => h.putSo n { h.so n with mCmd := on }
  h.soSwitch c n on

/-- 10 ms in TIMEBASE ticks. -/
def ticks10ms : Nat := 1000000

/-- Two times at most 10 ms apart. -/
def within10ms (t : Nat) : Option Nat → Bool
  | none => false
  | some u => decide (t ≤ u + ticks10ms)

/-- A clear of a channel arrives at the field die; it counts only while COND is 0, and the pair leaves LATCHED when the
clears of both channels came within 10 ms of each other; a clear in the sample of a fault has no effect (R264, R273). -/
def Hw.soClear (h : Hw) (c : Chan) (n : Nat) : Hw :=
  let p := h.so n
  if p.state != .latched || h.soCond n || h.soFresh n then h
  else
    let other := match c with
      | .a => p.clrB
      | .b => p.clrA
    if within10ms h.time other then
      h.putSo n (p.becomes { p with state := .off, fcode := 0, clrA := none, clrB := none } h.time)
    else match c with
      | .a => h.putSo n (p.becomes { p with clrA := some h.time } h.time)
      | .b => h.putSo n (p.becomes { p with clrB := some h.time } h.time)

/-- SO_CMD.FLT_CLR is written 1: channel A's clear goes to the field die (R264). -/
def Hw.soFltClr (h : Hw) (n : Nat) : Hw := if (h.die (n / 8)).errA then h else (h.soClear .a n).showDie (n / 8)

/-- The readback that R255 expects for P_RB and M_RB. -/
def SoPair.expected (p : SoPair) : Bool × Bool := (p.pOn, p.pOn && !p.mOn)

/-- A pair may be judged by its readback: ON or OFF, and no off-pulse running (R256). -/
def SoPair.judged (p : SoPair) : Bool := (p.state == .off || p.state == .on) && !p.offP && !p.offM

/-- The pair may be judged by its readback now: no readback suppression runs (R256). -/
def Hw.soJudged (h : Hw) (n : Nat) : Bool := (h.so n).judged && !(h.die (n / 8)).supp

/-- SO_READBACK_FAULT: P_RB (`high`) or M_RB has differed from R255 for 1 ms, as the pair stood at the start of the sample. -/
def Hw.soReadback (h : Hw) (n : Nat) (high : Bool) : Hw :=
  let p := h.so n
  let s := h.soStart n
  if !s.judged || (h.die (n / 8)).supp then h
  else if high then ((h.putSo n { p with pRb := !s.expected.1 }).soLatch n soRbP).showDie (n / 8)
  else if !s.pOn && !s.mOn then h
  else ((h.putSo n { p with mRb := !s.expected.2 }).soLatch n soRbM).showDie (n / 8)

/-- Whether a channel compares the readback of its own switch of pair `n` (R258). -/
def Hw.channelCompares (h : Hw) (c : Chan) (n : Nat) : Bool :=
  h.soJudged n && !(c == .b && !(h.so n).pOn && !(h.so n).mOn)

/-- The readback of its own switch that a channel expects of its own command by R255: P_RB is 1 with P on, and M_RB is 0
with M on. -/
def Hw.channelExpects (h : Hw) (c : Chan) (n : Nat) : Bool :=
  match c with
  | .a => nbit h.fio.cmdP n
  | .b => !nbit h.fio.cmdM n

/-- The readback of a channel's own switch. -/
def Hw.channelReadback (h : Hw) (c : Chan) (n : Nat) : Bool :=
  match c with
  | .a => (h.so n).pRb
  | .b => (h.so n).mRb

/-- CHANNEL_READBACK_MISMATCH: the readback of a channel's own switch has differed from its command for 2 ms without a
latched fault, which is a field link error of that channel; the disagreement is kept until a frame shows it gone (R258). -/
def Hw.channelMismatch (h : Hw) (c : Chan) (n : Nat) : Hw :=
  if h.channelCompares c n then
    let p := h.so n
    let h := h.putSo n (match c with
      | .a => { p with pRb := !h.channelExpects c n }
      | .b => { p with mRb := !h.channelExpects c n })
    let h := h.when (!(h.link c (n / 8)).err) (·.linkFault c (n / 8))
    h.updLink c (n / 8) fun l => { l with dis := nsetBit l.dis (n % 8) true }
  else h

/-- A frame shows which disagreements of a channel with its own switches remain; one that is no longer compared is gone
(R258). -/
def Hw.channelAgrees (h : Hw) (c : Chan) (d : Nat) : Hw :=
  let apart (k : Nat) : Bool := h.channelReadback c (8 * d + k) != h.channelExpects c (8 * d + k)
  h.updLink c d fun l => { l with dis := nmask 8 (fun k => nbit l.dis k && h.channelCompares c (8 * d + k) && apart k) }

/-- SO_OFF_PULSE: an ON pair with off-pulses enabled switches one switch off (R259). -/
def Hw.offPulse (h : Hw) (n : Nat) (high : Bool) : Hw :=
  let p := h.so n
  if p.state == .on && h.on F.SO_CFG_OPULSE n then
    h.putSo n (if high then { p with offP := true } else { p with offM := true })
  else h

/-- The off-pulse of a switch ends with a readback sample. -/
def SoPair.pulseEnds (p : SoPair) (high rb : Bool) : SoPair :=
  if high then { p with offP := false, pRb := rb, before := p.before.map fun b => { b with offP := false } }
  else { p with offM := false, mRb := rb, before := p.before.map fun b => { b with offM := false } }

/-- SO_OFF_PULSE_END: the last readback sample of an off-pulse that ran as the sample began is `rb` (R260, R273). -/
def Hw.offPulseEnd (h : Hw) (n : Nat) (high rb : Bool) : Hw :=
  let s := h.soStart n
  let running := if high then s.offP else s.offM
  if !running then h
  else
    let h := h.putSo n ((h.so n).pulseEnds high rb)
    let good := if high then !rb else rb
    if (h.die (n / 8)).supp then h
    else if good then h.wrap F.SO_OPCNT_COUNT n
    else (h.soLatch n (if high then soOffpP else soOffpM)).showDie (n / 8)

/-- Demagnetisation of an SO pair is complete (R261). -/
def Hw.soDemagDone (h : Hw) (n : Nat) : Hw :=
  let p := h.so n
  if p.state == .shutting then (h.putSo n { p with state := .off }).showDie (n / 8) else h

/-- DEMAG_TIMEOUT: 200 ms in SHUTTING_DOWN (R261). -/
def Hw.demagTimeout (h : Hw) (n : Nat) : Hw :=
  if (h.so n).state == .shutting then (h.soLatch n soDemag).showDie (n / 8) else h

/-! ### Standard outputs (R266 to R271) -/

/-- A DQ in MODE OUTPUT latches with fault `code`, the first of its sample (DESIGN CHOICE, log entry 98); a fault of a DQ that was
latched before the sample takes the effect from the commands and clears of the sample (R267, R273). -/
def Hw.dqLatch (h : Hw) (n code : Nat) : Hw :=
  let q := h.dq n
  let s := h.dqStart n
  if h.dqInput n then h
  else if q.state == .latched then h.putDq n { q with fresh := some h.time }
  else if s.state == .latched then h.putDq n { q with state := .latched, pend := false, fcode := s.fcode, fresh := some h.time }
  else
    let h := h.putDq n { q with state := .latched, pend := false, fcode := code, fresh := some h.time }
    ((h.note (n / 8) (.flag F.DQ_FLT_FLT n (code - 1))).note (n / 8) (.count F.DQ_FCNT_COUNT n)).note (n / 8)
      (.event (54 + n / 8) n)

/-- The switch of DQ `n` goes ON and leaves any latched fault; in MODE INPUT it is held off (R268). -/
def Hw.dqOn (h : Hw) (n : Nat) : Hw :=
  if h.dqInput n then h else h.putDq n { h.dq n with state := .on, pend := false, fcode := 0 }

/-- A command changed a DQ that stood as `q` before it: how the sample began with it is kept (R273). -/
def Hw.dqMet (h : Hw) (n : Nat) (q : DqOut) : Hw := h.putDq n (q.becomes (h.dq n) h.time)

/-- A latched DQ that is hot no more restarts where TH_RESTART and EN say so (R267). -/
def Hw.dqThRestart (h : Hw) (n : Nat) : Hw :=
  let q := h.dq n
  h.when (q.state == .latched && decide (q.fcode = dqHot) && !q.hot && h.on F.DQ_CFG_TH_RESTART n && h.on F.DQ_CTL_EN n &&
    h.outputsLive && !(h.die (n / 8)).errA && !h.dqFresh n) (·.dqOn n)

/-- DQ_CFG has been written: in MODE INPUT the switch is held off, whatever its state was (R268). -/
def Hw.dqModeWritten (h : Hw) (n : Nat) : Hw :=
  (h.when (h.dqInput n) (·.putDq n { h.dq n with state := .off, pend := false, fcode := 0 })).showDie (n / 8)

/-- DQ_ENABLE: DQ_CTL.EN is written 1 (R267, R268). -/
def Hw.dqEnable (h : Hw) (n : Nat) : Hw :=
  let h := h.setB F.DQ_CTL_EN n true
  let q := h.dq n
  if h.dqInput n || !h.outputsLive || (h.die (n / 8)).errA then h
  else
    let h := match q.state with
      | .on => h
      | .shutting => h.putDq n { q with pend := true }
      | .off => if q.hot then h.setB F.DQ_FLT_HOT_REF n true else h.dqOn n
      | .latched =>
        if q.hot then h.setB F.DQ_FLT_HOT_REF n true else if h.dqCond n || h.dqFresh n then h else h.dqOn n
    (h.dqMet n q).showDie (n / 8)

/-- DQ_DISABLE: DQ_CTL.EN is written 0 (R267); a die that finds FLA in field link error does not receive it (R507). -/
def Hw.dqDisable (h : Hw) (n : Nat) : Hw :=
  let h := h.setB F.DQ_CTL_EN n false
  let q := h.dq n
  if h.dqInput n || (h.die (n / 8)).errA then h
  else
    let h := match q.state with
      | .off => h
      | .on => h.putDq n { q with state := .shutting, pend := false }
      | .shutting => h.putDq n { q with pend := false }
      | .latched => if h.dqCond n || h.dqFresh n then h else h.putDq n { q with state := .off, fcode := 0 }
    (h.dqMet n q).showDie (n / 8)

/-- DQ_FLT_CLR: DQ_CTL.FLT_CLR is written 1 (R267, R507). -/
def Hw.dqFltClr (h : Hw) (n : Nat) : Hw :=
  let q := h.dq n
  if q.state == .latched && !h.dqCond n && !h.dqFresh n && !(h.die (n / 8)).errA then ((h.putDq n { q with state := .off, fcode := 0 }).dqMet n q).showDie (n / 8) else h

/-- Demagnetisation of a DQ is complete (R267). -/
def Hw.dqDemag (h : Hw) (n : Nat) : Hw :=
  let q := h.dq n
  if q.state == .shutting then
    (if q.pend && h.outputsLive then h.dqOn n else h.putDq n { q with state := .off, pend := false }).showDie (n / 8)
  else h

/-- DQ_READBACK_FAULT: the readback has differed for 2 ms, as the DQ stood at the start of the sample (R266, R273). -/
def Hw.dqReadback (h : Hw) (n : Nat) : Hw :=
  let s := h.dqStart n
  if (s.state == .off || s.state == .on) && !(h.die (n / 8)).supp then
    ((h.putDq n { h.dq n with rb := s.state == .off }).dqLatch n dqRb).showDie (n / 8)
  else h

/-- OUTPUT_OVERLOAD: a switch that is on, as the sample began, has stood at its current limit for 5 ms (R269, R273). -/
def Hw.overload (h : Hw) : OutSw → Hw
  | .soP n => if (h.soStart n).pOn then (h.soLatch n soOvld).showDie (n / 8) else h
  | .soM n => if (h.soStart n).mOn then (h.soLatch n soOvld).showDie (n / 8) else h
  | .dq n => if (h.dqStart n).state == .on then (h.dqLatch n dqOvld).showDie (n / 8) else h

/-- OUTPUT_OVERTEMP: a switch reaches its temperature threshold (R270). -/
def Hw.overtemp (h : Hw) : OutSw → Hw
  | .soP n => ((h.putSo n { h.so n with hotP := true }).soLatch n soHot).showDie (n / 8)
  | .soM n => ((h.putSo n { h.so n with hotM := true }).soLatch n soHot).showDie (n / 8)
  | .dq n => ((h.putDq n { h.dq n with hot := true }).dqLatch n dqHot).showDie (n / 8)

/-- OUTPUT_COOLED: a switch falls below its restart threshold (R265, R267, R270, R507). -/
def Hw.cooled (h : Hw) : OutSw → Hw
  | .soP n => (h.putSo n { h.so n with hotP := false }).showDie (n / 8)
  | .soM n => (h.putSo n { h.so n with hotM := false }).showDie (n / 8)
  | .dq n => ((h.putDq n { h.dq n with hot := false }).dqThRestart n).showDie (n / 8)

/-- DEMAGNETISATION_COMPLETE: of an SO pair or of a DQ. -/
def Hw.demagComplete (h : Hw) : OutSw → Hw
  | .soP n => h.soDemagDone n
  | .soM n => h.soDemagDone n
  | .dq n => h.dqDemag n

/-! ### Current-loop outputs (R286 to R290) -/

/-- A CLO goes to UVOFF: 0 mA (R290). `cut` says that SUP_CUT did it. -/
def Hw.cloUvOff (h : Hw) (n : Nat) (cut : Bool) : Hw :=
  let x := h.clo n
  let h := h.putClo n { x with state := .uvOff, drive := 0, rampLeft := 0, pend := false, fcode := 0, forcedLow := false }
  h.when cut (·.note (n / 2) (.flag F.CLO_FLT_UV n 0))

/-- A CLO goes ON and drives CLO_SET. -/
def Hw.cloOn (h : Hw) (n : Nat) : Hw :=
  h.putClo n { h.clo n with state := .on, drive := h.get F.CLO_SET_UA n, rampLeft := 0, pend := false, fcode := 0,
                            forcedLow := false }

/-- A CLO goes OFF: output open, 0 mA. -/
def Hw.cloOff (h : Hw) (n : Nat) : Hw :=
  h.putClo n { h.clo n with state := .off, drive := 0, rampLeft := 0, pend := false, fcode := 0, forcedLow := false }

/-- CLO_ENABLE: CLO_CTL.EN is written 1 (R290). -/
def Hw.cloEnable (h : Hw) (n : Nat) : Hw :=
  let h := h.setB F.CLO_CTL_EN n true
  let die := h.die (n / 2)
  if !h.devLive || die.errA then h
  else
    let h := match (h.clo n).state with
      | .off => h.cloOn n
      | .on => h
      | .shutting => h.putClo n { h.clo n with pend := true }
      | .alarm => h
      | .uvOff => if h.supplyValid (n / 2) && !die.held then h.cloOn n else h
    h.showDie (n / 2)

/-- CLO_DISABLE: CLO_CTL.EN is written 0 (R290). -/
def Hw.cloDisable (h : Hw) (n : Nat) : Hw :=
  let h := h.setB F.CLO_CTL_EN n false
  let x := h.clo n
  let h := match x.state with
    | .off => h
    | .on => h.putClo n { x with state := .shutting, rampFrom := x.drive, rampLeft := h.get F.CLO_CFG_RAMP n, pend := false }
    | .shutting => h.putClo n { x with pend := false }
    | .alarm => if h.cloFresh n then h else h.cloOff n
    | .uvOff => h
  h.showDie (n / 2)

/-- CLO_FLT_CLR: CLO_CTL.FLT_CLR is written 1 (R290). -/
def Hw.cloFltClr (h : Hw) (n : Nat) : Hw :=
  let x := h.clo n
  if x.state == .alarm && !x.alarmCond && !h.cloFresh n then
    (if h.on F.CLO_CTL_EN n && h.devLive then h.cloOn n else h.cloOff n).showDie (n / 2)
  else h

/-- CLO_RAMP_COMPLETE: the ramp-down ends (R290). -/
def Hw.cloRampComplete (h : Hw) (n : Nat) : Hw :=
  let x := h.clo n
  if x.state == .shutting then
    (if x.pend && h.devLive then h.cloOn n else h.cloOff n).showDie (n / 2)
  else h

/-- CLO_UPDATE: the 1 ms update of a CLO with its measured current in µA and its headroom in mV (R288, R290). -/
def Hw.cloUpdate (h : Hw) (n meas headroom : Nat) : Hw :=
  let x := h.clo n
  let left := x.rampLeft - 1
  let ramp := h.get F.CLO_CFG_RAMP n
  let x := match x.state with
    | .on => { x with drive := h.get F.CLO_SET_UA n }
    | .shutting => { x with rampLeft := left, drive := if ramp = 0 then 0 else x.rampFrom * left / ramp }
    | .off => x
    | .alarm => x
    | .uvOff => x
  (h.putClo n { x with meas := meas, headroom := headroom }).showDie (n / 2)

/-- The alarm currents in µA (R289). -/
def cloLowAlarm : Nat := 3500
@[inherit_doc cloLowAlarm] def cloHighAlarm : Nat := 22500

/-- A CLO enters ALARM with fault `code` (R289). -/
def Hw.cloAlarm (h : Hw) (n code : Nat) : Hw :=
  let hi := h.on F.CLO_CFG_ALM_HI n
  let low := hi && decide (code = cloCompliance)
  let h := h.putClo n { h.clo n with state := .alarm, pend := false, fcode := code, rampLeft := 0, forcedLow := low,
                                     fresh := some h.time,
                                     drive := if hi && !low then cloHighAlarm else cloLowAlarm }
  (h.note (n / 2) (.flag F.CLO_FLT_OPEN n 0 |> fun x => if code = cloOpen then x
    else if code = cloCompliance then .flag F.CLO_FLT_COMPLIANCE n 0 else .flag F.CLO_FLT_RB n 0)).note (n / 2) (.event 61 n)

/-- The CLO evaluates the faults of R288: ON or SHUTTING_DOWN. -/
def CloOut.judged (x : CloOut) : Bool := x.state == .on || x.state == .shutting

/-- CLO_OPEN_FAULT: below 0.5 mA for 20 ms with at least 4 mA commanded (R288). -/
def Hw.cloOpenFault (h : Hw) (n : Nat) : Hw :=
  let x := h.clo n
  if x.judged && x.condOf cloOpen && decide (4000 ≤ x.drive) then (h.cloAlarm n cloOpen).showDie (n / 2) else h

/-- CLO_COMPLIANCE_FAULT: headroom below 1.0 V for 50 ms (R288, R289). -/
def Hw.cloComplianceFault (h : Hw) (n : Nat) : Hw :=
  let x := h.clo n
  if x.judged && x.condOf cloCompliance then (h.cloAlarm n cloCompliance).showDie (n / 2)
  else if x.state == .alarm && decide (x.drive = cloHighAlarm ∧ x.headroom < 1000) then
    (h.putClo n { x with drive := cloLowAlarm, forcedLow := true }).showDie (n / 2)
  else h

/-- CLO_READBACK_FAULT: off by more than 0.2 mA for 50 ms (R288). -/
def Hw.cloReadbackFault (h : Hw) (n : Nat) : Hw :=
  let x := h.clo n
  if x.judged && x.condOf cloRb then (h.cloAlarm n cloRb).showDie (n / 2) else h

/-! ### Field supply groups (R273 to R278, R508) -/

/-- Every output of a group switches off: its SO pairs and DQs latch and its CLOs go to UVOFF. -/
def Hw.groupOutputsOff (h : Hw) (g soCode dqCode : Nat) (cut : Bool) : Hw :=
  let h := h.forUpTo 8 fun k h => (h.soLatch (8 * g + k) soCode).dqLatch (8 * g + k) dqCode
  h.forUpTo 2 fun k h => h.cloUvOff (2 * g + k) cut

/-- SUPPLY_WARN: VFn_IN falls below the warning threshold (R274); in the start sequence of R508 the group goes back to
CUT without a report. -/
def Hw.supplyWarn (h : Hw) (g : Nat) : Hw :=
  let x := h.die g
  match x.state with
  | .valid =>
    (((h.updDie g fun x => { x with state := .warn }).note g (.flag F.SUP_ERR_WARN g 0)).note g (.event (56 + g) g)).showDie g
  | .recovering =>
    if x.start then (h.updDie g fun x => { x with state := .cut }).showDie g
    else (((h.updDie g fun x => { x with state := .warn }).note g (.flag F.SUP_ERR_WARN g 0)).note g
      (.event (56 + g) g)).showDie g
  | .warn => h
  | .low => h
  | .cut => h

/-- SUPPLY_BELOW_CUTOFF: VFn_IN falls below cut-off, and readback suppression starts (R274, R276). -/
def Hw.supplyLow (h : Hw) (g : Nat) : Hw :=
  if (h.die g).state == .warn then (h.updDie g fun x => { x with state := .low, supp := true }).showDie g else h

/-- SUP_CUT: still below after 1 ms (R248, R249, R274). -/
def Hw.supCut (h : Hw) (g : Nat) : Hw :=
  if (h.die g).state == .low then
    let h := h.updDie g fun x => { x with state := .cut, cut := true }
    let h := (h.groupOutputsOff g soUv dqUv true).suppressTp g
    (((h.note g (.flag F.SUP_ERR_CUT g 0)).note g (.count F.SUP_CUTCNT_COUNT g)).note g (.event (58 + g) g)).showDie g
  else h

/-- SUPPLY_ABOVE_CUTOFF: back above cut-off before the cut (R275). -/
def Hw.supplyAbove (h : Hw) (g : Nat) : Hw :=
  if (h.die g).state == .low then (h.updDie g fun x => { x with state := .warn }).showDie g else h

/-- The field dies measure VFn_IN from t3 of R464 on (R508). -/
def Hw.senses (h : Hw) : Bool := h.boot.phase != .por && h.boot.phase != .locked

/-- SUPPLY_RECOVERING: VFn_IN is back at or above the warning threshold (R274, R508). -/
def Hw.supplyRecovering (h : Hw) (g : Nat) : Hw :=
  let s := (h.die g).state
  if h.senses && (s == .cut || s == .warn) then (h.updDie g fun x => { x with state := .recovering }).showDie g else h

/-- SUPPLY_VALID: 10 ms at or above the warning threshold (R274). -/
def Hw.supplyValidNow (h : Hw) (g : Nat) : Hw :=
  if h.senses && (h.die g).state == .recovering then
    (h.updDie g fun x => { x with state := .valid, cut := false, start := false, ovc := x.ovc && x.held }).showDie g
  else h

/-- READBACK_SUPPRESSION_END: 20 ms after validity, restore or return above cut-off. A supply that is below cut-off again suppresses
readback afresh, but not the test pulses (R249, R274 to R277). -/
def Hw.suppressionEnd (h : Hw) (g : Nat) : Hw :=
  let x := h.die g
  if x.cut || x.held then h
  else (h.updDie g fun x => { x with supp := x.state == .low, tpSupp := false }).showDie g

/-- UV_RESTORE: 100 ms after validity, restore or the end of a link error, the DQs and CLOs with UV_RESTORE and EN switch
on (R267, R274, R277, R290, R507). -/
def Hw.uvRestore (h : Hw) (g : Nat) : Hw :=
  let x := h.die g
  if h.supplyValid g && !x.held && !x.errA && h.devLive then
    let h := h.forUpTo 8 fun k h =>
      let n := 8 * g + k
      let q := h.dq n
      h.when (h.outputsLive && q.state == .latched && decide (q.fcode = dqUv ∨ q.fcode = dqGrpOvc) && h.on F.DQ_CFG_UV_RESTORE n &&
        h.on F.DQ_CTL_EN n) (·.dqOn n)
    let h := h.forUpTo 2 fun k h =>
      let n := 2 * g + k
      h.when ((h.clo n).state == .uvOff && h.on F.CLO_CFG_UV_RESTORE n && h.on F.CLO_CTL_EN n) (·.cloOn n)
    h.showDie g
  else h

/-- GROUP_OVERCURRENT_TRIP: above 7.0 A for 10 ms (R248, R249, R277). -/
def Hw.groupTrip (h : Hw) (g : Nat) : Hw :=
  if (h.die g).held then h
  else
    let h := h.updDie g fun x => { x with held := true, ovc := true, supp := true }
    let h := (h.groupOutputsOff g soGrpOvc dqGrpOvc false).suppressTp g
    (h.note g (.flag F.SUP_ERR_OVC g 0)).showDie g

/-- GROUP_RESTORE: 1 s after the trip, with the supply valid (R277). -/
def Hw.groupRestore (h : Hw) (g : Nat) : Hw :=
  if (h.die g).held && h.supplyValid g then (h.updDie g fun x => { x with held := false }).showDie g else h

/-- VFOUT_OVERLOAD: VFn_OUT at its limit for 5 ms (R278). -/
def Hw.vfOverload (h : Hw) (g : Nat) : Hw :=
  if h.vfOn g then ((h.updDie g fun x => { x with vfOvld := true }).note g (.flag F.SUP_ERR_VFOUT_OVLD g 0)).showDie g
  else h

/-- VFOUT_RETRY: 1 s later (R278). -/
def Hw.vfRetry (h : Hw) (g : Nat) : Hw := (h.updDie g fun x => { x with vfOvld := false }).showDie g

/-! ### Frames between a channel and a field die -/

/-- A frame of die `d` on FLA ends the 10 µs sample of the faults found so far (R273). -/
def Hw.sampleEnds (h : Hw) (d : Nat) : Hw :=
  let h := h.forUpTo 8 fun k h =>
    let n := 8 * d + k
    (h.putSo n { h.so n with fresh := none, one := false, before := none }).putDq n { h.dq n with fresh := none, before := none }
  h.forUpTo 2 fun k h => h.putClo (2 * d + k) { h.clo (2 * d + k) with fresh := none }

/-- FIELD_LINK_FRAME: a channel receives a link frame of field die `d` (R22, R228); DI and DQ inputs are sampled from t3 on (R488). -/
def Hw.fieldFrame (h : Hw) (c : Chan) (d : Nat) (fr : FieldFrame) : Hw :=
  let h := h.when (c == .a) (·.sampleEnds d)
  if !fr.ok then h.linkFault c d
  else
    let h := h.updLink c d fun l => { l with good := min (l.good + 1) 100 }
    let h := h.forUpTo 8 fun k h =>
      let n := 8 * d + k
      (h.putSo n { h.so n with pRb := nbit fr.pRb k, mRb := nbit fr.mRb k }).putDq n { h.dq n with rb := nbit fr.dqRb k }
    let h := (h.channelAgrees c d).sourceSamples c d fr.tpRb
    let h := h.when h.senses fun h => (h.forUpTo 24 fun k h => h.inputSample c d (24 * d + k) (nbit fr.di k)).forUpTo 8 fun k h =>
      h.inputSample c d (48 + 8 * d + k) (nbit fr.dqRb k)
    match c with
    | .b => h
    | .a =>
      (((((h.set F.SUP_VOLT_IN d fr.vIn).set F.SUP_VOLT_OUT d fr.vOut).set F.SUP_CUR_IN d fr.iIn).set F.SUP_CUR_OUT d
        fr.iOut).takeNotes d).showDieNow d

/-- FIELD_LINK_TIMEOUT: no valid frame for 100 µs. -/
def Hw.fieldTimeout (h : Hw) (c : Chan) (d : Nat) : Hw := (h.linkFault c d).showDie d

/-- FIELD_DIE_LINK_ERROR: a field die finds FLA or FLB in field link error and holds what that link commands (R507). -/
def Hw.dieLinkError (h : Hw) (c : Chan) (d : Nat) : Hw :=
  match c with
  | .a =>
    if (h.die d).errA then (h.updDie d fun x => { x with goodA := 0 })
    else
      let h := h.updDie d fun x => { x with errA := true, goodA := 0 }
      let h := h.forUpTo 8 fun k h => (h.soSwitch .a (8 * d + k) false).dqLatch (8 * d + k) dqUv
      (h.forUpTo 2 fun k h => h.cloUvOff (2 * d + k) true).showDie d
  | .b =>
    if (h.die d).errB then (h.updDie d fun x => { x with goodB := 0 })
    else
      let h := h.updDie d fun x => { x with errB := true, goodB := 0 }
      (h.forUpTo 8 fun k h => h.soSwitch .b (8 * d + k) false).showDie d

/-- The commands and clears of a channel's frame act on the outputs of a die (R254, R261, R264). -/
def Hw.applyCommands (h : Hw) (c : Chan) (d : Nat) : Hw :=
  let cmd := match c with
    | .a => h.fio.cmdP
    | .b => h.fio.cmdM
  let clr := match c with
    | .a => h.fio.clrA
    | .b => h.fio.clrB
  let h := h.forUpTo 8 fun k h =>
    let n := 8 * d + k
    (h.when (nbit clr n) (·.soClear c n)).soCommand c n (nbit cmd n && h.outputsLive)
  let rest := nmask 16 fun n => nbit clr n && decide (n / 8 ≠ d)
  (h.updFio fun f =>
    match c with
    | .a => { f with clrA := rest }
    | .b => { f with clrB := rest }).showDie d

/-- FIELD_DIE_COMMAND_FRAME: a field die receives a frame of a channel; 100 valid frames in a row end an error of the
link at the die (R261, R507). -/
def Hw.commandFrame (h : Hw) (c : Chan) (d : Nat) (fr : CommandFrame) : Hw :=
  if !fr.ok then h.dieLinkError c d
  else
    let x := h.die d
    let err := match c with
      | .a => x.errA
      | .b => x.errB
    let good := match c with
      | .a => x.goodA + 1
      | .b => x.goodB + 1
    if err && decide (good < 100) then
      h.updDie d fun x =>
        match c with
        | .a => { x with goodA := good }
        | .b => { x with goodB := good }
    else
      let h := h.updDie d fun x =>
        match c with
        | .a => { x with errA := false, goodA := 0 }
        | .b => { x with errB := false, goodB := 0 }
      let h := h.when (c == .a && err) (·.forUpTo 8 fun k h => h.dqThRestart (8 * d + k))
      h.applyCommands c d

/-- The device leaves the states in which outputs may be on: SO switches and DQs off, CLOs open, sources off (R221,
R488). -/
def Hw.outputsOff (h : Hw) : Hw :=
  let h := h.updFio fun f => { f with cmdP := 0, cmdM := 0 }
  let h := h.forUpTo 16 fun n h =>
    let h := (h.soSwitch .a n false).soSwitch .b n false
    let q := h.dq n
    (h.when (q.state == .on) (·.putDq n { q with state := .shutting, pend := false })).when (q.state == .shutting)
      (·.putDq n { q with pend := false })
  let h := h.forUpTo 4 fun n h => h.when ((h.clo n).state != .uvOff) (·.cloOff n)
  let h := h.forUpTo 16 fun j h => h.updSrc j fun s => { s with flag := false }
  (h.showDie 0).showDie 1

/-! ### Current-loop inputs (R279 to R285) -/

/-- An exact result as a signed 32-bit value; outside that format the spec states none. -/
def fit32 (v : Int) : Int := if -2147483648 ≤ v ∧ v ≤ 2147483647 then v else (Config.overflow32 v).toInt

/-- The whole part of the square root of a number below 2^50. -/
def isqrt (n : Nat) : Nat :=
  (List.range 25).foldl (fun r k => let t := r + 2 ^ (24 - k); if t * t ≤ n then t else r) 0

/-- The parameters of a CLI path (R281, R283). -/
def Hw.cliPar (h : Hw) (c : Chan) (n : Nat) : CliCfg :=
  match c with
  | .a =>
    { char := h.get F.CLI_CFG_CHAR n, avg := h.get F.CLI_CFG_AVG n, cut := h.get F.CLI_CFG_CUT n,
      pvlo := signed32 (h.get F.CLI_PVLO_VALUE n), pvhi := signed32 (h.get F.CLI_PVHI_VALUE n),
      ofs := signed32 (h.get F.CLI_OFS_VALUE n), gain := signed32 (h.get F.CLI_GAIN_VALUE n),
      tbl := (List.range 33).map fun k => signed32 (h.word .CLI_TBL (33 * n + k)).toNat }
  | .b => Store.get (fun _ => {}) h.b.cfg.cliS n

/-- Characteristic LINEAR (R283). -/
def cliLinear (p : CliCfg) (t : Int) : Int := fit32 (p.pvlo + ((p.pvhi - p.pvlo) * (t - 4000000)).tdiv 16000000)

/-- Characteristic SQRT (R283). -/
def cliSqrt (p : CliCfg) (t : Int) : Int :=
  let x := clampInt 0 16777216 (((t - 4000000) * 16777216).tdiv 16000000)
  if x / 256 < (p.cut : Int) then p.pvlo
  else fit32 (p.pvlo + (((p.pvhi - p.pvlo) * (isqrt (x.toNat * 16777216) : Int)) >>> 24))

/-- Characteristic TABLE (R283). -/
def cliTable (p : CliCfg) (t : Int) : Int :=
  let u := (clampInt 4000000 20000000 t - 4000000).toNat
  let k := u / 500000
  let r : Int := ((u % 500000 : Nat) : Int)
  let a := p.tbl.getD k 0
  if k = 32 then a else fit32 (a + ((p.tbl.getD (k + 1) 0 - a) * r).tdiv 500000)

/-- The process value by CHAR (R283); the spec states no value for the reserved code. -/
def cliCharacteristic (p : CliCfg) (t : Int) : Int :=
  match p.char with
  | 0 => cliLinear p t
  | 1 => cliSqrt p t
  | 2 => cliTable p t
  | _ => (Config.overflow32 t).toInt

/-- The current in nA that codes stand for: one 24-bit code of path P, or the mean of the 16-bit codes of path S (R280,
R281). -/
def cliCurrent (c : Chan) (codes : List Nat) : Int :=
  let mean := codes.sum / codes.length
  match c with
  | .a => ((mean % 2 ^ 24 * 25000000 / 2 ^ 24 : Nat) : Int)
  | .b => ((mean % 2 ^ 16 * 25000000 / 2 ^ 16 : Nat) : Int)

/-- The mean of a list, truncated toward zero. -/
def meanInt (l : List Int) : Int := l.sum.tdiv l.length

/-- A CLI path after the values of one more millisecond (R281, R284). -/
def CliPath.form (p : CliCfg) (m : Int) (x : CliPath) : CliPath :=
  let hist := (m :: x.hist).take 100
  let a := meanInt (hist.take p.avg)
  let t := fit32 (((a - p.ofs) * (16777216 + p.gain)) >>> 24)
  { hist := hist, meas := m, cur := t, pv := cliCharacteristic p t, neLo := decide (t < 3600000),
    neHi := decide (21000000 < t), valid := true }

/-- The two trimmed currents of a CLI differ by more than 0.1 mA (R285). -/
def Hw.cliApart (h : Hw) (n : Nat) : Bool :=
  let d := signed32 (h.get F.CLI_CUR_VALUE n) - signed32 (h.get F.XLK_SCUR_VALUE n)
  decide (100000 < d ∨ d < -100000)

/-- The current-loop inputs are measured from t4 of R464 on (R488). -/
def Hw.measures (h : Hw) : Bool := h.senses && h.boot.phase != .sensed

/-- CLI_VALUE_FORM: a channel forms the value of CLI `n` from the codes of the last 1 ms (R281, R284), from t4 on (R488). -/
def Hw.cliForm (h : Hw) (c : Chan) (n : Nat) (codes : List Nat) : Hw :=
  if !h.measures then h
  else
    let raw := cliCurrent c codes
    let m := if h.on F.CLI_STAT_NOTRIM n then raw else Config.factoryTrim (c == .b) n raw
    let old := h.cli c n
    let x := old.form (h.cliPar c n) m
    let h := h.updFio fun f => { f with cli := Store.put (fun _ => {}) f.cli (64 * c.num + n) x }
    match c with
    | .b => h
    | .a =>
      let h := (((h.set F.CLI_RAW_VALUE n (codes.sum / codes.length % 2 ^ 24)).set F.CLI_MEAS_VALUE n (unsigned32 x.meas)).set
        F.CLI_CUR_VALUE n (unsigned32 x.cur)).set F.CLI_PV_VALUE n (unsigned32 x.pv)
      let h := ((h.setB F.CLI_STAT_VALID n true).setB F.CLI_STAT_NE_LO n x.neLo).setB F.CLI_STAT_NE_HI n x.neHi
      let h := (h.when x.neLo (·.setB F.CLI_FLT_NE_LO n true)).when x.neHi (·.setB F.CLI_FLT_NE_HI n true)
      let h := h.when ((x.neLo && !old.neLo) || (x.neHi && !old.neHi)) (·.raiseAt 60 n)
      h.when (!h.cliApart n) (·.setB F.CLI_STAT_PDISC n false)

/-- CLI_PATH_DISCREPANCY: more than 0.1 mA apart for 100 ms (R285). -/
def Hw.cliDiscrepancy (h : Hw) (n : Nat) : Hw :=
  if h.cliApart n then ((h.setB F.CLI_STAT_PDISC n true).setB F.CLI_FLT_PDISC n true).raiseAt 60 n else h

end Sys2Proof.Machine
end

