-- ==== Sys2Proof/Machine/Pods.lean ====
section
/-! DEFINITION. Pods: lockstep, promotion, rejoin, cold restart, retirement and debug attach (R302 to R339, R509). -/

namespace Sys2Proof.Machine

/-! ### States and records -/

/-- POD_STAT.STATE codes (R329). -/
def podOff : Nat := 0
@[inherit_doc podOff] def podPrimary : Nat := 1
@[inherit_doc podOff] def podStandby : Nat := 2
@[inherit_doc podOff] def podResetting : Nat := 3
@[inherit_doc podOff] def podRejoining : Nat := 4
@[inherit_doc podOff] def podReloading : Nat := 5
@[inherit_doc podOff] def podRetired : Nat := 6
@[inherit_doc podOff] def podSplit : Nat := 7
@[inherit_doc podOff] def podIdle : Nat := 8

/-- POD_STAT.RCAUSE codes. -/
def rcBudget : Nat := 1
@[inherit_doc rcBudget] def rcCmp : Nat := 2
@[inherit_doc rcBudget] def rcReload : Nat := 3

/-- The state of Pod `p`. -/
def Hw.podState (h : Hw) (p : Nat) : Nat := h.get F.POD_STAT_STATE p

/-- The record of Pod `p`. -/
def Hw.pod (h : Hw) (p : Nat) : PodRec := Store.get (fun _ => {}) h.pods p

/-- Change the record of Pod `p`. -/
def Hw.updPod (h : Hw) (p : Nat) (f : PodRec → PodRec) : Hw :=
  { h with pods := Store.upd (fun _ => {}) h.pods p f }

/-- The other Pod of a pair. -/
def otherPod (p : Nat) : Nat := if p % 2 = 0 then p + 1 else p - 1

/-- The Pods of a pair that run its program. -/
def Hw.podRuns (h : Hw) (p : Nat) : Bool :=
  (h.podState p == podPrimary || h.podState p == podStandby) && !(h.pod p).halted

/-- The Pod is stalled at the boundary while its partner's dirty lines are copied (R320). -/
def Hw.podStalled (h : Hw) (p : Nat) : Bool :=
  h.podState (otherPod p) == podRejoining && decide ((h.pod (otherPod p)).phase = .stalled)

/-- The Pod issues accesses: it runs the pair's program, or idles, and is not stalled. -/
def Hw.podActs (h : Hw) (p : Nat) : Bool := (h.podRuns p && !h.podStalled p) || h.podState p == podIdle

/-- A pair hosts no function group (POD_PAIR.NOGRP). -/
def Hw.pairIdle (h : Hw) (q : Nat) : Bool := h.on (pairFld F.POD_PAIR_NOGRP0 F.POD_PAIR_NOGRP1 F.POD_PAIR_NOGRP2 q) 0

/-- LOCKSTEP_BROKEN of either Pod of a pair (R335). -/
def Hw.pairBroken (h : Hw) (q : Nat) : Bool :=
  h.on F.POD_STAT_LOCKSTEP_BROKEN (2 * q) || h.on F.POD_STAT_LOCKSTEP_BROKEN (2 * q + 1)

/-- Pod `p` is a healthy standby (R315, R335). -/
def Hw.healthyStandby (h : Hw) (p : Nat) : Bool := h.podState p == podStandby && !h.pairBroken (pairOf p)

/-- The Pod that is the running primary of a pair. -/
def Hw.primaryOf (h : Hw) (q : Nat) : Option Nat :=
  [2 * q, 2 * q + 1].find? fun p => h.podState p == podPrimary

/-! ### Private memories (R310, R320) -/

/-- The key of a byte of a master's private view. -/
def privKey (m a : Nat) : Nat := m * 2 ^ 32 + a

/-- The private memories of one master, or all others. -/
def Hw.privOf (h : Hw) (m : Nat) : Store Byte := h.priv.filter fun k => k.1 / 2 ^ 32 == m

/-- Wipe the TCMs and checkpoint RAM of Pod `p` to 0. -/
def Hw.wipePod (h : Hw) (p : Nat) : Hw := { h with priv := h.priv.filter fun k => k.1 / 2 ^ 32 != p }

/-- Write bytes into a private view. -/
def Hw.putPriv (h : Hw) (m a : Nat) (bs : List Byte) : Hw :=
  { h with priv := Store.putList (fun _ => 0) h.priv (privKey m a) bs }

/-- Copy the memories of Pod `src` into Pod `dst`. -/
def Hw.copyPod (h : Hw) (src dst : Nat) : Hw :=
  let from_ := h.privOf src
  let h := h.wipePod dst
  h.forEach from_ fun kv h => h.putPriv dst (kv.1 % 2 ^ 32) [kv.2]

/-- The 64-byte line of an address in a Pod's private view (R320). -/
def podLine (a : Nat) : Nat := a / 64

/-! ### Forced SAFE (R324, R335) -/

/-- The owned output slots beside SFN_STAT. -/
def outputSlots : List Nat :=
  (List.range 16).map slotSo ++ (List.range 16).map slotSeo ++ (List.range 64).map slotZone ++
    (List.range 32).map fun i => slotPeer (i / 2) (i % 2)

/-- The log data of a change of SFN_STAT, from its bits before to those after (R409). -/
def Hw.fstateData (h : Hw) (old new : Nat) : List Byte :=
  bytesLE 1 (old % 4) ++ bytesLE 1 (new % 4) ++ bytesLE 1 (old / 256) ++ bytesLE 1 (new / 256) ++
    bytesLE 4 (h.get F.SFN_CYCLE_COUNT 0) ++ bytesLE 1 (nfield new 2 2) ++ List.replicate 23 0

/-- Channel A's state of function `n` changes from the bits `old` to `new`: a change of state raises event 41, and a change
of state or cause is logged (R38, R408). -/
def Hw.fnChange (h : Hw) (n old new : Nat) : Hw :=
  let h := h.when (old % 4 != new % 4) (·.raise 41)
  h.when (old % 4 != new % 4 || nfield old 8 8 != nfield new 8 8) fun h => h.log 4 n 0 (h.fstateData old new)

/-- What SFN_STAT shows of a function of a forced pair: SAFE, GROUP_SAFE, RSTREQ (R324, R335). -/
def groupSafeImage : Nat := 0x1304

/-- The same with the TRIPPED bit of an image: only a valid reset clears it (R190, R324). -/
def groupSafeOf (img : Nat) : Nat := groupSafeImage + Nat.land img 8

/-- A pair is forced SAFE: GSAFE, and its SO, SEO and zone outputs applied as 0. -/
def Hw.forcePair (h : Hw) (q : Nat) : Hw :=
  let h := h.when (!h.forcedPair q) fun h => h.forUpTo 256 fun n h =>
    h.when (h.get F.SFN_CFG_TYPE n != 0 && h.get F.SFN_CFG_PAIR n == q) (·.fnChange n (h.owned (slotSfn n)) (groupSafeOf (h.owned (slotSfn n))))
  let h := h.setB (pairFld F.POD_PAIR_GSAFE0 F.POD_PAIR_GSAFE1 F.POD_PAIR_GSAFE2 q) 0 true
  let h := h.forEach outputSlots fun s h => h.when (h.ownerPair s == q) (·.putApplied s 0)
  h.updFio fun f => { f with cmdP := nmask 16 fun n => nbit f.cmdP n && h.ownerPair (slotSo n) != q }

/-- Forcing and GSAFE of a pair end, unless its lockstep is broken. -/
def Hw.unforcePair (h : Hw) (q : Nat) : Hw :=
  if h.pairBroken q then h else h.setB (pairFld F.POD_PAIR_GSAFE0 F.POD_PAIR_GSAFE1 F.POD_PAIR_GSAFE2 q) 0 false

/-! ### Mismatches (R305 to R327, R509) -/

/-- 3,600 s in TIMEBASE ticks. -/
def budgetTicks : Nat := 360000000000

/-- What a mismatch or comparator fault records: the comparators disagreed or an injection test failed, whether it is
the latter, and the lowest differing bit, its port and the address on it (R509). -/
structure MismatchInfo where
  cmpFault : Bool := false
  inj : Bool := false
  bit : Nat := 0
  addr : Nat := 0
deriving DecidableEq, Repr

/-- The port of a bundle bit: FABRIC 0, TCM 1, SIDEBAND 2 (R303). -/
def portOf (b : Nat) : Nat := if b < 80 then 0 else if b < 152 then 1 else 2

/-- POD_MMADDR of a mismatch (R509). -/
def MismatchInfo.address (i : MismatchInfo) : Nat :=
  if i.inj then 0 else match portOf i.bit with
    | 0 => i.addr % 2 ^ 32
    | 1 => i.addr % 2 ^ 18
    | _ => 0

/-- The mismatches of Pod `p` in the last 3,600 s, at most 4 (POD_STAT.MMWIN). -/
def Hw.recentMismatches (h : Hw) (p : Nat) : Nat :=
  min 4 ((h.pod p).stamps.filter fun t => decide (h.base + h.time < t + budgetTicks)).length

/-- Record a mismatch: POD_MMINFO, POD_MMADDR, POD_MMTIME, POD_MMCNT, the time stamp and MMWIN (R327, R509). -/
def Hw.recordMismatch (h : Hw) (p : Nat) (i : MismatchInfo) : Hw :=
  let prim := h.podState p == podPrimary
  let h := ((((((h.setB F.POD_MMINFO_VALID p true).setB F.POD_MMINFO_CMPF p i.cmpFault).setB F.POD_MMINFO_INJ p i.inj).setB
    F.POD_MMINFO_PRIM p prim).set F.POD_MMINFO_BIT p i.bit).set F.POD_MMINFO_PORT p (portOf i.bit)).set F.POD_MMADDR_ADDR p
    i.address
  let h := (h.set F.POD_MMTIME_LO_VALUE p (h.time % 2 ^ 32)).set F.POD_MMTIME_HI_VALUE p (h.time / 2 ^ 32 % 2 ^ 32)
  let h := h.bump F.POD_MMCNT_MISMATCH p 1
  let spent := match (h.pod p).stamps.drop 2 with
    | [] => false
    | t :: _ => decide (h.base + h.time < t + budgetTicks)
  let h := h.updPod p fun r =>
    { r with stamps := ((h.base + h.time) :: r.stamps).take 4,
             retire := if i.cmpFault then rcCmp else if spent then rcBudget else r.retire }
  h.set F.POD_STAT_MMWIN p (h.recentMismatches p)

/-- A POD reset frees the semaphores held under the Pod's plain ID (R373). -/
def Hw.freeSems (h : Hw) (p : Nat) : Hw :=
  h.forUpTo 32 fun n h =>
    h.when (h.on F.MBX_SEM_HELD n && !h.on F.MBX_SEM_PAIR n && h.get F.MBX_SEM_OWNER n == p) (·.putWord .MBX_SEM n 0)

/-- Pod `p` enters RESETTING with a way back; an abandoned rejoin ends with it (R323, R325). -/
def Hw.resetPod (h : Hw) (p : Nat) (plan : PodPlan) : Hw :=
  (((h.freeSems p).set F.POD_STAT_STATE p podResetting).setB F.POD_STAT_REJFAIL p false).updPod p fun r =>
    { r with halted := false, plan := plan, loaded := false, starting := false, phase := .held, tries := 0, dirty := [] }

/-- Both Pods of a pair mismatch in one cycle: both reset, the even Pod restarts cold and the odd Pod rejoins from it
(R325). -/
def Hw.bothMismatch (h : Hw) (q : Nat) : Hw :=
  ((h.forcePair q).resetPod (2 * q) .cold).resetPod (2 * q + 1) .rejoin

/-- The primary mismatches without a healthy standby (R324, R325). -/
def Hw.primaryLost (h : Hw) (p : Nat) : Hw :=
  let q := otherPod p
  if h.podState q = podStandby ∧ (h.pod q).halted = true then h.bothMismatch (pairOf p)
  else
    let h := (h.forcePair (pairOf p)).resetPod p .cold
    if h.podState q = podRejoining then h.bothMismatch (pairOf p)
    else if h.podState q = podResetting then h.updPod q fun r => { r with plan := .rejoin }
    else h

/-- A Pod whose Peas halt, by its role in the pair (R316, R319, R324, R326, R329). -/
def Hw.podHalts (h : Hw) (p : Nat) : Hw :=
  let q := otherPod p
  if h.podState p = podPrimary then
    if h.healthyStandby q && !(h.pod q).halted then h.updPod p fun r => { r with halted := true } else h.primaryLost p
  else if h.podState p = podStandby then
    if h.podState q = podPrimary ∧ (h.pod q).halted = true then h.bothMismatch (pairOf p)
    else h.updPod p fun r => { r with halted := true }
  else if h.podState p = podIdle then h.resetPod p .idle
  else h

/-- The Pod computes in lockstep, so that its comparators report. -/
def Hw.lockstep (h : Hw) (p : Nat) : Bool :=
  (h.podRuns p || h.podState p == podIdle) && !h.on F.POD_STAT_LOCKSTEP_BROKEN p

/-- POD_MISMATCH: both comparators report Differ (R305). -/
def Hw.podMismatch (h : Hw) (p bit addr : Nat) : Hw :=
  if h.lockstep p then ((h.recordMismatch p { bit := bit, addr := addr }).raiseAt 120 p).podHalts p else h

/-- COMPARATOR_FAULT: one comparator reports Differ (R305, R308). -/
def Hw.comparatorFault (h : Hw) (p bit addr : Nat) : Hw :=
  if h.lockstep p then ((h.recordMismatch p { cmpFault := true, bit := bit, addr := addr }).raiseAt 121 p).podHalts p else h

/-- INJECTION_TEST: the two comparators' answers to the injected bit (R306 to R308). -/
def Hw.injectionTest (h : Hw) (p : Nat) (c0 c1 : Bool) : Hw :=
  if h.lockstep p then
    let b := h.get F.POD_INJ_NEXT p
    let h := h.set F.POD_INJ_NEXT p (if b = 159 then 0 else b + 1)
    if c0 && c1 then h.wrap F.POD_INJ_PASS p
    else ((h.recordMismatch p { cmpFault := true, inj := true, bit := b }).raiseAt 121 p).podHalts p
  else h

/-! ### Reset, rejoin and cold restart -/

/-- Another Pod restarts cold in the place of one that retired (R325). -/
def Hw.coldInstead (h : Hw) (q : Nat) : Hw :=
  if h.on F.POD_STAT_LOCKSTEP_BROKEN q then h
  else if h.podState q = podResetting then h.updPod q fun r => { r with plan := .cold }
  else if h.podState q = podRejoining then
    ((h.set F.POD_STAT_STATE q podReloading).setB F.POD_STAT_REJFAIL q false).updPod q fun r =>
      { r with plan := .cold, loaded := false, phase := .held }
  else h

/-- Pod `p` retires with a cause; if the pair counted on its cold restart, the other Pod takes its place. -/
def Hw.retirePod (h : Hw) (p cause : Nat) : Hw :=
  let cold := decide ((h.pod p).plan = .cold)
  let h := ((h.set F.POD_STAT_STATE p podRetired).set F.POD_STAT_RCAUSE p cause).setB F.POD_STAT_REJFAIL p false
  h.when cold (·.coldInstead (otherPod p))

/-- POD_RESET_DONE: the reset of Pod `p` ends (R310, R319, R324, R327, R335). -/
def Hw.podResetDone (h : Hw) (p : Nat) : Hw :=
  if h.podState p = podResetting then
    let h := h.wipePod p
    let r := h.pod p
    if r.retire ≠ 0 then (h.updPod p fun r => { r with retire := 0 }).retirePod p r.retire
    else if h.on F.POD_STAT_LOCKSTEP_BROKEN p then h
    else match r.plan with
      | .rejoin =>
        if h.podState (otherPod p) = podRetired then
          (h.set F.POD_STAT_STATE p podReloading).updPod p fun r => { r with plan := .cold }
        else (h.set F.POD_STAT_STATE p podRejoining).updPod p fun r => { r with phase := .held, tries := 0 }
      | .cold => h.set F.POD_STAT_STATE p podReloading
      | .idle => h.set F.POD_STAT_STATE p podReloading
  else h

/-- The program image of a pair in staging: its instruction and data bytes, if its header meets R339. -/
def Hw.podImage (h : Hw) (q : Nat) : Option (List Byte × List Byte × List Byte) :=
  let src := stagingBase + 64 * h.get F.POD_IMGSRC_ADDR q
  let hd := h.dramBytes src 64
  let il := ofBytesLE ((hd.drop 8).take 4)
  let dl := ofBytesLE ((hd.drop 12).take 4)
  if hd.take 4 = [0x41, 0x4B, 0x50, 0x49] ∧ hd.getD 4 0 = BitVec.ofNat 8 q ∧ ((hd.drop 5).take 3).all (· == 0) ∧
      il % 64 = 0 ∧ 64 ≤ il ∧ il ≤ 131072 ∧ dl % 64 = 0 ∧ dl ≤ 131072 ∧
      [2 * q, 2 * q + 1].all (fun p => ofBytesLE ((hd.drop 16).take 4) == 4 * h.get F.POD_CFG_ENTRY p) ∧ (hd.drop 20).all (· == 0) then
    some (h.dramBytes src (64 + il + dl), h.dramBytes (src + 64) il, h.dramBytes (src + 64 + il) dl)
  else none

/-- The 32 bytes of POD_IMGDIG of a pair. -/
def Hw.imageDigest (h : Hw) (q : Nat) : List Byte :=
  (List.range 8).flatMap fun k => bytesLE 4 (h.word .POD_IMGDIG (8 * q + k)).toNat

/-- The image of pair `q` with a matching digest (R324, R339). -/
def Hw.goodImage (h : Hw) (q : Nat) : Option (List Byte × List Byte) :=
  match h.podImage q with
  | none => none
  | some (img, itcm, dtcm) =>
    if digest 0x414B504F44493031 img = h.imageDigest q then some (itcm, dtcm) else none

/-- POD_RELOAD_DONE: the image has been read from staging (`readErr`: with a read error) and its digest compared (R324);
an IDLE Pod is IDLE again. -/
def Hw.podReloadDone (h : Hw) (p : Nat) (readErr : Bool) : Hw :=
  if h.podState p = podReloading then
    match (if readErr then none else h.goodImage (pairOf p)) with
    | none => h.retirePod p rcReload
    | some (itcm, dtcm) =>
      let h := (h.putPriv p 0x80000000 itcm).putPriv p 0x80100000 dtcm
      if (h.pod p).plan = .idle then h.set F.POD_STAT_STATE p podIdle
      else h.updPod p fun r => { r with loaded := true }
  else h

/-- REJOIN_PASS_DONE: a copy pass of the rejoin into Pod `p` completes (R320, R321). -/
def Hw.rejoinPassDone (h : Hw) (p : Nat) : Hw :=
  match (h.pod p).phase, h.primaryOf (pairOf p) with
  | .copying, some src =>
    if h.podState p = podRejoining then
      ((h.copyPod src p).bump F.POD_REJ_PASSES p 1).updPod p fun r => { r with phase := .copied }
    else h
  | _, _ => h

/-- REJOIN_COMPLETE: the final copy ends and both Pods resume at ENTRY (R320). -/
def Hw.rejoinComplete (h : Hw) (p : Nat) : Hw :=
  match (h.pod p).phase, h.primaryOf (pairOf p) with
  | .stalled, some src =>
    if h.podState p = podRejoining ∧ h.on F.POD_STAT_LOCKSTEP_BROKEN p = false then
      let h := (h.copyPod src p).forEach (List.range 256 ++ outputSlots) fun s h => h.putImage p s (h.image src s)
      (((h.set F.POD_STAT_STATE p podStandby).bump F.POD_MMCNT_REJOINS p 1).updPod p fun r => { r with phase := .held }).raiseAt
        123 p
    else h
  | _, _ => h

/-- REJOIN_ABANDON: 64 boundaries after pass 1 without a stall (R323). -/
def Hw.rejoinAbandon (h : Hw) (p : Nat) : Hw :=
  let r := h.pod p
  if h.podState p = podRejoining ∧ (r.phase = .copied ∨ r.phase = .copying) ∧ 64 ≤ r.tries then
    (h.setB F.POD_STAT_REJFAIL p true).updPod p fun r => { r with phase := .abandoned }
  else h

/-- POD_REJOIN_RESTART: POD_CTL.REJOIN is written 1 (R323). -/
def Hw.rejoinRestart (h : Hw) (p : Nat) : Hw :=
  if h.on F.POD_STAT_REJFAIL p then
    (h.setB F.POD_STAT_REJFAIL p false).updPod p fun r => { r with phase := .held, tries := 0, dirty := [] }
  else h

/-! ### What happens at a cycle boundary -/

/-- The standby of a halted primary becomes PRIMARY and vote source, and halted Pods enter RESETTING (R316, R319, R326). Only a
primary with a healthy standby at its mismatch is left halted until t1: what happens to the standby's health between the two
changes nothing. -/
def Hw.promote (h : Hw) (q : Nat) : Hw :=
  let h := h.forEach [2 * q, 2 * q + 1] fun p h =>
    if (h.pod p).halted && h.podState p == podPrimary then
      let h := (h.set F.POD_STAT_STATE (otherPod p) podPrimary).setB F.POD_STAT_VOTE (otherPod p) true
      (h.setB F.POD_STAT_VOTE p false).resetPod p .rejoin
    else h
  h.forEach [2 * q, 2 * q + 1] fun p h =>
    h.when ((h.pod p).halted && h.podState p == podStandby) (·.resetPod p .rejoin)

/-- B_R, the dirty lines that fit the stall at a T_C in µs (R321). -/
def dirtyLimit (tcUs : Nat) : Nat := if tcUs = 125 then 1312 else 2250

/-- A rejoin at a boundary: it begins, enters its stall, or copies the dirty lines once more (R320, R321). -/
def Hw.rejoinBoundary (h : Hw) (tcUs p : Nat) : Hw :=
  if h.podState p = podRejoining ∧ h.on F.POD_STAT_LOCKSTEP_BROKEN p = false then
    match h.primaryOf (pairOf p) with
    | none => h
    | some src =>
      let n := (h.pod src).dirty.length
      match (h.pod p).phase with
      | .held =>
        ((h.updPod src fun r => { r with dirty := [] }).set F.POD_REJ_PASSES p 0).updPod p fun r =>
          { r with phase := .copying, tries := 0 }
      | .copied =>
        if n ≤ dirtyLimit tcUs then
          ((h.set F.POD_REJ_DIRTY p n).set F.POD_REJ_STALL p ((8 * n + 2000) / 10)).updPod p fun r =>
            { r with phase := .stalled }
        else
          (h.updPod src fun r => { r with dirty := [] }).updPod p fun r => { r with phase := .copying, tries := r.tries + 1 }
      | .copying => h.updPod p fun r => { r with tries := r.tries + 1 }
      | .stalled => h
      | .abandoned => h
  else h

/-- A reloaded Pod starts as PRIMARY and vote source: its program sets the functions of the pair to SAFE (R324). -/
def Hw.coldStart (h : Hw) (p : Nat) : Hw :=
  if h.podState p == podReloading && (h.pod p).loaded && !h.on F.POD_STAT_LOCKSTEP_BROKEN p then
    let shown (n : Nat) : Nat := groupSafeOf (h.owned (slotSfn n))
    let h := (h.set F.POD_STAT_STATE p podPrimary).setB F.POD_STAT_VOTE p true
    let h := (h.setB F.POD_STAT_VOTE (otherPod p) false).updPod p fun r => { r with loaded := false, starting := true }
    let h := h.forUpTo 256 fun n h =>
      h.when (h.get F.SFN_CFG_TYPE n != 0 && h.get F.SFN_CFG_PAIR n == pairOf p) (·.putImage p (slotSfn n) (shown n))
    h.forEach outputSlots fun s h => h.when (h.ownerPair s == pairOf p) (·.putImage p s 0)
  else h

/-- The first cycle after a cold start has ended: forcing and GSAFE end (R324). -/
def Hw.startingEnds (h : Hw) (p : Nat) : Hw :=
  if (h.pod p).starting then (h.unforcePair (pairOf p)).updPod p fun r => { r with starting := false } else h

/-! ### Debug attach (R31, R334 to R337, R461) -/

/-- DEBUG_ATTACH: a debugger attaches to a Pod that is not split, whatever its state; a rejoin that it was in the middle of
ends, and its partner with it is stalled no more (R334, R335). -/
def Hw.debugAttach (h : Hw) (p : Nat) : Hw :=
  let h := ((h.setB F.POD_STAT_LOCKSTEP_BROKEN p true).setB F.POD_STAT_DBG p true).raiseAt 122 p
  (h.updPod p fun r => { r with phase := if r.phase = .abandoned then .abandoned else .held }).forcePair (pairOf p)

/-- SPLIT_DEBUG_ATTACH: a debugger attaches to a Pea of a split Pod (R337). -/
def Hw.splitDebugAttach (h : Hw) (p : Nat) : Hw :=
  if h.podState p = podSplit then h.setB F.POD_STAT_DBG p true else h

/-- DEBUG_DETACH: POD_STAT.DBG clears; LOCKSTEP_BROKEN stays (R334). -/
def Hw.debugDetach (h : Hw) (p : Nat) : Hw := h.setB F.POD_STAT_DBG p false

/-- DEBUG_ATTACH as the debug port grants it (R31, R336, R461): to a Pod that is not split while DBG is enabled, in lifecycle
FIELD to Pods 4 and 5 only, and to none under CRIT.LSDBG_DENY. An attach to a Pod whose lockstep is already broken sets DBG. -/
def Hw.attach (h : Hw) (p : Nat) : Hw :=
  if h.on F.SEC_STAT_DBG_EN 0 ∧ h.bitOf F.OTP_CRIT_VALUE 0 2 = false ∧ (h.get F.GLB_LIFE_LC 0 = 2 → 4 ≤ p) then
    if h.on F.POD_STAT_LOCKSTEP_BROKEN p then h.setB F.POD_STAT_DBG p true
    else if h.podState p = podSplit then h
    else h.debugAttach p
  else h

/-- SPLIT_DEBUG_ATTACH as the debug port grants it (R31, R337, R461). -/
def Hw.splitAttach (h : Hw) (p : Nat) : Hw := if h.on F.SEC_STAT_DBG_EN 0 then h.splitDebugAttach p else h

/-- DEBUG_PORT_REFUSAL: while DBG is not enabled, the port answers a read with data 0 and a refusal status; a write and an
attach to any core have no effect, and nothing reaches the interconnect (R31). -/
def Hw.portRefusal (h : Hw) (q : PortRequest) : Hw :=
  if q = .read ∧ h.on F.SEC_STAT_DBG_EN 0 = false then { h with bus := 0, resp := .refused } else h

end Sys2Proof.Machine
end

