-- ==== Sys2Proof/Machine/Release.lean ====
section
/-! DEFINITION. Release gates and SEO_A lines (R139 to R158). -/

namespace Sys2Proof.Machine

/-- REL_ERR flag numbers. -/
def reBTimeout : Nat := 0
@[inherit_doc reBTimeout] def reRptWrong : Nat := 1
@[inherit_doc reBTimeout] def reRptMissing : Nat := 2
@[inherit_doc reBTimeout] def reSeoRb : Nat := 3
@[inherit_doc reBTimeout] def reRobEcc : Nat := 4
@[inherit_doc reBTimeout] def reVerdictUnk : Nat := 5

/-- Set a flag of REL_ERR; an enabled one raises event RELn. -/
def Hw.relFlag (h : Hw) (n k : Nat) : Hw :=
  (h.setBit ⟨.REL_ERR, 0, 6⟩ n k true).when (h.bitOf F.REL_IEN_ERR n k) fun h => h.raise (16 + n)

/-- REL_STAT.AFCAUSE codes. -/
def afSeoRb : Nat := 1
@[inherit_doc afSeoRb] def afRobEcc : Nat := 2

/-- Latch the A-side engine fault of engine `n` with a cause; channel A's drive latch sets with it, and event RELn is
raised whatever REL_IEN holds (R156, R157, R216). -/
def Hw.engineFaultA (h : Hw) (n cause : Nat) : Hw :=
  if h.on F.REL_STAT_AFAULT n then h
  else
    ((((h.setB F.REL_STAT_AFAULT n true).set F.REL_STAT_AFCAUSE n cause).updLane n fun l => { l with seoLatch := true }).noteFault
      n).raise (16 + n)

/-! ### Verdicts (R138, R141, R142) -/

/-- The first verdict on its way to the A-die, and the messages without it. -/
def takeVerdict : List BtoA → Option (Verdict × List BtoA)
  | [] => none
  | .verdict v :: ms => some (v, ms)
  | m :: ms => (takeVerdict ms).map fun p => (p.1, m :: p.2)

/-- A segment awaits a verdict in an entry. -/
def Seg.awaits (s : Seg) (e : Nat) : Bool := !s.generated && s.entry == e && decide (s.verdict = .waiting)

/-- The release gate takes a verdict: one that comes after its timeout or discard is discarded, and one that names no
waiting segment sets VERDICT_UNK. -/
def Hw.takeVerdictFor (h : Hw) (v : Verdict) : Hw :=
  let l := h.lane v.lane
  let isLate := l.late.contains (v.entry, v.seg, v.seq)
  let h := h.updLane v.lane fun l => { l with late := l.late.erase (v.entry, v.seg, v.seq) }
  if l.segs.any fun s => s.awaits v.entry then
    if isLate then h
    else h.updLane v.lane fun l =>
      { l with segs := l.segs.map fun s => if s.awaits v.entry then { s with verdict := .arrived v.pass } else s }
  else h.relFlag v.lane reVerdictUnk

/-- The A-die takes the next verdict. -/
def Hw.verdictReceived (h : Hw) : Hw :=
  match takeVerdict h.toA with
  | none => h
  | some (v, rest) => ({ h with toA := rest }).takeVerdictFor v

/-- The verdict timeout of a waiting segment expires (R141). -/
def Hw.verdictTimeout (h : Hw) (n e : Nat) : Hw :=
  match (h.lane n).segs.find? fun s => s.awaits e with
  | none => h
  | some s =>
    let h := (h.noteLate n [s]).updLane n fun l =>
      { l with segs := l.segs.map fun x => if x.awaits e then { x with verdict := .expired } else x }
    (((h.relFlag n reBTimeout).setB F.CHK_ERR_B_TIMEOUT 0 true).bump F.REL_BTOCNT_COUNT n 1).raise 35

/-! ### Release (R140, R143, R144, R157) -/

/-- The tiles that a verdict failed; none where no verdict was taken. -/
def VerdictState.failed : VerdictState → Nat → Bool
  | .arrived pass, c => !nbit pass c
  | _, _ => false

/-- The segment is released with all doses 0 whatever its verdict and zones say. -/
def Hw.wholeBlank (h : Hw) (n : Nat) (s : Seg) (ecc : Bool) : Bool :=
  s.blank || s.generated || decide (s.verdict = .expired) || ecc || h.ledgerBlanks n

/-- Tile column `c` is closed by the zone mask at release. -/
def Hw.zoneClosed (h : Hw) (n : Nat) (s : Seg) (c : Nat) : Bool :=
  !h.openEff n (h.zoneOf (1024 * n + 32 * s.hdr.seg + c))

/-- What the ledger notes of tile column `c` of a released segment; blanking for a full ledger counts as a verdict timeout (R160,
R170). -/
def Hw.tileNote (h : Hw) (n : Nat) (s : Seg) (doses : List Nat) (c : Nat) : TileNote :=
  { peak := s.peaks.getD c 0, total := tileSum doses c, clamps := s.clamps.getD c 0
    flags := (if h.zoneClosed n s c && !s.generated then [lfZmask] else []) ++ (if s.ledgerBlank then [lfBlank] else []) ++
      (if s.verdict.failed c then [lfBfail] else []) ++
      (if (decide (s.verdict = .expired) || h.ledgerBlanks n) && !s.generated then [lfBtimeout] else []) ++
      (if nbit s.tripTiles c then [lfTrip] else []) }

/-- The full ledger blanks a segment as a verdict timeout does, but for event 35; one whose verdict timed out is counted already
(R170). -/
def Hw.fullBlank (h : Hw) (n : Nat) (s : Seg) : Hw :=
  h.when (h.ledgerBlanks n && !s.generated && decide (s.verdict ≠ .expired)) fun h => ((h.relFlag n reBTimeout).setB F.CHK_ERR_B_TIMEOUT 0 true).bump F.REL_BTOCNT_COUNT n 1

/-- Release one segment: mask its tiles, count, record it in the ledger and hand it to egress. The ledger adds TRIP and
ENGFAULT when the entry closes (R160); `bad` lists the tile columns whose ledger record is uncorrectable. -/
def Hw.releaseSeg (h : Hw) (n : Nat) (s : Seg) (ecc : Bool) (bad : List Nat) : Hw :=
  let ecc := ecc && !s.generated
  let h := h.when ecc fun h => (h.relFlag n reRobEcc).engineFaultA n afRobEcc
  let h := h.wantEntry n s.hdr.layer
  let whole := h.wholeBlank n s ecc
  let h := h.fullBlank n s
  let zero (c : Nat) : Bool := whole || h.zoneClosed n s c || s.verdict.failed c
  let doses := (List.range 2048).map fun i => if zero (i % 256 / 8) then 0 else s.doses.getD i 0
  let zeroed := ((List.range 32).filter zero).length
  let failed := ((List.range 32).filter s.verdict.failed).length
  let closed := if s.generated then 0 else ((List.range 32).filter (h.zoneClosed n s)).length
  let notes := (List.range 32).map (h.tileNote n s doses)
  let h := ((h.wrap F.REL_RELCNT_COUNT n).bump F.REL_BFAILCNT_COUNT n failed).bump F.REL_ZMCNT_COUNT n closed
  let h := h.ledgerRecord n s.hdr notes bad
  h.updLane n fun l =>
    { l with
      segs := l.segs.tail
      egress := l.egress ++ [{ since := h.time, hdr := s.hdr, report := if s.generated then none else some s.entry, doses := doses,
                               blanked := zeroed == 32, part := decide (1 ≤ zeroed ∧ zeroed ≤ 31), tRx := s.tRx }] }

/-- The release gate releases its oldest segment when R140 allows it. -/
def Hw.segmentRelease (h : Hw) (n : Nat) (met : ReleaseErrs) : Hw :=
  match (h.lane n).segs with
  | [] => h
  | s :: _ =>
    if s.phase = .written ∧ s.verdict ≠ .waiting then (h.releaseSeg n s met.ecc met.records).ddrCe met.ce else h

/-! ### Engine faults (R149, R156, R158) -/

/-- The first engine-fault notice on its way to the A-die, and the messages without it. -/
def takeNotice : List BtoA → Option ((Nat × BFaultCause) × List BtoA)
  | [] => none
  | .engineFault n c :: ms => some ((n, c), ms)
  | m :: ms => (takeNotice ms).map fun p => (p.1, m :: p.2)

/-- The A-die takes the next B-side engine-fault notice (R149). -/
def Hw.faultNotice (h : Hw) : Hw :=
  match takeNotice h.toA with
  | none => h
  | some ((n, c), rest) =>
    let h := { h with toA := rest }
    let k := if c = .rptMissing then reRptMissing else reRptWrong
    (((h.setBit ⟨.REL_ERR, 0, 6⟩ n k true).setB F.CHK_ERR_RPT_MISMATCH 0 true).raise 36).raise (16 + n)

/-- SEO_Bn permits (R154). -/
def Hw.seoB (h : Hw) (n : Nat) : Bool :=
  (h.bEng n).cellPermit && decide ((h.bEng n).fault = .none) && decide (h.b.state = 3) && h.b.brun

/-- A SEO line reads back as toggling, or static, for 120 µs: a level that differs from the drive latches that die's
engine fault (R156). -/
def Hw.seoReadback (h : Hw) (sideB : Bool) (n : Nat) (toggling : Bool) : Hw :=
  if sideB then
    if toggling = h.seoB n then h.updBEng n fun e => { e with stuck := none }
    else
      (h.updBEng n fun e => { e with stuck := some toggling, fault := if e.fault = .none then .seoRb else e.fault }).noteFault n
  else if toggling = h.seoA n then h.updLane n fun l => { l with seoStuck := none }
  else
    ((h.updLane n fun l => { l with seoStuck := some toggling }).relFlag n reSeoRb).engineFaultA n afSeoRb

/-- The level of SEO_An as read back. -/
def Hw.seoARb (h : Hw) (n : Nat) : Bool := ((h.lane n).seoStuck).getD (h.seoA n)

/-- FLT_CLR: the A-side engine fault clears while SEO_An reads back as it is driven, whatever its cause was (R158). -/
def Hw.seoFltClr (h : Hw) (n : Nat) : Hw :=
  h.when (h.on F.REL_STAT_AFAULT n && h.seoARb n == h.seoA n) fun h =>
    ((h.setB F.REL_STAT_AFAULT n false).set F.REL_STAT_AFCAUSE n 0).updLane n fun l => { l with seoStuck := none }

/-- Channel A's drive latch of SEO_An clears with a valid reset, the lane in service and no A-side engine fault left (R216). -/
def Hw.seoUnlatch (h : Hw) (n : Nat) : Hw :=
  h.when (!h.on F.REL_STAT_AFAULT n && h.inService n) (·.updLane n fun l => { l with seoLatch := false })

end Sys2Proof.Machine
end

