-- ==== Sys2Proof/Machine/Tile.lean ====
section
/-! DEFINITION. The B-die's Tile Checker and its check of release reports (R128 to R138, R148 to R151, R154). -/

namespace Sys2Proof.Machine

/-- The B-side parameters of zone `z` for engine `n`: those of the set that the B-die has selected for its group. -/
def Hw.bParams (h : Hw) (n z : Nat) : BZone :=
  h.b.cfg.bZone (Store.get (fun _ => 0) h.b.sel (h.b.cfg.groupOf n)) z

/-- What an unlisted tile integrator reads as: the cold value of the tile's zone (R135). -/
def BDie.coldOf (b : BDie) (t : Nat) : Nat := Store.get (fun _ => 0) b.cold (b.cfg.zoneOf t)

/-- Tile integrator T_t. -/
def Hw.bTile (h : Hw) (t : Nat) : Nat := Store.get h.b.coldOf h.b.tiles t

/-- Set T_t. -/
def Hw.putTile (h : Hw) (t v : Nat) : Hw := { h with b := { h.b with tiles := Store.put h.b.coldOf h.b.tiles t v } }

/-- T_t − (T_t >> k'); a shift outside 1 to 15 applies no decay (R133). -/
def tileDecay (t k : Nat) : Nat := if 1 ≤ k ∧ k ≤ 15 then t - t / 2 ^ k else t

/-- The Tile Checker passes a frame (R129). -/
def Hw.bFrameOk (h : Hw) (f : XlkFrame) : Bool :=
  let lc := h.b.cfg.lane f.lane
  let ck := crcBytes lc.crc
  let dcod := frameDcod f.bytes
  decide (32 + ck ≤ f.bytes.length) && frameCheckOk lc.crc f.bytes && byteAt f.bytes 0 == frameMagic &&
    byteAt f.bytes 2 == f.lane && !(dcod == 3 && !lc.p12Ok) &&
    (payloadLenOk dcod (framePayloadLen f.bytes) && f.bytes.length == 32 + framePayloadLen f.bytes + ck) &&
    runListOk dcod ck f.bytes

/-- The update of one tile integrator by a segment, with the doses as they were asked for and whether or not the tile then fails
(R133, R134). No definition sets a tile integrator against an integrator of the pool (R137). -/
def Hw.tileUpdate (h : Hw) (n s c sum : Nat) : Hw :=
  let t := 1024 * n + 32 * s + c
  let old := h.bTile t
  let base := if nbit (h.bEng n).seen s then old else tileDecay old (h.bParams n (h.b.cfg.zoneOf t)).k
  h.putTile t (min 0xFFFFFFFF (base + sum))

/-- VERDICT.CAUSE bits (R138). -/
def vcFrame : Nat := 1
@[inherit_doc vcFrame] def vcZone : Nat := 2
@[inherit_doc vcFrame] def vcBudget : Nat := 4
@[inherit_doc vcFrame] def vcIntegrator : Nat := 8
@[inherit_doc vcFrame] def vcEnvelope : Nat := 16

/-- Zone `z` is open in channel B as far as its zone bit and the trip vector go (R136). -/
def Hw.bZoneOpen (h : Hw) (z : Nat) : Bool := nbit h.b.zones z && !nbit h.b.trip z

/-- The causes for which a tile fails after the update; 0 when it passes (R136). An envelope set that is not confirmed sets ENVELOPE
alone, not ZONE: R138 does not say which (DESIGN CHOICE, log entry 121). The limit is the B-die's own, of tile integrators only
(R137). -/
def Hw.tileCause (h : Hw) (n s c sum : Nat) : Nat :=
  let t := 1024 * n + 32 * s + c
  let z := h.b.cfg.zoneOf t
  let p := h.bParams n z
  (if h.bZoneOpen z then 0 else vcZone) + (if (h.bEng n).envOk then 0 else vcEnvelope) +
    (if sum ≤ p.budget then 0 else vcBudget) + (if h.bTile t ≤ p.lim then 0 else vcIntegrator)

/-- Send a verdict and keep it until its report arrives; a link that is not trained drops it (R45, R138, R148). -/
def Hw.sendVerdict (h : Hw) (v : Verdict) (sums : List Nat) : Hw :=
  (h.updBEng v.lane fun e =>
    { e with awaiting := Store.upd (fun _ => []) e.awaiting v.entry
              (· ++ [{ seg := v.seg, seq := v.seq, pass := v.pass, sums := sums }]) }).sendA (.verdict v) |>.when
    (!h.on F.XLK_STAT_XLKC_UP 0 || !h.b.runs) (·.lateLost v.lane v.entry v.seg v.seq)

/-- The Tile Checker takes a frame from XLK_D: checks, decodes, updates and judges it (R129 to R136). -/
def Hw.bFrame (h : Hw) (f : XlkFrame) : Hw :=
  let hd := frameHdr f.bytes
  let lc := h.b.cfg.lane f.lane
  let v : Verdict := { lane := f.lane, entry := f.entry, seg := hd.seg, seq := hd.seq }
  if h.bFrameOk f then
    let doses := (decodePayload (frameDcod f.bytes) lc.p12Shift (framePayload (crcBytes lc.crc) f.bytes)).getD []
    let sums := tileSums doses
    let h := h.forUpTo 32 fun c h => h.tileUpdate f.lane hd.seg c (sums.getD c 0)
    let h := h.updBEng f.lane fun e => { e with seen := nsetBit e.seen hd.seg true }
    let causes := (List.range 32).map fun c => h.tileCause f.lane hd.seg c (sums.getD c 0)
    h.sendVerdict { v with pass := nmask 32 fun c => causes.getD c 0 == 0, cause := causes.foldl Nat.lor 0 } sums
  else h.sendVerdict { v with pass := 0, cause := vcFrame } (List.replicate 32 0)

/-- The B-die takes the next frame of XLK_D. -/
def Hw.bFrameReceived (h : Hw) : Hw :=
  match h.xlkD with
  | [] => h
  | f :: rest => ({ h with xlkD := rest }).bFrame f

/-- The end of a B-slot of engine `n`: tiles that received no segment decay (R133). -/
def Hw.bSlotEnd (h : Hw) (n : Nat) : Hw :=
  if h.b.evaluating then
    let seen := (h.bEng n).seen
    let h := h.forUpTo 1024 fun i h =>
      if nbit seen (i / 32) then h
      else
        let t := 1024 * n + i
        h.putTile t (tileDecay (h.bTile t) (h.bParams n (h.b.cfg.zoneOf t)).k)
    let h := h.updBEng n fun e => { e with seen := 0 }
    let own (k : Nat × Nat) : Bool := k.1 / 1024 == n
    let old := h.b.slotTiles
    { h with b := { h.b with slotTiles := old.filter (fun k => decide (k.1 / 1024 < n)) ++ h.b.tiles.filter own ++
                                          old.filter fun k => decide (n < k.1 / 1024) } }
  else h

/-! ### Release reports (R148 to R151) -/

/-- A report is wrong against the verdict it answers, or against a verdict that failed every tile where the B-die has
none for the entry (R148). -/
def reportWrong (v : Option BVerdict) (r : RelReport) : Bool :=
  match v with
  | none => r.sums.any fun e => e != 0
  | some v =>
    r.seg != v.seg || r.seq != v.seq ||
      (List.range 32).any fun c =>
        if nbit v.pass c then decide (v.sums.getD c 0 < r.sums.getD c 0) else r.sums.getD c 0 != 0

/-- A wrong or missing report: counted, and the first one latches the B-side engine fault and notifies the A-die (R149,
R151). -/
def Hw.bReportFault (h : Hw) (n : Nat) (c : BFaultCause) : Hw :=
  let h := { h with b := { h.b with reports := (h.b.reports + 1) % 2 ^ 32 } }
  if (h.bEng n).fault = .none then
    ((h.updBEng n fun e => { e with fault := c }).noteFault n).sendA (.engineFault n c)
  else h

/-- The verdicts of entry `e` of an engine that await a report, oldest first. -/
def BEngine.awaits (b : BEngine) (e : Nat) : List BVerdict := Store.get (fun _ => []) b.awaiting e

/-- The verdict that a report answers: the one of its SEGMENT and SLICE_SEQ, else the oldest of its entry (R148; DESIGN CHOICE, log
entry 108). A verdict whose report was found missing still judges a report that comes late. -/
def BEngine.answered (b : BEngine) (r : RelReport) : Option BVerdict :=
  let l := b.awaits r.entry
  (l.find? fun v => v.seg == r.seg && v.seq == r.seq) <|> l.head?

/-- The verdicts that still wait once `v` is answered: neither `v` nor an older one whose report was found missing. -/
def dropAnswered (v : BVerdict) : List BVerdict → List BVerdict
  | [] => []
  | x :: xs => if x = v then xs else if x.missed then dropAnswered v xs else x :: dropAnswered v xs

/-- A report answers a verdict of entry `e`. -/
def Hw.dropVerdict (h : Hw) (n e : Nat) (v : Option BVerdict) : Hw :=
  match v with
  | none => h
  | some v => h.updBEng n fun b => { b with awaiting := Store.put (fun _ => []) b.awaiting e (dropAnswered v (b.awaits e)) }

/-- The oldest verdict of a list whose report is not yet found missing is marked so. -/
def markMissed : List BVerdict → List BVerdict
  | [] => []
  | x :: xs => if x.missed then x :: markMissed xs else { x with missed := true } :: xs

/-- The B-die checks a release report. -/
def Hw.bReport (h : Hw) (r : RelReport) : Hw :=
  let v := (h.bEng r.lane).answered r
  (h.dropVerdict r.lane r.entry v).when (reportWrong v r) fun h => h.bReportFault r.lane .rptWrong

/-- The first release report on its way to the B-die, and the messages without it. -/
def takeReport : List AtoB → Option (RelReport × List AtoB)
  | [] => none
  | .report r :: ms => some (r, ms)
  | m :: ms => (takeReport ms).map fun p => (p.1, m :: p.2)

/-- The B-die takes the next release report (R148). -/
def Hw.reportReceived (h : Hw) : Hw :=
  match takeReport h.toB with
  | none => h
  | some (r, rest) => ({ h with toB := rest }).bReport r

/-- No report came within 100 µs of a verdict: the oldest of the entry for which that is not yet found. The verdict is kept, to
judge a report that comes after all (R148). -/
def Hw.reportMissing (h : Hw) (n entry : Nat) : Hw :=
  if ((h.bEng n).awaits entry).all (·.missed) then h
  else
    (h.updBEng n fun b => { b with awaiting := Store.put (fun _ => []) b.awaiting entry (markMissed (b.awaits entry)) }).bReportFault
      n .rptMissing

end Sys2Proof.Machine
end

