-- ==== Sys2Proof/Machine/Sfn.lean ====
section
/-! DEFINITION. Safety functions: evaluation, exchange and outputs of the two channels (R174 to R225, R510, R512). -/

namespace Sys2Proof.Machine

/-! ### Channels, functions and their state -/

/-- The evaluation of a channel. -/
def Hw.ev (h : Hw) : Chan → ChanEval
  | .a => h.evA
  | .b => h.evB

/-- Change the evaluation of a channel. -/
def Hw.updEv (h : Hw) (c : Chan) (f : ChanEval → ChanEval) : Hw :=
  match c with
  | .a => { h with evA := f h.evA }
  | .b => { h with evB := f h.evB }

/-- The configuration that a channel evaluates. -/
def Hw.pkg (h : Hw) : Chan → PkgConfig
  | .a => h.cfg
  | .b => h.b.cfg

/-- Function `n` of a channel's configuration. -/
def Hw.fn (h : Hw) (c : Chan) (n : Nat) : FnCfg := (h.pkg c).fn n

/-- The configured functions of a channel in ascending order. -/
def Hw.fnList (h : Hw) (c : Chan) : List Nat := (List.range 256).filter fun n => (h.fn c n).type != 0

/-- Function type codes (R197 to R217). -/
def ftEstop : Nat := 0x01
@[inherit_doc ftEstop] def ftGuard : Nat := 0x02
@[inherit_doc ftEstop] def ftGuardLock : Nat := 0x03
@[inherit_doc ftEstop] def ftTwoHand : Nat := 0x04
@[inherit_doc ftEstop] def ftLightCurtain : Nat := 0x05
@[inherit_doc ftEstop] def ftEdm : Nat := 0x06
@[inherit_doc ftEstop] def ftAnalog : Nat := 0x07
@[inherit_doc ftEstop] def ftZone : Nat := 0x08
@[inherit_doc ftEstop] def ftReset : Nat := 0x09
@[inherit_doc ftEstop] def ftAnd : Nat := 0x0A
@[inherit_doc ftEstop] def ftOr : Nat := 0x0B
@[inherit_doc ftEstop] def ftOnDelay : Nat := 0x0C
@[inherit_doc ftEstop] def ftOffDelay : Nat := 0x0D
@[inherit_doc ftEstop] def ftPeerIn : Nat := 0x0E
@[inherit_doc ftEstop] def ftOutput : Nat := 0x0F
@[inherit_doc ftEstop] def ftEnvSelect : Nat := 0x10

/-- Cause codes. -/
def ccNone : Nat := 0x00
@[inherit_doc ccNone] def ccInputDisc : Nat := 0x01
@[inherit_doc ccNone] def ccTp : Nat := 0x02
@[inherit_doc ccNone] def ccXdisc : Nat := 0x03
@[inherit_doc ccNone] def ccPartner : Nat := 0x04
@[inherit_doc ccNone] def ccCfg : Nat := 0x05
@[inherit_doc ccNone] def ccLock : Nat := 0x06
@[inherit_doc ccNone] def ccAntivalence : Nat := 0x07
@[inherit_doc ccNone] def ccEdm : Nat := 0x08
@[inherit_doc ccNone] def ccNe43 : Nat := 0x09
@[inherit_doc ccNone] def ccAnaDisc : Nat := 0x0A
@[inherit_doc ccNone] def ccSelInvalid : Nat := 0x0B
@[inherit_doc ccNone] def ccOutFault : Nat := 0x0C
@[inherit_doc ccNone] def ccDemand : Nat := 0x10
@[inherit_doc ccNone] def ccStartup : Nat := 0x11
@[inherit_doc ccNone] def ccTrip : Nat := 0x12
@[inherit_doc ccNone] def ccGroupSafe : Nat := 0x13
@[inherit_doc ccNone] def ccOverrun : Nat := 0x14
@[inherit_doc ccNone] def ccSelPending : Nat := 0x15
@[inherit_doc ccNone] def ccAccuracy : Nat := 0x16
@[inherit_doc ccNone] def ccPeer : Nat := 0x17

/-- SFN_STAT.STATE codes. -/
def fsSafe : Nat := 0
@[inherit_doc fsSafe] def fsRun : Nat := 1
@[inherit_doc fsSafe] def fsFault : Nat := 2

/-- The state of a function from the bits that the channel A program writes to SFN_STAT. -/
def FnState.ofBits (v : Nat) : FnState :=
  { state := nfield v 0 2, rstreq := nbit v 2, tripped := nbit v 3, cause := nfield v 8 8, causeOn := nbit v 16 }

/-- The bits of SFN_STAT that the channel A program writes. -/
def FnState.bits (s : FnState) : Nat :=
  s.state % 4 + 4 * bit s.rstreq + 8 * bit s.tripped + 256 * (s.cause % 256) + 65536 * bit s.causeOn

/-- The state of function `n` in a channel; channel A's is the image of the vote source (R223, R313). -/
def Hw.fnState (h : Hw) (c : Chan) (n : Nat) : FnState :=
  match c with
  | .a => FnState.ofBits (h.owned (slotSfn n))
  | .b => Store.get (fun _ => {}) h.evB.fns n

/-- The program of a pair writes an owned output in the image of each Pod that runs it. -/
def Hw.putOwned (h : Hw) (slot v : Nat) : Hw :=
  let q := h.ownerPair slot
  if q < 3 then
    h.forEach [2 * q, 2 * q + 1] fun p h => h.when (h.podRuns p || !h.on F.SFN_CTL_START 0) (·.putImage p slot v)
  else h

/-- Put the state of function `n` in a channel. -/
def Hw.putFnState (h : Hw) (c : Chan) (n : Nat) (s : FnState) : Hw :=
  match c with
  | .a => h.putOwned (slotSfn n) s.bits
  | .b => h.updEv .b fun e => { e with fns := Store.put (fun _ => {}) e.fns n s }

/-- What function `n` keeps in a channel. -/
def Hw.fnMem (h : Hw) (c : Chan) (n : Nat) : FnMem := Store.get (fun _ => {}) (h.ev c).mem n

/-- Put what function `n` keeps in a channel. -/
def Hw.putFnMem (h : Hw) (c : Chan) (n : Nat) (m : FnMem) : Hw :=
  h.updEv c fun e => { e with mem := Store.put (fun _ => {}) e.mem n m }

/-- The pairs that a channel takes as SAFE: forced in channel A (R324), GSAFE in channel B (R185). -/
def Hw.pairSafe (h : Hw) (c : Chan) (q : Nat) : Bool :=
  match c with
  | .a => h.forcedPair q
  | .b => nbit h.evB.gsafe q

/-- T_C in µs (SFN_TC, R175). -/
def tcOf (code : Nat) : Nat := 125 * 2 ^ code

/-- T_C of a channel in µs. -/
def Hw.tc (h : Hw) : Chan → Nat
  | .a => tcOf (h.get F.SFN_TC_TC 0)
  | .b => tcOf h.b.cfg.tc

/-- A time in ms as whole cycles, rounded up (R175). -/
def Hw.cycles (h : Hw) (c : Chan) (ms : Nat) : Nat := (1000 * ms + h.tc c - 1) / h.tc c

/-! ### Inputs (R176, R178, R196) -/

/-- The kinds of an input source. -/
inductive SrcKind where
  | none | di | fn | peer | dqin | cli
deriving DecidableEq, Repr

/-- The kind of a source code; a reserved kind names no source. -/
def srcKind (code : Nat) : SrcKind :=
  match nfield code 12 3 with
  | 1 => .di
  | 2 => .fn
  | 3 => .peer
  | 4 => .dqin
  | 5 => .cli
  | _ => .none

/-- The source code of input `k` of a function. -/
def FnCfg.src (f : FnCfg) (k : Nat) : Nat := f.ins.getD k 0

/-- The value of a source in a channel, or none for kind NONE. -/
def Hw.srcVal (h : Hw) (c : Chan) (code : Nat) : Option Bool :=
  let i := nfield code 0 12
  let img := (h.ev c).img
  match srcKind code with
  | .none => none
  | .di => some (nbit img.di i)
  | .dqin => some (nbit img.di (48 + i))
  | .peer => some (nbit (img.peers.getD (i / 64) 0) (i % 64))
  | .fn => some (nbit (h.ev c).res i != nbit code 15)
  | .cli => none

/-- Input `k` of a function with its neutral value. -/
def Hw.inVal (h : Hw) (c : Chan) (f : FnCfg) (k : Nat) (neutral : Bool) : Bool := (h.srcVal c (f.src k)).getD neutral

/-- A connection of the peer link in a channel. -/
def Hw.conn (h : Hw) (c : Chan) (p : Nat) : NpsConn := Store.get (fun _ => {}) h.nps (16 * c.num + p)

/-- Peer `p` is valid in a channel (R428). -/
def NpsConn.valid (x : NpsConn) : Bool := decide (x.state = 2) && x.seen

/-- The received bits of a peer as a channel uses them (R414). -/
def NpsConn.bits (x : NpsConn) : Nat := if x.valid then x.rx else 0

/-- The SO pairs whose fault is reported to a channel (R265). -/
def Hw.soReported (h : Hw) (c : Chan) : Nat :=
  match c with
  | .a => nmask 16 fun n => h.on F.SO_STAT_COND n
  | .b => nmask 16 h.soCond

/-- The input image that a channel holds now (R176). -/
def Hw.inputImage (h : Hw) (c : Chan) : InImage :=
  { di := nmask 64 fun i => (h.di c i).filt, tpf := nmask 48 fun i => (h.di c i).tpf != 0,
    pv := (List.range 8).map fun n => (h.cli c n).pv, ne := nmask 8 fun n => (h.cli c n).neLo || (h.cli c n).neHi,
    peers := (List.range 16).map fun p => (h.conn c p).bits, peerOk := nmask 16 fun p => (h.conn c p).valid,
    soCond := h.soReported c }

/-- INPUT_IMAGE_LATCH: a channel latches its input image. -/
def Hw.latchImage (h : Hw) (c : Chan) : Hw := h.updEv c fun e => { e with img := h.inputImage c }

/-! ### Conditions of the function types (R197 to R220) -/

/-- What a type's judgement of one cycle says: permit, the fault conditions that have arisen, those that have arisen before
and are not gone, the SAFE cause that withholds permit (0 for none), and what the function keeps. -/
structure Judged where
  permit : Bool := false
  arise : List Nat := []
  still : List Nat := []
  hold : Nat := 0
  mem : FnMem := {}
deriving DecidableEq, Repr

/-- The two contacts of a pair in their permit states (R197). -/
def contacts (ncno : Bool) (v0 v1 : Bool) : Bool × Bool := (v0, v1 != ncno)

/-- A cause as a list of conditions: present, or none. -/
def causeIf (b : Bool) (cause : Nat) : List Nat := if b then [cause] else []

/-- A contact pair over one cycle: whether it is in permit, and what is kept (R197). -/
def pairStep (limit : Nat) (a b : Bool) (m : FnMem) : Bool × FnMem :=
  let disc := if a != b then m.disc + 1 else 0
  let both := if a != b then true else if a then m.both else false
  let on := decide (limit < disc) || (m.discOn && (a || b))
  (a && b && !both, { m with disc := disc, both := both, discOn := on })

/-- ESTOP, GUARD and LIGHT_CURTAIN. -/
def judgePair (limit : Nat) (a b : Bool) (m : FnMem) : Judged :=
  let (ok, m) := pairStep limit a b m
  { permit := ok, arise := causeIf (decide (limit < m.disc)) ccInputDisc, still := causeIf m.discOn ccInputDisc, mem := m }

/-- GUARD_LOCK (R200, R201); `zonesOk` says that every zone of ZMASK is closed for T_ZC and safe to touch. The cause LOCK
stands while the condition of R200 holds: the spec does not say when it is gone (DESIGN CHOICE, log entry 88). -/
def judgeGuardLock (limit plaus : Nat) (a b locked request zonesOk : Bool) (m : FnMem) : Judged :=
  let (door, m) := pairStep limit a b m
  let p := if a && b then 0 else m.plaus + 1
  { permit := door && locked,
    arise := causeIf (decide (limit < m.disc)) ccInputDisc ++ causeIf (locked && decide (plaus < p)) ccLock,
    still := causeIf m.discOn ccInputDisc, mem := { m with plaus := p, unlock := request && zonesOk } }

/-- Internal states of TWO_HAND (R204). -/
def thIdle : Nat := 0
@[inherit_doc thIdle] def thOne : Nat := 1
@[inherit_doc thIdle] def thOn : Nat := 2
@[inherit_doc thIdle] def thBlocked : Nat := 3
@[inherit_doc thIdle] def thFault : Nat := 4

/-- The internal state of TWO_HAND outside FAULT: the hands actuated and released, and the synchrony window. -/
def handStep (window : Nat) (lAct rAct lRel rRel : Bool) (m : FnMem) : FnMem :=
  if m.hand = thIdle then
    if lAct && rAct then { m with hand := thOn }
    else if lAct || rAct then { m with hand := thOne, handRight := rAct, handCount := 0 }
    else m
  else if m.hand = thOne then
    let n := m.handCount + 1
    if lAct && rAct && decide (n ≤ window) then { m with hand := thOn }
    else if (if m.handRight then rRel else lRel) then { m with hand := thIdle }
    else if window < n then { m with hand := thBlocked }
    else { m with handCount := n }
  else if m.hand = thOn then (if lAct && rAct then m else { m with hand := thBlocked })
  else if lRel && rRel then { m with hand := thIdle }
  else m

/-- TWO_HAND (R204) by its four contacts. -/
def judgeTwoHand (limit window : Nat) (l0 l1 r0 r1 : Bool) (cause : Nat) (m : FnMem) : Judged :=
  let lAct := l0 && !l1
  let rAct := r0 && !r1
  let lRel := !l0 && l1
  let rRel := !r0 && r1
  let trL := if lAct || lRel then 0 else m.trL + 1
  let trR := if rAct || rRel then 0 else m.trR + 1
  let bad := decide (limit < trL) || decide (limit < trR)
  let m := { m with trL := trL, trR := trR, handExit := if lRel && rRel then thIdle else thBlocked }
  let m := if m.hand = thFault then m else handStep window lAct rAct lRel rRel m
  { permit := decide (m.hand = thOn), arise := causeIf bad ccAntivalence, mem := m,
    still := causeIf (cause == ccAntivalence && (trL != 0 || trR != 0)) ccAntivalence }

/-- EDM (R206): the configured contacts and the watched output. -/
def judgeEdm (limit : Nat) (c0 c1 : Option Bool) (on : Bool) (cause : Nat) (m : FnMem) : Judged :=
  let wrong (v : Option Bool) : Bool := v == some on
  let e0 := if wrong c0 then m.edm0 + 1 else 0
  let e1 := if wrong c1 then m.edm1 + 1 else 0
  { permit := on || !(c0 == some false || c1 == some false),
    arise := causeIf (decide (limit < e0 ∨ limit < e1)) ccEdm, mem := { m with edm0 := e0, edm1 := e1 },
    still := causeIf (cause == ccEdm && (wrong c0 || wrong c1)) ccEdm }

/-- ANALOG_LIMIT (R207, R208): the two process values, NE 43 of either input, and a failed MFG region. -/
def judgeAnalog (f : FnCfg) (limit : Nat) (p0 p1 : Int) (ne noTrim : Bool) (cause : Nat) (m : FnMem) : Judged :=
  let out (v : Int) : Bool := decide (v < f.lo ∨ f.hi < v)
  let back (v : Int) : Bool := decide (f.lo + f.hyst ≤ v ∧ v ≤ f.hi - f.hyst)
  let apart := decide (f.band < p0 - p1 ∨ f.band < p1 - p0)
  let dem := if out p0 || out p1 then true else if back p0 && back p1 then false else m.limit
  let band := if apart then m.band + 1 else 0
  { permit := !dem && !noTrim, hold := if noTrim then ccAccuracy else 0,
    arise := causeIf (decide (limit < band)) ccAnaDisc ++ causeIf ne ccNe43, mem := { m with limit := dem, band := band },
    still := causeIf (cause == ccAnaDisc && apart) ccAnaDisc }

/-- OPERATOR_RESET (R191, R192, R210): presses of `lo` to `hi` cycles give a pulse of 4 cycles, unless they began in FAULT
(`taint`). -/
def judgeReset (lo hi : Nat) (pressed : Bool) (m : FnMem) : Judged :=
  let left := m.pulse - 1
  let m := if pressed then
      { m with press := m.press + 1, stuck := m.stuck || decide (hi < m.press + 1), pulse := left }
    else
      { m with pulse := if decide (lo ≤ m.press ∧ m.press ≤ hi) && !m.stuck && !m.taint then 4 else left,
               press := 0, stuck := false, taint := false }
  { permit := !m.stuck, hold := if m.stuck then ccDemand else 0, mem := m }

/-- ON_DELAY and OFF_DELAY (R212) with N cycles. -/
def judgeDelay (onDelay : Bool) (n : Nat) (v : Bool) (m : FnMem) : Judged :=
  let ones := if v then min (m.ones + 1) (n + 1) else 0
  let zeros := if v then 0 else min (m.zeros + 1) (n + 1)
  let off := if v then false else if zeros = n + 1 then true else m.off
  { permit := if onDelay then decide (ones = n + 1) else !off, mem := { m with ones := ones, zeros := zeros, off := off } }

/-- The start-up set of an ENVELOPE_SELECT function (R218). -/
def FnCfg.startSet (f : FnCfg) : Nat := lowestBit f.setMask

/-- The selection of an ENVELOPE_SELECT function over one cycle (R217, R218). -/
def selectStep (f : FnCfg) (settle code : Nat) (req : Option Nat) (m : FnMem) : FnMem :=
  if f.modeRequest then { m with sel := some (req.getD f.startSet) }
  else
    let held := if m.code = some code then m.held + 1 else 0
    { m with code := some code, held := min held settle, sel := if settle ≤ held then some code else m.sel }

/-- ENVELOPE_SELECT (R217, R219): `confirmed` is the set confirmed for the group. -/
def judgeSelect (f : FnCfg) (confirmed : Option Nat) (m : FnMem) : Judged :=
  let bad := match m.sel with
    | none => false
    | some s => !nbit f.setMask s
  let ok := m.sel.isSome && m.sel == confirmed && !bad
  { permit := ok, arise := causeIf bad ccSelInvalid, hold := if ok then 0 else ccSelPending, mem := m }

/-- The engines of a group in a channel. -/
def Hw.enginesOf (h : Hw) (c : Chan) (g : Nat) : Nat :=
  match c with
  | .a => h.groupEngines g
  | .b => nmask 16 fun n => h.b.cfg.groupOf n == g

/-- The set confirmed for a group in a channel (R219, R510). -/
def Hw.confirmedSet (h : Hw) (c : Chan) (g : Nat) : Option Nat :=
  let es := engineList (h.enginesOf c g)
  match es with
  | [] => some (Store.get (fun _ => 0) (h.ev c).freeSets g)
  | n :: _ =>
    match c with
    | .a =>
      if es.all fun e => h.bitOf F.CHK_ENV_VLD_VLD 0 e then some (nfield (h.get F.CHK_ENV_ACT_SET (n / 8)) (4 * (n % 8)) 4)
      else none
    | .b => if es.all fun e => (h.bEng e).envOk then some (h.bSel g) else none

/-- The set that counts as confirmed for a group once `sel` is selected: in a group without engines the selection itself
(R219, R510). -/
def Hw.confirmedFor (h : Hw) (c : Chan) (g : Nat) (sel : Option Nat) : Option Nat :=
  if h.enginesOf c g = 0 then sel else h.confirmedSet c g

/-- The safe-touch test of a zone in a channel (R201). -/
def Hw.touchSafe (h : Hw) (c : Chan) (z : Nat) : Bool :=
  match c with
  | .a => h.touchOk z
  | .b =>
    (List.range 16384).all fun t =>
      h.b.cfg.zoneOf t != z || decide (Store.get h.b.coldOf h.b.slotTiles t ≤ (h.bParams (t / 1024) z).touch)

/-- Every zone of ZMASK has been closed for T_ZC and is safe to touch in a channel (R201). -/
def Hw.zonesSafe (h : Hw) (c : Chan) (f : FnCfg) : Bool :=
  let n := max 1 (h.cycles c f.tZc)
  (List.range 64).all fun z =>
    !nbit f.zmask z || (decide (n ≤ Store.get (fun _ => 0) (h.ev c).closed z) && h.touchSafe c z)

/-- A reported test-pulse fault on a DI of the function (R198). -/
def Hw.tpReported (h : Hw) (c : Chan) (f : FnCfg) : Bool :=
  (List.range 4).any fun k => srcKind (f.src k) == .di && nbit (h.ev c).img.tpf (nfield (f.src k) 0 12)

/-- The judgement of function `n` by its type. R196 gives the neutral value of an input of kind NONE for AND, OR,
ZONE_EMISSION and OUTPUT; in the other types the model takes 1 for a contact, a lock or an unlock request, a hand and a
delay, and 0 for IN2 of EDM, a reset button, a peer bit and a code bit (DESIGN CHOICE, log entry 87). -/
def Hw.judgeType (h : Hw) (c : Chan) (f : FnCfg) (s : FnState) (m : FnMem) : Judged :=
  let v (k : Nat) : Bool := h.inVal c f k true
  let img := (h.ev c).img
  let ct := contacts f.ncno (v 0) (v 1)
  let cli (k : Nat) : Nat := nfield (f.src k) 0 12
  let all4 := v 0 && v 1 && v 2 && v 3
  match f.type with
  | 0x01 => judgePair (h.cycles c f.tSync) ct.1 ct.2 m
  | 0x02 => judgePair (h.cycles c f.tSync) ct.1 ct.2 m
  | 0x03 =>
    judgeGuardLock (h.cycles c f.tSync) (h.cycles c f.tPlaus) ct.1 ct.2 (v 2) (v 3) (h.zonesSafe c f) m
  | 0x04 => judgeTwoHand (h.cycles c f.tSync) (500000 / h.tc c) (v 0) (v 1) (v 2) (v 3) s.cause m
  | 0x05 => judgePair (h.cycles c f.tSync) (v 0) (v 1) m
  | 0x06 => judgeEdm (h.cycles c f.tEdm) (h.srcVal c (f.src 0)) (h.srcVal c (f.src 1)) (h.inVal c f 2 false) s.cause m
  | 0x07 =>
    judgeAnalog f (h.cycles c f.tBand) (img.pv.getD (cli 0) 0) (img.pv.getD (cli 1) 0) (nbit img.ne (cli 0) || nbit img.ne (cli 1))
      (h.on F.CLI_STAT_NOTRIM (cli 0)) s.cause m
  | 0x08 => { permit := all4, mem := m }
  | 0x09 => judgeReset (h.cycles c 50) (3000000 / h.tc c) (h.inVal c f 0 false) m
  | 0x0A => { permit := all4, mem := m }
  | 0x0B => { permit := (List.range 4).any fun k => h.inVal c f k false, mem := m }
  | 0x0C => judgeDelay true (h.cycles c f.delay) (v 0) m
  | 0x0D => judgeDelay false (h.cycles c f.delay) (v 0) m
  | 0x0E =>
    let ok := nbit img.peerOk (nfield (f.src 0) 0 12 / 64)
    { permit := ok && h.inVal c f 0 false, hold := if ok then 0 else ccPeer, mem := m }
  | 0x0F =>
    let bad := match f.target with
      | .so n => nbit img.soCond n
      | .none => false
      | .seo _ => false
      | .peerOut _ _ => false
    { permit := all4, arise := causeIf bad ccOutFault, mem := m }
  | 0x10 =>
    let code := nmask 4 fun k => h.inVal c f k false
    let m := selectStep f (h.cycles c f.settle) code (Store.get (fun _ => none) (h.ev c).req f.group) m
    judgeSelect f (h.confirmedFor c f.group m.sel) m
  | _ => { mem := m }

/-- The cross-discrepancy count of function `n` (R183). -/
def Hw.xdCount (h : Hw) (c : Chan) (n : Nat) : Nat := Store.get (fun _ => 0) (h.ev c).xd n

/-- The judgement of function `n` with the conditions common to every type: TP (R198), XDISC (R183), CFG (R186) and
PARTNER (R184). -/
def Hw.judge (h : Hw) (c : Chan) (n : Nat) : Judged :=
  let f := h.fn c n
  let s := h.fnState c n
  let j := h.judgeType c f s (h.fnMem c n)
  let tp := h.tpReported c f
  let own := causeIf tp ccTp ++ causeIf (decide (f.disc < h.xdCount c n)) ccXdisc ++
    causeIf (nbit (h.ev c).parCause n) ccPartner ++ causeIf (h.ev c).cfgBad ccCfg
  { j with arise := own ++ j.arise, still := causeIf (s.cause == ccXdisc && h.xdCount c n != 0) ccXdisc ++ j.still }

/-- The fault conditions of a function that are present (R512). -/
def Judged.present (j : Judged) : List Nat := j.arise ++ j.still

/-- A condition of the function's own is present; the partner's report is not one (R181, R184). -/
def Judged.ownPresent (j : Judged) : Bool := j.present.any (· != ccPartner)

/-! ### The state table (R188, R189, R190, R512) -/

/-- The lowest code of a list of causes. -/
def lowestCause (l : List Nat) : Nat := l.foldl min 0xFF

/-- RESTART as a function takes it: an ESTOP function MANUAL and a TWO_HAND function AUTO whatever its configuration holds
(R199, R205). -/
def FnCfg.restartManual (f : FnCfg) : Bool := f.type == ftEstop || (f.manual && f.type != ftTwoHand)

/-- What arrives at a function in one cycle: a judgement, a valid reset, a rising trip input, its RESTART, and whether it has a reset source and a type that leaves FAULT by itself (R210). -/
structure FnEvent where
  j : Judged
  reset : Bool := false
  rise : Bool := false
  manual : Bool := true
  hasReset : Bool := true
  selfReset : Bool := false
deriving DecidableEq, Repr

/-- A function in FAULT over one cycle: the state, and whether a valid reset was refused. -/
def faultStep (e : FnEvent) (s : FnState) : FnState × Bool :=
  if e.reset || e.selfReset then
    if e.j.present.isEmpty then
      let s := { s with rstreq := false, tripped := s.tripped && !e.reset }
      (if e.j.permit then { s with state := fsRun, cause := ccNone }
       else { s with state := fsSafe, cause := if e.j.hold = 0 then ccDemand else e.j.hold }, false)
    else (if e.reset then { s with cause := lowestCause e.j.present } else s, e.reset)
  else (s, false)

/-- A function outside FAULT over one cycle; `started` says that it has left STARTUP (R188, R189). A rising trip input
prevails over a valid reset of the same cycle, which is then not accepted (DESIGN CHOICE, log entry 89), and over a demand of the same
cycle, which then gives neither cause nor RSTREQ (DESIGN CHOICE, log entry 129): the spec gives no order. An OPERATOR_RESET function,
which no reset can serve, has no interlock (R210). -/
def liveStep (e : FnEvent) (started : Bool) (s : FnState) : FnState :=
  let demand := if e.j.hold = 0 then ccDemand else e.j.hold
  if !e.j.arise.isEmpty then { s with state := fsFault, cause := lowestCause e.j.arise, rstreq := true }
  else if e.rise then { s with state := fsSafe, tripped := true, cause := ccTrip }
  else if s.state = fsRun then
    if e.j.permit then s
    else { s with state := fsSafe, cause := demand, rstreq := (s.rstreq || e.manual) && !e.reset }
  else
    let s := if e.reset then { s with rstreq := false, tripped := false } else s
    let interlock := s.rstreq && !e.selfReset && (e.hasReset || started)
    if e.j.permit && !interlock && !s.tripped then { s with state := fsRun, cause := ccNone, rstreq := false }
    else if (e.reset || e.j.hold != 0) && !e.j.permit && !s.tripped then { s with cause := demand }
    else s

/-- One cycle of a function (R188): its state and whether a valid reset was refused. -/
def fnStep (e : FnEvent) (started : Bool) (s : FnState) : FnState × Bool :=
  let (t, refused) := if s.state = fsFault then faultStep e s else (liveStep e started s, false)
  ({ t with causeOn := decide (t.state = fsFault) && e.j.ownPresent }, refused)

/-- What a function keeps once the cycle has decided whether it stands in FAULT: no unlock in FAULT (R201), the hand state
FAULT exactly in FAULT (R204), and no pulse in FAULT nor of a press that began in it (R210). -/
def FnMem.settled (type : Nat) (fault : Bool) (m : FnMem) : FnMem :=
  if type = ftGuardLock then { m with unlock := m.unlock && !fault }
  else if type = ftTwoHand then { m with hand := if fault then thFault else if m.hand = thFault then m.handExit else m.hand }
  else if type = ftReset then
    { m with taint := if m.press = 1 then fault else m.taint, pulse := if fault then 0 else m.pulse }
  else m

/-! ### Valid resets (R188, R190, R193, R216, R264) -/

/-- The zones whose TRIPFN names function `n` in a channel. -/
def Hw.tripZones (h : Hw) (c : Chan) (n : Nat) : Nat :=
  match c with
  | .a => nmask 64 fun z => h.get F.ZONE_CFG_TRIPFN z == n && h.on F.ZONE_STAT_LOADED z
  | .b => nmask 64 fun z => Store.get (fun _ => 256) h.b.cfg.tripFn z == n

/-- The zones with their trip latch set, as a channel sees them. -/
def Hw.trips (h : Hw) : Chan → Nat
  | .a => nmask 64 fun z => h.on F.ZONE_STAT_TRIP z
  | .b => h.b.trip

/-- The SO pair that a function drives. -/
def FnCfg.soTarget (f : FnCfg) : Option Nat :=
  if f.type = ftGuardLock then some f.lockout
  else if f.type = ftOutput then
    match f.target with
    | .so n => some n
    | .none => none
    | .seo _ => none
    | .peerOut _ _ => none
  else none

/-- The SEO line that a function drives. -/
def FnCfg.seoTarget (f : FnCfg) : Option Nat :=
  if f.type = ftOutput then
    match f.target with
    | .seo n => some n
    | .none => none
    | .so _ => none
    | .peerOut _ _ => none
  else none

/-- Channel B's engine fault clears when its cause has gone, and its drive latch with it (R150, R216). -/
def Hw.seoClrB (h : Hw) (n : Nat) : Hw :=
  let e := h.bEng n
  if e.fault = .seoRb ∧ e.stuck.isSome ∧ e.stuck ≠ some false then h
  else h.updBEng n fun e => { e with fault := .none, stuck := none, latch := false }

/-- What a channel does in the cycle in which function `n` accepts a valid reset (R97, R190, R216, R264). -/
def Hw.onReset (h : Hw) (c : Chan) (n : Nat) : Hw :=
  let f := h.fn c n
  let h := match c with
    | .a => h.forUpTo 64 fun z h => h.when (nbit (h.tripZones .a n) z) fun h => (h.setB F.ZONE_STAT_TRIP z false).tripHolds z
    | .b => h
  let h := match f.soTarget with
    | none => h
    | some k =>
      h.updFio fun x =>
        let free := (h.so k).state == .off
        match c with
        | .a => { x with clrA := nsetBit x.clrA k true, latchA := if free then nsetBit x.latchA k false else x.latchA }
        | .b => { x with clrB := nsetBit x.clrB k true, latchB := if free then nsetBit x.latchB k false else x.latchB }
  match f.seoTarget with
  | none => h
  | some k =>
    match c with
    | .a => (h.seoFltClr k).seoUnlatch k
    | .b => h.seoClrB k

/-! ### Evaluation of one cycle -/

/-- Change a bit of the program's results of a channel. -/
def Hw.setResult (h : Hw) (c : Chan) (n : Nat) (b : Bool) : Hw := h.updEv c fun e => { e with res := nsetBit e.res n b }

/-- SFN_IN of function `n` (channel A): configured inputs and their values. -/
def Hw.showInputs (h : Hw) (n : Nat) : Hw :=
  let f := h.fn .a n
  let cliOk (k : Nat) : Bool :=
    let v := h.evA.img.pv.getD (nfield (f.src k) 0 12) 0
    decide (f.lo ≤ v ∧ v ≤ f.hi)
  (h.set F.SFN_IN_USED n (nmask 4 fun k => srcKind (f.src k) != .none)).set F.SFN_IN_VAL n
    (nmask 4 fun k => if srcKind (f.src k) == .cli then cliOk k else (h.srcVal .a (f.src k)).getD false)

/-- The selection of a group in a channel changes: channel B changes the set that its tile check uses, and a group
without engines counts the set as confirmed (R219, R510). -/
def Hw.takeSelection (h : Hw) (c : Chan) (g set : Nat) : Hw :=
  let h := if h.enginesOf c g = 0 then
      h.updEv c fun e => { e with freeSets := Store.put (fun _ => 0) e.freeSets g set }
    else h
  match c with
  | .a => h
  | .b =>
    if h.bSel g = set then h
    else
      let h := { h with b := { h.b with sel := Store.put (fun _ => 0) h.b.sel g set } }
      h.forUpTo 16 fun n h => h.when (h.b.cfg.groupOf n == g) (·.updBEng n fun e => { e with envOk := false })

/-- An ENVELOPE_SELECT function holds the zones of its group closed while its selection is not the confirmed set
(R219). -/
def Hw.notePending (h : Hw) (c : Chan) (f : FnCfg) (m : FnMem) : Hw :=
  let h := match m.sel with
    | none => h
    | some s => h.takeSelection c f.group s
  let ok := m.sel.isSome && m.sel == h.confirmedFor c f.group m.sel
  h.updEv c fun e => { e with pend := nsetBit e.pend f.group !ok }

/-- A function of channel B in a group whose GSAFE bit is set (R185); TRIPPED stands until a valid reset (R190). -/
def groupSafeStep (rise : Bool) (s : FnState) : FnState :=
  { state := fsSafe, rstreq := true, tripped := s.tripped || rise, cause := ccGroupSafe, causeOn := false }

/-- Function `n` in a cycle (R178, R188). -/
def Hw.evalFn (h : Hw) (c : Chan) (n : Nat) : Hw :=
  let f := h.fn c n
  let safe := h.pairSafe c f.pair
  if safe ∧ c = .a then (h.putFnMem .a n { started := true }).setResult .a n false
  else
    let reset := match f.ridx with
      | none => false
      | some i => f.type != ftReset && nbit (h.ev c).accept i
    let s := h.fnState c n
    let m := h.fnMem c n
    let trips := h.trips c &&& h.tripZones c n
    let rise := trips &&& m.trips != trips
    let j := h.judge c n
    let e : FnEvent := { j := j, reset := reset, rise := rise, manual := f.restartManual && f.type != ftReset,
                         hasReset := f.ridx.isSome && f.type != ftReset, selfReset := decide (f.type = ftReset) }
    let (t, refused) := if safe then (groupSafeStep rise s, false) else fnStep e m.started s
    let taken := reset && !safe && t.state != fsFault && !(rise && s.state != fsFault)
    let m1 := { j.mem.settled f.type (t.state == fsFault) with
                  trips := if taken && c == .a then 0 else trips, started := m.started || taken || t.state != fsSafe }
    let h := (h.putFnState c n t).putFnMem c n m1
    let h := (h.setResult c n (t.state == fsRun)).when taken (·.onReset c n)
    let h := h.when (f.type == ftEnvSelect) (·.notePending c f m1)
    match c with
    | .b => h
    | .a =>
      let h := h.when refused (·.setB F.SFN_STAT_RST_REFUSED n true)
      let h := h.fnChange n s.bits t.bits
      h.showInputs n

/-- The RST bits of a channel: pulses of OPERATOR_RESET functions that are not in FAULT (R191, R210). -/
def Hw.resetPulses (h : Hw) (c : Chan) : Nat :=
  nmask 16 fun i => (h.fnList c).any fun n =>
    let f := h.fn c n
    f.type == ftReset && f.ridx == some i && (h.fnMem c n).pulse != 0 && (h.fnState c n).state != fsFault

/-- The zones of the groups that a channel holds closed (R219). -/
def Hw.zonesHeld (h : Hw) (c : Chan) : Nat :=
  match c with
  | .a => h.zonesOf (nmask 16 fun n => nbit h.evA.pend (nfield (h.get F.CHK_EGRP_GROUP (n / 8)) (4 * (n % 8)) 4))
  | .b => nmask 64 fun z =>
      (List.range 16).any fun n => nbit h.evB.pend (h.b.cfg.groupOf n) && engineHasZone h.b.cfg.zmap n z

/-- The zone bits that the functions of a channel ask for, less those of groups held closed (R209, R219). -/
def Hw.zoneBits (h : Hw) (c : Chan) : Nat :=
  let ask := (h.fnList c).foldl (fun m n =>
    let f := h.fn c n
    if f.type = ftZone ∧ nbit (h.ev c).res n = true then nsetBit m f.zone true else m) 0
  if (h.ev c).pend = 0 then ask
  else
    let held := h.zonesHeld c
    nmask 64 fun z => nbit ask z && !nbit held z

/-- The channel A program writes the owned outputs of its results (R202, R209, R215, R216). -/
def Hw.writeOwned (h : Hw) : Hw :=
  let zb := h.zoneBits .a
  let h := h.forUpTo 64 fun z h => h.putOwned (slotZone z) (bit (nbit zb z))
  let h := h.forEach (h.fnList .a) fun n h =>
    let f := h.fn .a n
    let run := nbit h.evA.res n
    let h := match f.soTarget with
      | none => h
      | some k =>
        let on := if f.type = ftGuardLock then (h.fnMem .a n).unlock else run
        h.putOwned (slotSo k) (bit (on && !nbit h.fio.latchA k))
    match f.seoTarget with
    | none => h
    | some k => h.putOwned (slotSeo k) (bit (run && !(h.lane k).seoLatch))
  h.forUpTo 32 fun i h =>
    let p := i / 2
    let w := i % 2
    h.putOwned (slotPeer p w) (nmask 32 fun k => (h.fnList .a).any fun n =>
      decide ((h.fn .a n).type = ftOutput ∧ (h.fn .a n).target = .peerOut p (32 * w + k)) && nbit h.evA.res n)

/-- The bits of SFN_RST.STUCK of presses that have ended clear. -/
def Hw.clearStuck (h : Hw) : Hw :=
  h.forUpTo 16 fun i h =>
    h.when (!(h.fnList .a).any fun n =>
      (h.fn .a n).type == ftReset && (h.fn .a n).ridx == some i && (h.fnMem .a n).stuck) (·.setBit F.SFN_RST_STUCK 0 i false)

/-- A channel evaluates one cycle. -/
def Hw.evaluate (h : Hw) (c : Chan) : Hw :=
  let h := h.forEach (h.fnList c) fun n h => h.evalFn c n
  let h := h.updEv c fun e => { e with rst := h.resetPulses c, accept := 0, done := true }
  match c with
  | .a => h.writeOwned.clearStuck
  | .b => h

/-! ### Outputs of a cycle (R177, R215, R219) -/

/-- A channel counts for each zone the cycles for which its own bit has been 0 (R201). -/
def Hw.countClosed (h : Hw) (c : Chan) : Hw :=
  let isOpen (z : Nat) : Bool := match c with
    | .a => h.zopen z
    | .b => nbit h.b.zones z
  h.updEv c fun e =>
    { e with closed := (List.range 64).foldl (fun m z =>
        Store.put (fun _ => 0) m z (if isOpen z then 0 else Store.get (fun _ => 0) m z + 1)) e.closed }

/-- The envelope image place of a set and group in staging, in 64-byte units. -/
def Hw.envPlace (h : Hw) (g set : Nat) : Nat := Store.get (fun _ => 0) h.cfg.envSrc (16 * g + set)

/-- The channel A program writes CHK_ENV_SRC and CHK_ENV_CTL to load a set (R119). -/
def Hw.loadSet (h : Hw) (g set : Nat) : Hw :=
  envCtlWrite (65536 * g + 256 * set + 1) (h.set F.CHK_ENV_SRC_ADDR 0 (h.envPlace g set))

/-- The selection of a group in channel A. -/
def Hw.selectionA (h : Hw) (g : Nat) : Option Nat :=
  match (h.fnList .a).find? fun n => (h.fn .a n).type == ftEnvSelect && (h.fn .a n).group == g with
  | none => none
  | some n => (h.fnMem .a n).sel

/-- Channel A starts the load of a selection in the first cycle after the closed zone bits of its group have been
applied (R219). -/
def Hw.startLoads (h : Hw) : Hw :=
  let closed := h.evA.pendApplied
  let h := h.forUpTo 16 fun g h =>
    if nbit h.evA.pend g then
      match h.selectionA g with
      | none => h
      | some s =>
        if nbit closed g && Store.get (fun _ => none) h.evA.loaded g != some s && h.get F.CHK_ENV_STAT_STATE 0 == envIdle then
          (h.updEv .a fun e => { e with loaded := Store.put (fun _ => none) e.loaded g (some s) }).loadSet g s
        else h
    else h.updEv .a fun e => { e with loaded := Store.put (fun _ => none) e.loaded g none }
  h.updEv .a fun e => { e with pendApplied := e.pend }

/-- The last load of a group ended with a result other than OK. -/
def Hw.envFailed (h : Hw) (g : Nat) : Bool :=
  let r := Store.get (fun _ => erNone) h.envRes g
  r != erNone && r != erOk

/-- ENV_LOAD_RETRY: channel A repeats a load that ended with a result other than OK while the selection stands (R220). -/
def Hw.envRetry (h : Hw) (g : Nat) : Hw :=
  match h.selectionA g with
  | none => h
  | some s =>
    if nbit h.evA.pend g && Store.get (fun _ => none) h.evA.loaded g == some s && h.get F.CHK_ENV_STAT_STATE 0 == envIdle &&
        h.envFailed g then h.loadSet g s else h

/-- The outputs of a function whose group overran are applied as off (R179). -/
def Hw.dropOverrun (h : Hw) : Hw :=
  h.forEach (h.fnList .a) fun n h =>
    if nbit h.evA.ovr n then
      let f := h.fn .a n
      let h := match f.soTarget with
        | none => h
        | some k => h.putApplied (slotSo k) 0
      let h := match f.seoTarget with
        | none => h
        | some k => h.putApplied (slotSeo k) 0
      let h := h.when (f.type == ftZone) (·.putApplied (slotZone f.zone) 0)
      match f.target with
      | .peerOut p k =>
        h.when (f.type == ftOutput) fun h =>
          h.putApplied (slotPeer p (k / 32)) (nsetBit (h.appliedAt (slotPeer p (k / 32))) (k % 32) false)
      | .none => h
      | .so _ => h
      | .seo _ => h
    else h

/-- OUTPUTS_APPLIED: a channel applies its outputs of the cycle at t2, channel A those frozen at t1 (R177, R254); a drive
latch holds its switch off (R215, R263). -/
def Hw.applyOutputs (h : Hw) (c : Chan) : Hw :=
  if h.devLive then
    match c with
    | .a =>
      let h := h.forEach outputSlots fun s h => h.putApplied s (if h.forcedPair (h.ownerPair s) then 0 else Store.get (fun _ => 0) h.evA.out s)
      let h := h.dropOverrun
      let h := h.updFio fun x => { x with cmdP := nmask 16 fun n => h.appliedAt (slotSo n) != 0 && !nbit x.latchA n }
      (h.countClosed .a).startLoads
    | .b =>
      let run (n : Nat) : Bool := nbit h.evB.sentRes n && !h.pairSafe .b (h.fn .b n).pair
      let ask := h.zoneBits .b
      let zoneFns := (h.fnList .b).filter fun n => (h.fn .b n).type == ftZone
      let h := { h with b := { h.b with zones := nmask 64 fun z =>
                                          nbit ask z && zoneFns.any fun n => (h.fn .b n).zone == z && run n } }
      let h := h.forEach (h.fnList .b) fun n h =>
        let f := h.fn .b n
        let h := match f.soTarget with
          | none => h
          | some k =>
            let on := if f.type = ftGuardLock then (h.fnMem .b n).unlock && !h.pairSafe .b f.pair else run n
            h.updFio fun x => { x with cmdM := nsetBit x.cmdM k (on && !nbit x.latchB k) }
        match f.seoTarget with
        | none => h
        | some k =>
          h.updBEng k fun e =>
            let latch := e.latch || decide (e.fault ≠ .none)
            { e with latch := latch, cellPermit := run n && !latch }
      let h := h.updEv .b fun e =>
        { e with peerOut := (List.range 16).foldl (fun m p => Store.put (fun _ => 0) m p (nmask 64 fun k =>
            (h.fnList .b).any fun n =>
              decide ((h.fn .b n).type = ftOutput ∧ (h.fn .b n).target = .peerOut p k) && run n)) e.peerOut }
      h.countClosed .b
  else h

/-! ### The exchange (R181 to R186, R193, R194) -/

/-- The CRC-32 of exchange frames over bytes 0 to 87 (R181). -/
def exchangeCheck (bs : List Byte) : Nat := crcOf crc32Params (bs.take 88)

/-- The configuration digest of a channel. -/
def Hw.cfgDigest (h : Hw) : Chan → List Byte
  | .a => h.getBytes .GLB_CFGDIG 8
  | .b => h.b.digest

/-- DIGFRAG of cycle `cy` in a channel (R181). -/
def Hw.digFrag (h : Hw) (c : Chan) (cy : Nat) : List Byte :=
  let l := ((h.cfgDigest c).drop (4 * (cy % 8))).take 4
  l ++ List.replicate (4 - l.length) 0

/-- The exchange frame of a channel for cycle `cy` (R181). -/
def Hw.exchangeFrame (h : Hw) (c : Chan) (cy gsafe : Nat) : List Byte :=
  let e := h.ev c
  let a := decide (c = .a)
  let body := bytesLE 1 (if a then 0x5A else 0xA5) ++ bytesLE 1 1 ++ bytesLE 1 (if a then gsafe else 0) ++
    bytesLE 1 (if a then 0 else bit e.missed) ++ bytesLE 4 cy ++ bytesLE 32 e.sentRes ++ bytesLE 32 e.sentCause ++
    bytesLE 2 e.rst ++ bytesLE 2 0 ++ bytesLE 8 (if a then h.trips .a else 0) ++ h.digFrag c cy
  body ++ bytesLE 4 (exchangeCheck body)

/-- A number in a frame. -/
def frameNum (bs : List Byte) (off n : Nat) : Nat := ofBytesLE ((bs.drop off).take n)

/-- The frame passes its check value, KIND and VER at the receiving channel (R182). -/
def exchangeOk (c : Chan) (bs : List Byte) : Bool :=
  decide (bs.length = 92 ∧ frameNum bs 88 4 = exchangeCheck bs) && frameNum bs 0 1 == (match c with
    | .a => 0xA5
    | .b => 0x5A) && frameNum bs 1 1 == 1

/-- Show a 256-bit vector in eight registers. -/
def Hw.setVector (h : Hw) (f : Fld) (v : Nat) : Hw := h.forUpTo 8 fun k h => h.set f k (nfield v (32 * k) 32)

/-- The cross-discrepancy counts after an exchange (R183). -/
def Hw.countXd (h : Hw) (c : Chan) (own par : Nat) : Hw :=
  let h := h.forEach (h.fnList c) fun n h =>
    h.updEv c fun e =>
      let v := if nbit own n = nbit par n then 0 else Store.get (fun _ => 0) e.xd n + 1
      { e with xd := Store.put (fun _ => 0) e.xd n v }
  match c with
  | .b => h
  | .a =>
    let h := h.forEach (h.fnList .a) fun n h =>
      ((h.set F.SFN_STAT_XDCNT n (min (h.xdCount .a n) 0xFFF)).setB F.SFN_STAT_BRES n (nbit par n)).setB F.SFN_STAT_BCAUSE n
        (nbit h.evA.parCause n)
    let h := h.setVector F.SFN_XDV_BITS (nmask 256 fun n => h.xdCount .a n != 0)
    h.when ((h.fnList .a).any fun n => decide ((h.fn .a n).disc < h.xdCount .a n)) (·.raise 40)

/-- Acceptance of operator resets after an exchange: the RST bits of both channels (R193, R194). -/
def Hw.acceptResets (h : Hw) (c : Chan) (own par : Nat) : Hw :=
  let e := h.ev c
  let both := own &&& par
  let any := own ||| par
  let acc := nmask 16 fun i => nbit both i && !nbit e.rstOver i
  let passed := nmask 16 fun i => (nbit e.rstOver i || nbit both i) && nbit any i
  let seenOwn := e.rstOwn ||| own
  let seenPar := e.rstPar ||| par
  let single := (List.range 16).filter fun i =>
    !nbit any i && !nbit e.rstOver i && (nbit seenOwn i != nbit seenPar i)
  let h := h.updEv c fun e =>
    { e with accept := acc, rstOver := passed, rstOwn := nmask 16 fun i => nbit seenOwn i && nbit any i,
             rstPar := nmask 16 fun i => nbit seenPar i && nbit any i }
  match c with
  | .a =>
    let h := h.bump F.SFN_RSTONE_COUNT 0 single.length
    let h := h.set F.SFN_RST_ACCEPTED 0 (h.get F.SFN_RST_ACCEPTED 0 ||| acc)
    let h := h.when (acc != 0) (·.raise 42)
    h.when (acc != 0 && h.dev == devStartup) (·.set F.GLB_STATE_STATE 0 devRun)
  | .b => if acc = 0 then h else { h with b := { h.b with brun := true } }

/-- A channel takes an exchange, or a missed one as all 0 (R182 to R186), applies the outputs of the cycle and evaluates
the next. A digest difference that either channel finds raises event 46 and faults the functions of both (R186). -/
def Hw.takeExchange (h : Hw) (c : Chan) (frame : Option (List Byte)) : Hw :=
  let e := h.ev c
  let num (off n : Nat) : Nat := match frame with
    | none => 0
    | some bs => frameNum bs off n
  let par := num 8 32
  let parCause := num 40 32
  let parRst := num 72 2
  let h := h.updEv c fun e => { e with waiting := false, parCause := parCause, missed := frame.isNone }
  let h := match c with
    | .a =>
      let h := ((h.setVector F.SFN_RESA_BITS e.sentRes).setVector F.SFN_RESB_BITS par).setVector F.SFN_CAUSEB_BITS parCause
      let h := h.setB F.SFN_XSTAT_OK 0 frame.isSome
      let h := h.when frame.isNone fun h => (h.bump F.SFN_XMISS_COUNT 0 1).raise 44
      h.when (nbit (num 3 1) 0) fun h => ((h.setB F.SFN_XSTAT_BMISS 0 true).bump F.SFN_XMISS_COUNT 0 1).raise 44
    | .b =>
      let h := h.updEv .b fun e => { e with gsafe := num 2 1 }
      if frame.isSome then { h with b := { h.b with trip := num 76 8 } } else h
  let differs := match frame with
    | none => false
    | some bs => (bs.drop 84).take 4 != h.digFrag c (e.cycle - 1)
  let h := h.when differs fun h =>
    let h := ((h.when (c == .a) (·.setB F.SFN_XSTAT_CFGFRAG 0 true)).updEv .a fun e => { e with cfgBad := true }).updEv .b fun e =>
      { e with cfgBad := true }
    h.raise 46
  let h := (h.countXd c e.sentRes par).acceptResets c e.rst parRst
  (h.applyOutputs c).evaluate c

/-- The first exchange frame on its way to channel A, and the messages without it. -/
def takeXchgA : List BtoA → Option (List Byte × List BtoA)
  | [] => none
  | .exchange bs :: ms => some (bs, ms)
  | m :: ms => (takeXchgA ms).map fun p => (p.1, m :: p.2)

/-- The first exchange frame on its way to channel B, and the messages without it. -/
def takeXchgB : List AtoB → Option (List Byte × List AtoB)
  | [] => none
  | .exchange bs :: ms => some (bs, ms)
  | m :: ms => (takeXchgB ms).map fun p => (p.1, m :: p.2)

/-- Take the next exchange frame on its way to a channel. -/
def Hw.nextExchange (h : Hw) (c : Chan) : Option (List Byte × Hw) :=
  match c with
  | .a => (takeXchgA h.toA).map fun p => (p.1, { h with toA := p.2 })
  | .b => (takeXchgB h.toB).map fun p => (p.1, { h with toB := p.2 })

/-- A channel that awaits the exchange of its last cycle judges a frame (R182). -/
def Hw.takeFrame (h : Hw) (c : Chan) (bs : List Byte) : Hw :=
  let a := decide (c = .a)
  if !exchangeOk c bs then (h.when a (·.setB F.SFN_XSTAT_CHECK 0 true)).takeExchange c none
  else if frameNum bs 4 4 ≠ ((h.ev c).cycle - 1) % 2 ^ 32 then
    (h.when a (·.setB F.SFN_XSTAT_CYCLE 0 true)).takeExchange c none
  else h.takeExchange c (some bs)

/-- EXCHANGE_TIMEOUT: no frame by t1 + 30 µs (R182). -/
def Hw.exchangeTimeout (h : Hw) (c : Chan) : Hw :=
  if (h.ev c).waiting then
    (h.when (decide (c = .a)) (·.setB F.SFN_XSTAT_LATE 0 true)).takeExchange c none
  else h

/-! ### Cycle boundaries and frames -/

/-- The channel evaluates: SFN_CTL.START in channel A, the B-die's own state in channel B, and the device in a state in
which functions are evaluated (R221). -/
def Hw.evaluating (h : Hw) (c : Chan) : Bool :=
  h.devLive && (match c with
    | .a => h.on F.SFN_CTL_START 0
    | .b => h.b.evaluating)

/-- SFN_START: SFN_CTL.START is written 1 (R176), a cycle boundary for the timers (R344). -/
def Hw.sfnStart (h : Hw) : Hw :=
  if h.on F.SFN_CTL_START 0 then h else ((h.setB F.SFN_CTL_START 0 true).latchImage .a).pulse 0xC0

/-- A frame that came before t1 of its cycle is taken at t1 (R182). -/
def Hw.takeEarly (h : Hw) (c : Chan) : Hw :=
  match (h.ev c).early with
  | none => h
  | some bs => (h.updEv c fun e => { e with early := none }).takeFrame c bs

/-- The functions of the groups in `late` that have a vote source: their results were not complete by t1 (R179). -/
def Hw.lateFns (h : Hw) (late : Nat) : Nat :=
  nmask 256 fun n => (h.fn .a n).type != 0 && nbit late (h.fn .a n).fgrp && !h.forcedPair (h.fn .a n).pair

/-- The results and outputs of channel A as frozen at t1: the images of the vote sources, with forced pairs and late groups as SAFE
(R177, R179, R224, R254, R316, R318, R324). -/
def Hw.freezeA (h : Hw) (late : Nat) : Hw :=
  let ovr := h.lateFns late
  let live (n : Nat) : Bool := (h.fn .a n).type != 0 && !h.forcedPair (h.fn .a n).pair && !nbit ovr n
  let res := nmask 256 fun n => live n && (h.fnState .a n).state == fsRun
  let cause := nmask 256 fun n => live n && (h.fnState .a n).causeOn
  let groups := (List.range 16).filter fun g => (h.fnList .a).any fun n => (h.fn .a n).fgrp == g && nbit ovr n
  let out := outputSlots.foldl (fun m s => Store.put (fun _ => 0) m s (h.owned s)) []
  (h.bump F.SFN_OVRCNT_COUNT 0 groups.length).updEv .a fun e =>
    { e with sentRes := res, sentCause := cause, out := out, ovr := ovr }

/-- The GSAFE byte of channel A's exchange frame (R181). -/
def Hw.gsafeByte (h : Hw) : Nat := nmask 3 h.forcedPair

/-- EVAL_CYCLE_BOUNDARY: t1 of a cycle of channel A, which is t0 of the next (R176); `late` holds the function groups that
have not completed the cycle. An exchange still outstanding has been missed. -/
def Hw.evalBoundary (h : Hw) (late : Nat) : Hw :=
  if h.evaluating .a then
    let h := h.exchangeTimeout .a
    let h := h.when (!h.evA.done) (·.evaluate .a)
    let h := h.forUpTo 3 fun q h => h.promote q
    let h := h.forUpTo 6 fun p h => h.startingEnds p
    let h := h.freezeA late
    let g := h.gsafeByte
    let h := (h.set F.SFN_XSTAT_GSAFE 0 g).sendB (.exchange (h.exchangeFrame .a h.evA.cycle g))
    let h := (h.updEv .a fun e => { e with cycle := e.cycle + 1, done := false, waiting := true }).wrap F.SFN_CYCLE_COUNT 0
    let h := (h.latchImage .a).pulse 0xC0
    let h := h.forUpTo 6 fun p h => h.coldStart p
    let h := h.forUpTo 6 fun p h => h.rejoinBoundary (h.tc .a) p
    h.takeEarly .a
  else h

/-- A cycle boundary of channel B: t1 of a cycle, which is t0 of the next (R176). -/
def Hw.bTurn (h : Hw) : Hw :=
  let h := h.exchangeTimeout .b
  let h := h.when (!h.evB.done) (·.evaluate .b)
  let res := nmask 256 fun n => (h.fn .b n).type != 0 && (h.fnState .b n).state == fsRun
  let cause := nmask 256 fun n => (h.fn .b n).type != 0 && (h.fnState .b n).causeOn
  let h := h.updEv .b fun e => { e with sentRes := res, sentCause := cause }
  let h := h.sendA (.exchange (h.exchangeFrame .b h.evB.cycle 0))
  let h := h.updEv .b fun e => { e with cycle := e.cycle + 1, done := false, waiting := true }
  (h.latchImage .b).takeEarly .b

/-- Channel B takes its first boundary from the first valid frame `bs` of channel A, with the cycle number that it carries
(R180). -/
def Hw.bAlign (h : Hw) (bs : List Byte) : Hw :=
  (h.updEv .b fun e => { e with aligned := true, cycle := frameNum bs 4 4 }).bTurn

/-- B_CYCLE_BOUNDARY: a cycle boundary of channel B on its own timer; the first one is that which a valid frame of channel A
on its way implies (R180). -/
def Hw.bBoundary (h : Hw) : Hw :=
  if h.evaluating .b then
    if h.evB.aligned then h.bTurn
    else match takeXchgB h.toB with
      | none => h
      | some (bs, _) => if exchangeOk .b bs then h.bAlign bs else h
  else h

/-- EXCHANGE_FRAME_RECEIVED: the partner's frame arrives `us` µs after t1; `altered` is what arrives in place of the frame
that was sent. One that comes after t1 + 30 µs is a missed exchange, and one of the running cycle is kept until its t1
(R180, R182). -/
def Hw.exchangeReceived (h : Hw) (c : Chan) (us : Nat) (altered : Option (List Byte)) : Hw :=
  match h.nextExchange c with
  | none => h
  | some (sent, h) =>
    let bs := altered.getD sent
    let ok := exchangeOk c bs
    let h := h.when (c == .a) (·.set F.SFN_XSTAT_PHASE 0 (min us 0xFF))
    if !h.evaluating c then h
    else if c = .b ∧ h.evB.aligned = false then (if ok then (h.bAlign bs).takeFrame .b bs else h)
    else if (h.ev c).waiting then (if 30 < us then h.exchangeTimeout c else h.takeFrame c bs)
    else if ok then
      h.when (frameNum bs 4 4 == (h.ev c).cycle % 2 ^ 32) (·.updEv c fun e => { e with early := some bs })
    else h.when (c == .a) (·.setB F.SFN_XSTAT_CHECK 0 true)

/-- RESET_STUCK: the press of OPERATOR_RESET function `n` has lasted more than 3 s, which channel A reports (R192). -/
def Hw.resetStuck (h : Hw) (n : Nat) : Hw :=
  let f := h.fn .a n
  match f.ridx with
  | none => h
  | some i =>
    if f.type = ftReset ∧ (h.fnMem .a n).stuck = true ∧ h.bitOf F.SFN_RST_STUCK 0 i = false then
      (h.setBit F.SFN_RST_STUCK 0 i true).raise 43
    else h

end Sys2Proof.Machine
end

