-- ==== Sys2Proof/Machine/Msg.lean ====
section
/-! DEFINITION. Mailbox channels, semaphores, the event router and the rings of the queue pairs (R359 to R385). -/

namespace Sys2Proof.Machine

/-! ### Masters -/

/-- Master IDs (Bus masters). -/
def idHost : Nat := 0x0A
@[inherit_doc idHost] def idBdie : Nat := 0x0B
@[inherit_doc idHost] def idDma : Nat := 0x0C
@[inherit_doc idHost] def idDbg : Nat := 0x0D

/-- A reserved master ID. -/
def reservedId (m : Nat) : Bool := decide (m = 0x0E ∨ m = 0x0F ∨ (0x16 ≤ m ∧ m ≤ 0x1F))

/-- Pod 4 or Pod 5 is split. -/
def Hw.splitFour (h : Hw) : Bool := h.podState 4 == podSplit || h.podState 5 == podSplit

/-- A Pod is the vote source of its pair. -/
def Hw.isVote (h : Hw) (m : Nat) : Bool := decide (m < 6) && h.voteSource (pairOf m) == m

/-- A Pod of a pair that hosts a function group, other than its vote source (R312, R314). -/
def Hw.isStandby (h : Hw) (m : Nat) : Bool := decide (m < 6) && h.podState m == podStandby

/-! ### Mailbox channels -/

/-- An ID and its pair flag name master `m` (R362). -/
def Hw.names (h : Hw) (id : Nat) (pair : Bool) (m : Nat) : Bool :=
  if pair && !(id == 4 && h.splitFour) then decide (m < 6) && pairOf m == pairOf id else m == id

/-- The binding of a channel allows `m` to act as its sender. -/
def Hw.maySend (h : Hw) (ch m : Nat) : Bool :=
  h.on F.MBX_BIND_EN ch && h.names (h.get F.MBX_BIND_SEND ch) (h.on F.MBX_BIND_SPAIR ch) m

/-- The binding of a channel allows `m` to act as its receiver. -/
def Hw.mayTake (h : Hw) (ch m : Nat) : Bool :=
  h.on F.MBX_BIND_EN ch && h.names (h.get F.MBX_BIND_RECV ch) (h.on F.MBX_BIND_RPAIR ch) m

/-- An allowed access takes effect: for a pair binding, only from the pair's vote source (R362). -/
def Hw.mbxActs (h : Hw) (pair : Bool) (m : Nat) : Bool := !h.isStandby m && (!pair || h.isVote m || !decide (m < 6))

/-- A binding violation is recorded (R41, R363). -/
def Hw.mbxViolation (h : Hw) (ch m : Nat) (write : Bool) : Hw :=
  let h := h.bump F.MBX_VIOLCNT_COUNT 0 1
  if h.on F.MBX_VIOL_VALID 0 then h.setB F.MBX_VIOL_OVF 0 true
  else (((h.setB F.MBX_VIOL_VALID 0 true).setB F.MBX_VIOL_WRITE 0 write).set F.MBX_VIOL_CH 0 ch).set F.MBX_VIOL_MASTER 0 m

/-- Channel `ch` is FULL. -/
def Hw.mbxFull (h : Hw) (ch : Nat) : Bool := h.on F.MBX_STAT_FULL ch

/-- The group event of a channel. -/
def mbxEvent (ch : Nat) : Nat := 104 + ch / 4

/-- A write to MBX_MSGk (R363, R365). -/
def mbxMsgWrite (m ch k : Nat) (v : Word) (h : Hw) : Hw :=
  if !h.maySend ch m then h.mbxViolation ch m true
  else if !h.mbxActs (h.on F.MBX_BIND_SPAIR ch) m then h
  else if h.mbxFull ch then h.setB F.MBX_STAT_OVERRUN ch true
  else h.putWord .MBX_MSG (8 * ch + k) v

/-- A write to MBX_SEND (R364, R365). -/
def mbxSendWrite (m ch : Nat) (v : Word) (h : Hw) : Hw :=
  let len := (v.extractLsb' 0 4).toNat
  if !h.maySend ch m then h.mbxViolation ch m true
  else if !h.mbxActs (h.on F.MBX_BIND_SPAIR ch) m then h
  else if h.mbxFull ch then h.setB F.MBX_STAT_OVERRUN ch true
  else if len = 0 ∨ 8 < len then h.setB F.MBX_STAT_BADLEN ch true
  else
    let h := ((h.setB F.MBX_STAT_FULL ch true).set F.MBX_STAT_LEN ch len).set F.MBX_TAKE_LEN ch len
    let sender := if h.on F.MBX_BIND_SPAIR ch then h.get F.MBX_BIND_SEND ch else m
    ((h.setB F.MBX_TAKE_NOTIFY ch (wbit v 16)).set F.MBX_TAKE_SENDER ch sender).raise (mbxEvent ch)

/-- A write to MBX_STAT by the channel's sender clears BADLEN and OVERRUN (R364, R365); for a pair binding only the vote
source's write takes effect (R362). -/
def mbxStatWrite (m ch : Nat) (v : Word) (h : Hw) : Hw :=
  if h.mbxActs (h.on F.MBX_BIND_SPAIR ch) m then h.writeFields .MBX_STAT ch false v else h

/-- A read of MBX_MSGk. -/
def mbxMsgRead (m ch k : Nat) (h : Hw) : Word × Hw :=
  if h.maySend ch m || h.mayTake ch m then (h.word .MBX_MSG (8 * ch + k), h) else (0, h.mbxViolation ch m false)

/-- The word of MBX_TAKE now: WASFULL is FULL. -/
def Hw.mbxTakeWord (h : Hw) (ch : Nat) : Word := putBits (h.word .MBX_TAKE ch) 31 1 (bit (h.mbxFull ch))

/-- The take clears FULL and may raise the TAKEN notice (R366). -/
def Hw.mbxTaken (h : Hw) (ch : Nat) : Hw :=
  if h.mbxFull ch then
    let h := h.setB F.MBX_STAT_FULL ch false
    h.when (h.on F.MBX_TAKE_NOTIFY ch) fun h => (h.setBit F.MBX_TAKEN_CH 0 ch true).raise (mbxEvent ch)
  else h

/-- A read of MBX_TAKE (R362, R363, R366). -/
def mbxTakeRead (m ch : Nat) (h : Hw) : Word × Hw :=
  if !h.mayTake ch m then (0, h.mbxViolation ch m false)
  else (h.mbxTakeWord ch, if h.mbxActs (h.on F.MBX_BIND_RPAIR ch) m then h.mbxTaken ch else h)

/-- The IDs of a binding break a rule of R361. -/
def badBinding (ch : Nat) (v : Word) : Bool :=
  let send := (v.extractLsb' 0 5).toNat
  let recv := (v.extractLsb' 16 5).toNat
  let pairId (id : Nat) : Bool := decide (id = 0 ∨ id = 2 ∨ id = 4)
  reservedId send || reservedId recv || send == recv || (wbit v 5 && !pairId send) || (wbit v 21 && !pairId recv) ||
    (recv == idBdie && ch != 30) || (send == idBdie && ch != 31)

/-- A write to MBX_BIND (R360, R361). -/
def mbxBindWrite (ch : Nat) (v : Word) (h : Hw) : Hw :=
  if badBinding ch v then h else h.writeFields .MBX_BIND ch (h.on F.MBX_LOCK_LOCK 0) v

/-- MBX_FULL: FULL of every channel. -/
def Hw.mbxFullWord (h : Hw) : Nat := nmask 32 h.mbxFull

/-! ### Messages to the B-die (R369, R370) -/

/-- The B-die's message word `k` on channel 31. -/
def Hw.bdieSends (h : Hw) (ws : List Word) : Hw :=
  let h := h.forEach (List.range 8) fun k h =>
    match ws[k]? with
    | some w => mbxMsgWrite idBdie 31 k w h
    | none => h
  mbxSendWrite idBdie 31 (BitVec.ofNat 32 ws.length) h

/-- The ENVELOPE_SELECT function of a group in a channel. -/
def Hw.selectFn (h : Hw) (c : Chan) (g : Nat) : Option Nat :=
  (h.fnList c).find? fun n => (h.fn c n).type == ftEnvSelect && (h.fn c n).group == g

/-- A selection of MODE REQUEST is latched in a channel if IN0 is 1 (R217, R370, R402). -/
def Hw.latchRequest (h : Hw) (c : Chan) (g set : Nat) : Option Hw :=
  match h.selectFn c g with
  | none => none
  | some n =>
    let f := h.fn c n
    if f.modeRequest && h.inVal c f 0 false then
      let h := h.updEv c fun e => { e with req := Store.put (fun _ => none) e.req g (some set) }
      some (if nbit f.setMask set then h.takeSelection c g set else h)
    else none

/-- ENV_REQUEST: the B-die takes the message on channel 30 and answers on channel 31 (R369, R370). -/
def Hw.envRequest (h : Hw) : Hw :=
  if h.on F.XLK_STAT_XLKC_UP 0 && h.mayTake 30 idBdie && h.mbxFull 30 then
    let w0 := h.word .MBX_MSG 240
    let seq := h.word .MBX_MSG 241
    let len := h.get F.MBX_TAKE_LEN 30
    let h := h.mbxTaken 30
    let answer (h : Hw) (status : Nat) : Hw := h.bdieSends [putBits w0 0 8 0x81, seq, BitVec.ofNat 32 status]
    if (w0.extractLsb' 0 8).toNat = 1 ∧ len = 2 then
      match h.latchRequest .b (w0.extractLsb' 8 4).toNat (w0.extractLsb' 12 4).toNat with
      | some h => answer h 0
      | none => answer h 1
    else answer h 2
  else h

/-! ### Semaphores (R371 to R373) -/

/-- Master `m` owns semaphore `n` (R372). -/
def Hw.ownsSem (h : Hw) (n m : Nat) : Bool :=
  h.on F.MBX_SEM_HELD n &&
    (if h.on F.MBX_SEM_PAIR n then h.isVote m && pairOf m == pairOf (h.get F.MBX_SEM_OWNER n)
     else h.get F.MBX_SEM_OWNER n == m)

/-- A Pod acquires for its pair: it is the vote source of a pair that hosts a function group (R372). -/
def Hw.semPair (h : Hw) (m : Nat) : Bool := h.isVote m && !h.pairIdle (pairOf m)

/-- A read of MBX_SEMn; `acquires` says that the reader's class may acquire (R371). -/
def semRead (acquires : Bool) (m n : Nat) (h : Hw) : Word × Hw :=
  let h :=
    if acquires && !h.on F.MBX_SEM_HELD n && !h.isStandby m then
      let pair := h.semPair m
      let owner := if pair then 2 * pairOf m else m
      ((h.setB F.MBX_SEM_HELD n true).setB F.MBX_SEM_PAIR n pair).set F.MBX_SEM_OWNER n owner
    else h
  (putBits (h.word .MBX_SEM n) 31 1 (bit (h.ownsSem n m)), h)

/-- A write to MBX_SEMn (R373). -/
def semWrite (m n : Nat) (v : Word) (h : Hw) : Hw :=
  if wbit v 16 then
    if h.ownsSem n m then h.putWord .MBX_SEM n 0 else h.setBit F.MBX_SEMERR_SEM 0 n true
  else h

/-- MBX_SEMSTAT: the semaphores held. -/
def Hw.semStat (h : Hw) : Nat := nmask 32 fun n => h.on F.MBX_SEM_HELD n

/-! ### Event router (R374 to R377) -/

/-- An INDEX lies in the range of its KIND (R374). -/
def routeOk (kind idx : Nat) : Bool := if kind = 1 then decide (idx < 6) else if kind = 2 then decide (idx < 4) else true

/-- A write to EVT_ROUTE (R374, R377, R503). -/
def evtRouteWrite (n : Nat) (v : Word) (h : Hw) : Hw :=
  let locked := h.on F.EVT_ROUTE_LOCK n
  if !locked && !routeOk (v.extractLsb' 6 2).toNat (v.extractLsb' 0 4).toNat then h else h.writeFields .EVT_ROUTE n locked v

/-- A write to EVT_PEND; host software clears only sources routed to MSI-X (R377). -/
def evtPendWrite (host : Bool) (w : Nat) (v : Word) (h : Hw) : Hw :=
  let keep := nmask 32 fun j => !host || h.get F.EVT_ROUTE_KIND (32 * w + j) == routeMsix
  h.writeFields .EVT_PEND w false (BitVec.ofNat 32 (Nat.land v.toNat keep))

/-- A source is pending and unmasked. -/
def Hw.signals (h : Hw) (e : Nat) : Bool :=
  h.bitOf F.EVT_PEND_PEND (e / 32) (e % 32) && !h.bitOf F.EVT_MASK_MASK (e / 32) (e % 32)

/-- EVT_SIG: the target levels (R374, R375). -/
def Hw.evtSig (h : Hw) : Nat :=
  let es := (List.range 128).filter h.signals
  let sent (kind idx : Nat) : Bool := es.any fun e => h.get F.EVT_ROUTE_KIND e == kind && h.get F.EVT_ROUTE_INDEX e == idx
  nmask 6 (fun p => sent 1 p || (!h.pairIdle (pairOf p) && sent 1 (otherPod p))) + 2 ^ 8 * nmask 4 (sent 2) + 2 ^ 16 * nmask 16 (sent 3)

/-- What an unwritten word of the MSI-X table reads as: a vector is masked until host software unmasks it. -/
def msixDefault (k : Nat) : Word := if k % 4 = 3 then 1 else 0

/-- Word `k` of the MSI-X table. -/
def Hw.msixWord (h : Hw) (k : Nat) : Word := Store.get msixDefault h.msixTbl k

/-- A write to the MSI-X table. -/
def Hw.putMsix (h : Hw) (k : Nat) (v : Word) : Hw :=
  { h with msixTbl := Store.put msixDefault h.msixTbl k
                        (if k % 4 = 3 then v &&& 1 else if k % 4 = 0 then v &&& ~~~3 else v) }

/-- Vector `v` is masked. -/
def Hw.vectorMasked (h : Hw) (v : Nat) : Bool := (h.msixWord (4 * v + 3)).getLsbD 0

/-- The memory write of vector `v`. -/
def Hw.sendVector (h : Hw) (v : Nat) : Hw :=
  h.emit (.msix ((h.msixWord (4 * v)).toNat + 2 ^ 32 * (h.msixWord (4 * v + 1)).toNat) (h.msixWord (4 * v + 2)).toNat)

/-- MSIX_SEND (R376): while the PCI Express link is up, a pending unmasked vector or else the next queued message is sent, or
waits in the pending-bit array while masked; `off` says that PCI Express has the function masked or MSI-X disabled. That the
link has posted credit is what the command says. -/
def Hw.msixSend (h : Hw) (off : Bool) : Hw :=
  if !h.boot.pcieUp then h
  else match (List.range 16).find? fun v => !off && nbit h.msixPba v && !h.vectorMasked v with
  | some v => { h.sendVector v with msixPba := nsetBit h.msixPba v false }
  | none =>
    match h.msixQ with
    | [] => h
    | v :: rest =>
      let h := { h with msixQ := rest }
      if off || h.vectorMasked v then { h with msixPba := nsetBit h.msixPba v true } else h.sendVector v

/-! ### Queue pairs (R378 to R385) -/

/-- QUE_STAT.STATE codes. -/
def qsOff : Nat := 0
@[inherit_doc qsOff] def qsActive : Nat := 1
@[inherit_doc qsOff] def qsShutting : Nat := 2
@[inherit_doc qsOff] def qsError : Nat := 3

/-- Queue pair `q` beside its registers. -/
def Hw.queue (h : Hw) (q : Nat) : Queue := Store.get (fun _ => {}) h.queues q

/-- Change queue pair `q`. -/
def Hw.updQueue (h : Hw) (q : Nat) (f : Queue → Queue) : Hw := { h with queues := Store.upd (fun _ => {}) h.queues q f }

/-- The state of queue pair `q`. -/
def Hw.qState (h : Hw) (q : Nat) : Nat := h.get F.QUE_STAT_STATE q

/-- Ring depths. -/
def Hw.sqSize (h : Hw) (q : Nat) : Nat := 2 ^ h.get F.QUE_CTL_SQSZ q
@[inherit_doc Hw.sqSize] def Hw.cqSize (h : Hw) (q : Nat) : Nat := 2 ^ h.get F.QUE_CTL_CQSZ q

/-- The distance from index `a` to index `b` in a ring. -/
def ringDist (size a b : Nat) : Nat := (b + size - a) % size

/-- The queue becomes ACTIVE with empty rings (R383). -/
def Hw.qActivate (h : Hw) (q : Nat) : Hw :=
  let h := ((h.putWord .QUE_SQPTR q 0).putWord .QUE_CQPTR q (BitVec.ofNat 32 (2 ^ 31))).set F.QUE_FETCHCNT_COUNT q 0
  ((h.set F.QUE_STAT_STATE q qsActive).setB F.QUE_STAT_PEND q false).updQueue q fun x => { x with stamps := [] }

/-- EN is written 1. -/
def Hw.qEnable (h : Hw) (q : Nat) : Hw :=
  if h.qState q = qsOff then h.qActivate q
  else if h.qState q = qsShutting then h.setB F.QUE_STAT_PEND q true
  else h

/-- EN is written 0. -/
def Hw.qDisable (h : Hw) (q : Nat) : Hw :=
  if h.qState q = qsActive then h.set F.QUE_STAT_STATE q qsShutting
  else if h.qState q = qsShutting then h.setB F.QUE_STAT_PEND q false
  else if h.qState q = qsError then
    (((h.set F.QUE_STAT_STATE q qsOff).set F.QUE_STAT_OUTST q 0).setB F.QUE_STAT_PEND q false).updQueue q fun _ => {}
  else h

/-- A write to QUE_CTL: the ring depths only in OFF, then the enable or disable (R383). -/
def queCtlWrite (q : Nat) (v : Word) (h : Hw) : Hw :=
  let sq := h.get F.QUE_CTL_SQSZ q
  let cq := h.get F.QUE_CTL_CQSZ q
  let off := decide (h.qState q = qsOff)
  let h := h.writeFields .QUE_CTL q false v
  let h := if off then h else (h.set F.QUE_CTL_SQSZ q sq).set F.QUE_CTL_CQSZ q cq
  if wbit v 0 then h.qEnable q else h.qDisable q

/-- A write to a ring base register: only in OFF. -/
def queBaseWrite (r : Reg) (q : Nat) (v : Word) (h : Hw) : Hw :=
  if h.qState q = qsOff then h.writeFields r q false v else h

/-- SQ_DOORBELL: a new SQ tail; the entries that it exposes carry its time (R379, R380, R383). -/
def sqDoorbell (q : Nat) (v : Word) (h : Hw) : Hw :=
  let t := (v.extractLsb' 0 12).toNat
  if h.qState q ≠ qsActive then h.setB F.QUE_ERR_DB_OFF q true
  else if h.sqSize q ≤ t then h.setB F.QUE_ERR_SQDB_RANGE q true
  else
    let k := ringDist (h.sqSize q) (h.get F.QUE_SQPTR_HEAD q) t
    (h.set F.QUE_SQPTR_TAIL q t).updQueue q fun x => { x with stamps := (x.stamps ++ List.replicate k h.time).take k }

/-- CQ_DOORBELL: a new CQ head (R379). -/
def cqDoorbell (q : Nat) (v : Word) (h : Hw) : Hw :=
  let n := (v.extractLsb' 0 12).toNat
  let size := h.cqSize q
  let head := h.get F.QUE_CQPTR_HEAD q
  if size ≤ n ∨ ringDist size head (h.get F.QUE_CQPTR_TAIL q) < ringDist size head n then h.setB F.QUE_ERR_CQDB_RANGE q true
  else h.set F.QUE_CQPTR_HEAD q n

/-- Unconsumed CQ entries of a queue. -/
def Hw.cqHeld (h : Hw) (q : Nat) : Nat :=
  ringDist (h.cqSize q) (h.get F.QUE_CQPTR_HEAD q) (h.get F.QUE_CQPTR_TAIL q)

/-- A queue may fetch an entry (R380, R381). -/
def Hw.qEligible (h : Hw) (q : Nat) : Bool :=
  h.qState q == qsActive && !(h.queue q).stamps.isEmpty &&
    decide (h.get F.QUE_STAT_OUTST q + h.cqHeld q < h.cqSize q - 1)

/-- The queue that takes the next grant: queue 0, else the queues 1 to 15 round-robin (R380). -/
def Hw.qGrant (h : Hw) : Option Nat :=
  if h.qEligible 0 then some 0
  else ((List.range 15).map fun k => (h.ncp.served + k) % 15 + 1).find? h.qEligible

/-- The queue that takes the grant fetches the entry `packet` (R380). -/
def Hw.sqFetch (h : Hw) (packet : List Byte) : Hw :=
  match h.qGrant with
  | none => h
  | some q =>
    match (h.queue q).stamps with
    | [] => h
    | t :: rest =>
      let h := { h with ncp := { h.ncp with served := if q = 0 then h.ncp.served else q } }
      let h := h.set F.QUE_SQPTR_HEAD q ((h.get F.QUE_SQPTR_HEAD q + 1) % h.sqSize q)
      let h := (h.wrap F.QUE_FETCHCNT_COUNT q).set F.QUE_STAT_OUTST q (h.get F.QUE_STAT_OUTST q + 1)
      h.updQueue q fun x => { stamps := rest, cmds := x.cmds ++ [{ packet := packet, stamp := t }] }

/-- QUEUE_TRANSFER_ERROR: an error on a fetch or on a CQ write (R384). -/
def Hw.qError (h : Hw) (q : Nat) (write : Bool) : Hw :=
  if h.qState q = qsActive ∨ h.qState q = qsShutting then
    (h.setB (if write then F.QUE_ERR_WRITE else F.QUE_ERR_FETCH) q true).set F.QUE_STAT_STATE q qsError
  else h

/-- QUEUE_DRAINED: a queue shutting down with no command outstanding is OFF; a pending enable is applied (R383). -/
def Hw.qDrained (h : Hw) (q : Nat) : Hw :=
  if h.qState q = qsShutting ∧ h.get F.QUE_STAT_OUTST q = 0 then
    if h.on F.QUE_STAT_PEND q then h.qActivate q
    else (h.set F.QUE_STAT_STATE q qsOff).updQueue q fun x => { x with stamps := [] }
  else h

/-- The CQ entry of a queue: a reply, SQHD, the queue number and PHASE (R378). -/
def Hw.cqEntry (h : Hw) (q : Nat) (reply : List Byte) : List Byte :=
  reply ++ bytesLE 2 (h.get F.QUE_SQPTR_HEAD q) ++ bytesLE 1 q ++ bytesLE 1 (h.get F.QUE_CQPTR_PHASE q)

/-- The host address of the CQ entry that the queue writes next. -/
def Hw.cqAddr (h : Hw) (q : Nat) : Nat :=
  4096 * h.get F.QUE_CQBA_LO_ADDR q + 2 ^ 32 * h.get F.QUE_CQBA_HI_ADDR q + 32 * h.get F.QUE_CQPTR_TAIL q

/-- Command `i` of a queue completes: its CQ entry is written, the tail advances and the event follows (R382). -/
def Hw.cqWrite (h : Hw) (q i : Nat) (reply : List Byte) : Hw :=
  let h := h.emit (.hostWrite (h.cqAddr q) (h.cqEntry q reply))
  let t := h.get F.QUE_CQPTR_TAIL q + 1
  let h := if t < h.cqSize q then h.set F.QUE_CQPTR_TAIL q t
    else (h.set F.QUE_CQPTR_TAIL q 0).set F.QUE_CQPTR_PHASE q (1 - h.get F.QUE_CQPTR_PHASE q)
  let h := (h.set F.QUE_STAT_OUTST q (h.get F.QUE_STAT_OUTST q - 1)).updQueue q fun x => { x with cmds := x.cmds.eraseIdx i }
  h.when (h.on F.QUE_CTL_IEN q) (·.raiseAt (112 + q / 2) q)

/-- A write in BAR2, which holds the doorbells of host software: the SQ tail (`sq`) or the CQ head of queue `q` (R379). -/
def Hw.doorbell (h : Hw) (m q : Nat) (sq : Bool) (v : Word) : Hw :=
  if m = idHost ∧ h.boot.pcieUp = true then if sq then sqDoorbell q v h else cqDoorbell q v h else h

end Sys2Proof.Machine
end

