-- ==== Sys2Proof/Machine/Nps.lean ====
section
/-! DEFINITION. The Naliz Peer Safety link: frames, connections and watchdogs in both channels (R412 to R428). -/

namespace Sys2Proof.Machine

/-- Frame kinds (R412). -/
def nkConn : Nat := 1
@[inherit_doc nkConn] def nkConnack : Nat := 2
@[inherit_doc nkConn] def nkData : Nat := 3
@[inherit_doc nkConn] def nkClose : Nat := 4

/-- Connection states (NPS_STAT.STATE_A). -/
def nsClosed : Nat := 0
@[inherit_doc nsClosed] def nsConnecting : Nat := 1
@[inherit_doc nsClosed] def nsUp : Nat := 2

/-- The parameters of CHK_A, published as CRC-32C (R413). -/
def crc32cParams : CrcParams := { crc32Params with poly := 0x1EDC6F41 }

/-- The configuration of peer `p` in a channel: the registers in channel A, the package in channel B (R419). -/
def Hw.peer (h : Hw) (c : Chan) (p : Nat) : PeerCfg :=
  match c with
  | .a =>
    { en := h.on F.NPS_CFG_EN p, remote := h.get F.NPS_REMOTE_VALUE p, key := h.get F.NPS_KEY_VALUE p,
      cycle := h.get F.NPS_CFG_CYCLE p, wd := h.get F.NPS_CFG_WD p, v11 := h.on F.NPS_CFG_V11 p }
  | .b => Store.get (fun _ => {}) h.b.cfg.peers p

/-- The device's NPS identity in a channel. -/
def Hw.localId (h : Hw) : Chan → Nat
  | .a => h.get F.NPS_GCTL_LOCAL_ID 0
  | .b => h.b.cfg.localId

/-- Change a connection. -/
def Hw.updConn (h : Hw) (c : Chan) (p : Nat) (f : NpsConn → NpsConn) : Hw :=
  { h with nps := Store.upd (fun _ => {}) h.nps (16 * c.num + p) f }

/-- The highest version that a channel offers (R427). -/
def PeerCfg.highest (x : PeerCfg) : Nat := if x.v11 then 0x11 else 0x10

/-- CHK_A of a payload (R413). -/
def npsChkA (key : Nat) (pay : List Byte) : Nat := crcOf crc32cParams (bytesLE 4 key ++ pay.take 28)

/-- CHK_B of a payload (R413). -/
def npsChkB (key : Nat) (pay : List Byte) : Nat :=
  crcOf crc32Params (bytesLE 4 key ++ pay.take 20 ++ (pay.drop 28).take 8)

/-- The payload of a frame up to DATA_B, bytes 0 to 35, as a channel fills it (R412). -/
def Hw.npsHead (h : Hw) (c : Chan) (f : NpsFields) (dataA : Nat) : List Byte :=
  let x := h.peer c f.peer
  bytesLE 1 f.kind ++ bytesLE 1 f.ver ++ bytesLE 2 (h.localId c) ++ bytesLE 2 x.remote ++ bytesLE 1 x.cycle ++ [0] ++
    bytesLE 2 x.wd ++ [0, 0] ++ bytesLE 4 f.seq ++ bytesLE 4 f.echo ++ bytesLE 8 dataA ++ bytesLE 8 f.dataB

/-- The connection enters CONNECTING in a channel; the B-die draws a new SEQ (R416, R426). -/
def Hw.npsConnecting (h : Hw) (c : Chan) (p : Nat) : Hw :=
  let h := h.updConn c p fun x => { x with state := nsConnecting, fresh := true, seen := false, answer := false }
  match c with
  | .a => h
  | .b => (h.updConn .b p fun x => { x with seq := Config.freeValue h.draws % 2 ^ 32 }).draw

/-- Evaluation starts: every configured peer enters CONNECTING in both channels (R426). -/
def Hw.npsStart (h : Hw) : Hw :=
  h.forUpTo 16 fun p h =>
    let h := if (h.peer .a p).en ∧ (h.conn .a p).state = nsClosed then h.npsConnecting .a p else h
    if (h.peer .b p).en ∧ (h.conn .b p).state = nsClosed then h.npsConnecting .b p else h

/-- Evaluation stops in a channel: its connections go to CLOSED, and one CLOSE is due (R426). -/
def Hw.npsStop (h : Hw) (c : Chan) : Hw :=
  h.forUpTo 16 fun p h =>
    if (h.conn c p).state = nsClosed then h
    else h.updConn c p fun x => { x with state := nsClosed, seen := false, answer := false, closing := true }

/-- The frame kind that the B-die's connection asks for; none while it is CLOSED and no CLOSE is due (R426). -/
def NpsConn.kindDue (x : NpsConn) : Option Nat :=
  if x.closing then some nkClose
  else if x.state = nsUp then some nkData
  else if x.state = nsConnecting then some (if x.answer then nkConnack else nkConn)
  else none

/-- NPS_CONNECTION_BOUNDARY: the B-die forms its half of the frame for peer `p` (R415 to R417). -/
def Hw.npsBoundary (h : Hw) (p : Nat) : Hw :=
  let x := h.conn .b p
  match x.kindDue with
  | none => h
  | some kind =>
    let ver := if kind = nkConn then (h.peer .b p).highest else x.agreed
    let f : NpsFields :=
      { peer := p, kind := kind, ver := ver, seq := x.seq, echo := if 0x11 ≤ ver then x.last else 0,
        dataB := if kind = nkData then Store.get (fun _ => 0) h.evB.peerOut p else 0, chkB := 0 }
    let f := { f with chkB := npsChkB (h.peer .b p).key (h.npsHead .b f 0) }
    let h := h.sendA (.npsFields f)
    h.updConn .b p fun x =>
      { x with seq := (x.seq + 1) % 2 ^ 32, sent := (f.seq, h.time) :: x.sent, answer := false, closing := false }

/-- The first fields for peer `p` on their way to the A-die, and the messages without them. -/
def takeNpsFields (p : Nat) : List BtoA → Option (NpsFields × List BtoA)
  | [] => none
  | .npsFields f :: ms =>
    if f.peer = p then some (f, ms) else (takeNpsFields p ms).map fun r => (r.1, .npsFields f :: r.2)
  | m :: ms => (takeNpsFields p ms).map fun r => (r.1, m :: r.2)

/-- The Ethernet header of a frame to peer `p` on port `k`: NPS_MAC, the port's own address and the tag of NPS_VLAN. -/
def Hw.npsHeader (h : Hw) (p k : Nat) : List Byte :=
  let tci := h.get F.NPS_VLAN_PCP p * 2 ^ 13 + h.get F.NPS_VLAN_VID p
  bytesLE 4 (h.get F.NPS_MAC_LO_VALUE p) ++ bytesLE 2 (h.get F.NPS_MAC_HI_VALUE p) ++
    bytesLE 4 (h.get F.NPS_PADDR_VALUE (2 * k)) ++ bytesLE 2 (h.get F.NPS_PADDR_VALUE (2 * k + 1)) ++
    (if h.on F.NPS_VLAN_TAG p then [0x81, 0x00] ++ (bytesLE 2 tci).reverse else []) ++ [0x88, 0xB5]

/-- DATA_A of peer `p`: the NPS_TXDATA bits as channel A applies them. -/
def Hw.npsDataA (h : Hw) (p : Nat) : Nat := h.appliedAt (slotPeer p 0) + 2 ^ 32 * h.appliedAt (slotPeer p 1)

/-- The payload that the A-die completes from the B-die's fields (R412, R415). -/
def Hw.npsPayload (h : Hw) (f : NpsFields) : List Byte :=
  let pay := h.npsHead .a f (if f.kind = nkData then h.npsDataA f.peer else 0)
  pay ++ bytesLE 4 (npsChkA (h.peer .a f.peer).key pay) ++ bytesLE 4 f.chkB ++ [0, 0]

/-- NPS_FRAME_SEND: the A-die sends the frame for peer `p`; fields that come `late` give no frame (R415). -/
def Hw.npsSend (h : Hw) (p : Nat) (late : Bool) : Hw :=
  match takeNpsFields p h.toA with
  | none => h
  | some (f, rest) =>
    let h := { h with toA := rest }
    if late then h
    else
      let pay := h.npsPayload f
      let h := h.forUpTo 2 fun k h => h.when (h.bitOf F.NPS_CFG_PORTS p k) (·.emit (.etherFrame k (h.npsHeader p k ++ pay)))
      let h := h.set F.NPS_SEQ_TX_VALUE p f.seq
      h.updConn .a p fun x => { x with sent := (f.seq, h.time) :: x.sent }

/-- The NPS payload of an Ethernet frame with at most one 802.1Q tag (R412). -/
def npsPayloadOf (bs : List Byte) : Option (List Byte) :=
  let rest := bs.drop 12
  let rest := if rest.take 2 = [0x81, 0x00] then rest.drop 4 else rest
  if rest.take 2 = [0x88, 0xB5] then some ((rest.drop 2).take 46) else none

/-- NPS_FRAME_FORWARD: the A-die forwards a received NPS frame to the B-die (R419). -/
def Hw.npsForward (h : Hw) (bs : List Byte) : Hw :=
  match npsPayloadOf bs with
  | none => h
  | some pay => h.sendB (.npsFrame pay)

/-- A command that receives a frame of a kind also takes one whose KIND byte names none. -/
def takesKind (kind : Nat) (pay : List Byte) : Bool :=
  let k := frameNum pay 0 1
  k == kind || decide (k < nkConn ∨ nkClose < k)

/-- The first forwarded frame of a kind, or of none, and the messages without it. -/
def takeNpsFrame (kind : Nat) : List AtoB → Option (List Byte × List AtoB)
  | [] => none
  | .npsFrame pay :: ms =>
    if takesKind kind pay then some (pay, ms)
    else (takeNpsFrame kind ms).map fun r => (r.1, .npsFrame pay :: r.2)
  | m :: ms => (takeNpsFrame kind ms).map fun r => (r.1, m :: r.2)

/-- A received frame as a channel judges it (R420, R421). -/
structure NpsJudged where
  chkA : Bool := false
  chkB : Bool := false
  addr : Bool := false
  param : Bool := false
  gap : Nat := 0
  fresh : Bool := false
deriving DecidableEq, Repr

/-- The frame's own conditions hold. -/
def NpsJudged.sound (j : NpsJudged) : Bool := j.chkA && j.chkB && j.addr && j.param

/-- The SEQ of the frame is new (R421). -/
def NpsJudged.isNew (j : NpsJudged) : Bool := j.fresh || decide (1 ≤ j.gap ∧ j.gap ≤ 1000)

/-- Judge a payload for peer `p` in a channel (R420, R421). -/
def Hw.npsJudge (h : Hw) (c : Chan) (p : Nat) (pay : List Byte) : NpsJudged :=
  let x := h.peer c p
  let y := h.conn c p
  { chkA := frameNum pay 36 4 == npsChkA x.key pay
    chkB := frameNum pay 40 4 == npsChkB x.key pay
    addr := frameNum pay 4 2 == h.localId c && frameNum pay 2 2 == x.remote
    param := frameNum pay 6 1 == x.cycle && frameNum pay 8 2 == x.wd && frameNum pay 7 1 == 0 &&
      frameNum pay 10 2 == 0 && frameNum pay 44 2 == 0
    gap := (frameNum pay 12 4 + 2 ^ 32 - y.last) % 2 ^ 32
    fresh := y.fresh }

/-- Channel A records why a frame is discarded (R420, R421). -/
def Hw.npsDiscard (h : Hw) (p : Nat) (j : NpsJudged) : Hw :=
  let h := h.when (!j.chkA) (·.setB F.NPS_ERR_CHK_A p true)
  let h := h.when (!j.chkB) (·.setB F.NPS_ERR_CHK_B p true)
  let h := h.when (!j.addr) (·.setB F.NPS_ERR_ADDR p true)
  let h := h.when (!j.param) (·.setB F.NPS_ERR_PARAM p true)
  let h := h.when (!j.isNew && j.gap != 0) (·.setB F.NPS_ERR_SEQ_OLD p true)
  if j.sound then h.when (j.gap == 0) (·.bump F.NPS_DUP_COUNT p 1) else h.bump F.NPS_CNT_BAD p 1

/-- LAST and LOST take an accepted frame (R421). -/
def Hw.npsAccept (h : Hw) (c : Chan) (p : Nat) (j : NpsJudged) (seq : Nat) : Hw :=
  let h := h.when (decide (c = .a) && !j.fresh) (·.bump F.NPS_CNT_LOST p (j.gap - 1))
  h.updConn c p fun x => { x with last := seq, fresh := false }

/-- A channel takes a frame for peer `p`: an accepted frame has its effect, any other is discarded (R420). A CLOSED connection
discards every frame; of a configured peer, channel A records those that fail their check, address or parameters. -/
def Hw.npsTake (h : Hw) (c : Chan) (p : Nat) (pay : List Byte) (f : Hw → Hw) : Hw :=
  let j := h.npsJudge c p pay
  if (h.conn c p).state = nsClosed then
    h.when (decide (c = .a) && (h.peer c p).en && !j.sound) (·.npsDiscard p { j with fresh := true })
  else
    if j.sound && j.isNew then f (h.npsAccept c p j (frameNum pay 12 4))
    else h.when (decide (c = .a)) (·.npsDiscard p j)

/-- The payload that a channel judges: of the frame received in channel A, of the next forwarded one in channel B. -/
def Hw.npsNext (h : Hw) (c : Chan) (kind : Nat) (bs : List Byte) : Option (List Byte × Hw) :=
  match c with
  | .a =>
    match npsPayloadOf bs with
    | none => none
    | some pay => if takesKind kind pay then some (pay, h) else none
  | .b => (takeNpsFrame kind h.toB).map fun r => (r.1, { h with toB := r.2 })

/-- A frame of a kind is received for peer `p` in a channel; one of no kind is judged alike and has no effect of its own. -/
def Hw.npsReceive (h : Hw) (c : Chan) (p kind : Nat) (bs : List Byte) (f : List Byte → Hw → Hw) : Hw :=
  match h.npsNext c kind bs with
  | none => h
  | some (pay, h) => h.npsTake c p pay fun h => h.when (frameNum pay 0 1 == kind) (f pay)

/-- A frame would be accepted by a channel (R420). -/
def Hw.npsAccepts (h : Hw) (c : Chan) (p : Nat) (pay : List Byte) : Bool :=
  (h.conn c p).state != nsClosed && (h.npsJudge c p pay).sound && (h.npsJudge c p pay).isNew

/-- NPS_CONN_RECEIVED (R426, R427). A CONN below version 1.0 is discarded whole. -/
def Hw.npsConn (h : Hw) (c : Chan) (p : Nat) (bs : List Byte) : Hw :=
  match h.npsNext c nkConn bs with
  | none => h
  | some (pay, h) =>
    let ver := frameNum pay 1 1
    if frameNum pay 0 1 ≠ nkConn then h.npsTake c p pay id
    else if ver < 0x10 ∧ h.npsAccepts c p pay then h.when (decide (c = .a)) (·.setB F.NPS_ERR_VER p true)
    else
      h.npsTake c p pay fun h =>
        let h := h.when ((h.conn c p).state == nsUp) (·.npsConnecting c p)
        h.updConn c p fun x => { x with agreed := min ver (h.peer c p).highest, answer := true }

/-- NPS_CONNACK_RECEIVED (R426). -/
def Hw.npsConnack (h : Hw) (c : Chan) (p : Nat) (bs : List Byte) : Hw :=
  h.npsReceive c p nkConnack bs fun pay h =>
    let x := h.conn c p
    if x.state = nsConnecting ∧ frameNum pay 1 1 = x.agreed then
      h.updConn c p fun x => { x with state := nsUp, seen := false, answer := false, wdAt := h.time }
    else h

/-- The age of a DATA frame that echoes `echo` in a channel, in TIMEBASE ticks; none if no such SEQ was sent (R422). -/
def Hw.echoAge (h : Hw) (c : Chan) (p echo : Nat) : Option Nat :=
  ((h.conn c p).sent.find? fun s => s.1 == echo).map fun s => h.time - s.2

/-- Channel A shows the age of an accepted DATA frame; an age that the spec does not state is a free value. -/
def Hw.showAge (h : Hw) (p : Nat) (age : Option Nat) : Hw :=
  let v := match age with
    | some a => min (a / 1000) 0xFFFF
    | none => Config.freeValue h.draws % 2 ^ 16
  let h := h.when age.isNone (·.draw)
  (h.set F.NPS_AGE_LAST p v).set F.NPS_AGE_MAX p (max v (h.get F.NPS_AGE_MAX p))

/-- WD of peer `p` in TIMEBASE ticks. -/
def Hw.wdTicks (h : Hw) (c : Chan) (p : Nat) : Nat := (h.peer c p).wd * 100000

/-- WD has passed since the last restart in a channel; channel B counts it on a clock up to 2 % faster than TIMEBASE (R39). -/
def Hw.wdPassed (h : Hw) (c : Chan) (p : Nat) : Bool :=
  let t := h.time - (h.conn c p).wdAt
  match c with
  | .a => decide (h.wdTicks c p ≤ t)
  | .b => decide (98 * h.wdTicks c p ≤ 100 * t)

/-- The watchdog of peer `p` restarts in a channel, unless it expires in this clock or has expired (R424). -/
def Hw.wdRestart (h : Hw) (c : Chan) (p : Nat) : Hw := h.when (!h.wdPassed c p) (·.updConn c p fun x => { x with wdAt := h.time })

/-- NPS_DATA_RECEIVED (R414, R422, R424, R428). -/
def Hw.npsData (h : Hw) (c : Chan) (p : Nat) (bs : List Byte) : Hw :=
  h.npsReceive c p nkData bs fun pay h =>
    let x := h.conn c p
    let h := h.updConn c p fun x =>
      { x with rx := Nat.land (frameNum pay 20 8) (frameNum pay 28 8), seen := x.state == nsUp }
    if x.agreed = 0x11 then
      let age := h.echoAge c p (frameNum pay 16 4)
      let h := h.when (decide (c = .a)) (·.showAge p age)
      let inTime := match age with
        | some a => decide (a ≤ h.wdTicks c p)
        | none => false
      if inTime then h.wdRestart c p else h.when (decide (c = .a)) (·.setB F.NPS_ERR_LATE p true)
    else h.wdRestart c p

/-- NPS_CLOSE_RECEIVED (R426). -/
def Hw.npsClose (h : Hw) (c : Chan) (p : Nat) (bs : List Byte) : Hw :=
  h.npsReceive c p nkClose bs fun _ h => h.when ((h.conn c p).state == nsUp) (·.npsConnecting c p)

/-- NPS_WATCHDOG_EXPIRY (R424): the watchdog of a peer whose connection is UP expires in a channel. -/
def Hw.npsWatchdog (h : Hw) (c : Chan) (p : Nat) : Hw :=
  if (h.conn c p).state = nsUp ∧ h.wdPassed c p = true then
    (h.npsConnecting c p).when (decide (c = .a)) (·.setB F.NPS_ERR_WDOG p true)
  else h

end Sys2Proof.Machine
end

