-- ==== Sys2Proof/Machine/Otp.lean ====
section
/-! DEFINITION. The fuse array: burning, sensing and voting, the states of the regions, what sensing latches and sends over
the wires, and the operations of OTP_CMD (R430 to R447). -/

namespace Sys2Proof.Machine

/-! ### The array -/

/-- What copy `c` of word `w` holds. -/
def NonVol.copy (v : NonVol) (c w : Nat) : Nat := Store.get (fun _ => 0) v.fuses (1024 * c + w)

/-- Burn the bits `bits` into copy `c` of word `w`; programming only turns 0 into 1 (R430). -/
def NonVol.burn (v : NonVol) (c w bits : Nat) : NonVol :=
  { v with fuses := Store.upd (fun _ => 0) v.fuses (1024 * c + w) fun x => Nat.lor x bits }

/-- Burn a word into all three copies. -/
def NonVol.burnWord (v : NonVol) (w bits : Nat) : NonVol := ((v.burn 0 w bits).burn 1 w bits).burn 2 w bits

/-- Burn words in order. -/
def NonVol.burnAll (v : NonVol) : List (Nat × Nat) → NonVol
  | [] => v
  | (w, b) :: ps => (v.burnWord w b).burnAll ps

/-- The bits of a copy that read at TIGHT other than they should stand after programming. -/
def misread (bad : List Deviation) (c w : Nat) : Nat :=
  match bad.find? fun d => d.copy == c && d.word == w with
  | some d => d.tight
  | none => 0

/-- Burn words in order with verification (R441): after the last try `bad` says which bits of a copy read at TIGHT other than
burned; the old value is the one voted. The first word with a copy that does not read old value OR data ends the operation,
whose result is the second part; the data bits that read 0 there are not burned. -/
def NonVol.program (v : NonVol) (old : Nat → Nat) (bad : List Deviation) : List (Nat × Nat) → NonVol × Bool
  | [] => (v, true)
  | (w, b) :: ps =>
    let tight (c : Nat) : Nat := Nat.xor (Nat.lor (v.copy c w) b) (misread bad c w)
    let miss (c : Nat) : Nat := Nat.land b (misread bad c w)
    if [0, 1, 2].all fun c => tight c == Nat.lor (old w) b then (v.burnWord w b).program old bad ps
    else (((v.burn 0 w (b - miss 0)).burn 1 w (b - miss 1)).burn 2 w (b - miss 2), false)

/-- The single burns of a plan: copies 0, 1 and 2 of each word in turn. -/
def burnSteps (plan : List (Nat × Nat)) : List (Nat × Nat × Nat) :=
  plan.flatMap fun p => [(0, p.1, p.2), (1, p.1, p.2), (2, p.1, p.2)]

/-- A plan cut short (R441, R442, R445). -/
def NonVol.burnCut (v : NonVol) (cut : OtpCut) (plan : List (Nat × Nat)) : NonVol :=
  let v := ((burnSteps plan).take cut.done).foldl (fun v s => v.burn s.1 s.2.1 s.2.2) v
  match (burnSteps plan)[cut.done]? with
  | none => v
  | some s => v.burn s.1 s.2.1 (Nat.land s.2.2 cut.bits)

/-! ### Sensing and voting (R433, R434) -/

/-- A word as sensing decides it: its value, whether it failed, whether it is MARGINAL, and its marginal copies. -/
structure Sensed where
  value : Nat := 0
  failed : Bool := false
  marginal : Bool := false
  copies : Nat := 0
  any : Bool := false
deriving DecidableEq, Repr

/-- What a copy reads at the two margins. -/
def NonVol.reading (v : NonVol) (devs : List Deviation) (c w : Nat) : Nat × Nat :=
  match devs.find? fun d => d.copy == c && d.word == w with
  | none => (v.copy c w, v.copy c w)
  | some d => (Nat.xor (v.copy c w) d.normal, Nat.xor (v.copy c w) d.tight)

/-- The value on which two of three agree, if any two whose bit in `use` is set do. -/
def agree (use : Nat) (a b c : Nat) : Option Nat :=
  if nbit use 0 && nbit use 1 && a == b then some a
  else if nbit use 0 && nbit use 2 && a == c then some a
  else if nbit use 1 && nbit use 2 && b == c then some b
  else none

/-- The vote on a word (R434); `free` is the value of a word that fails, which the spec does not state. -/
def NonVol.sense (v : NonVol) (devs : List Deviation) (free : Nat) (w : Nat) : Sensed :=
  let r0 := v.reading devs 0 w
  let r1 := v.reading devs 1 w
  let r2 := v.reading devs 2 w
  let marg := nmask 3 fun c => if c = 0 then r0.1 != r0.2 else if c = 1 then r1.1 != r1.2 else r2.1 != r2.2
  match agree (7 - marg) r0.1 r1.1 r2.1 with
  | some x => { value := x, copies := marg, any := marg != 0 }
  | none =>
    match agree 7 r0.1 r1.1 r2.1 with
    | some x => { value := x, marginal := true, copies := marg, any := marg != 0 }
    | none => { value := free, failed := true, copies := marg, any := marg != 0 }

/-- The words that R431 lists. -/
def listedWord (w : Nat) : Bool :=
  decide (w < 0x04B ∨ (0x04C ≤ w ∧ w < 0x072) ∨ (0x080 ≤ w ∧ w < 0x0C8) ∨ (0x100 ≤ w ∧ w < 0x188) ∨
    (0x200 ≤ w ∧ w < 0x400 ∧ w % 16 < 16))

/-- The array as it stands, without deviations; a word without agreement reads as failed. -/
def NonVol.now (v : NonVol) (w : Nat) : Sensed := if listedWord w then v.sense [] 0 w else {}

/-! ### Regions (R431, R432, R435) -/

/-- The place of a sealed region or slot: payload, digest words, and the word and bit of its lock. -/
structure Region where
  code : Nat
  base : Nat
  len : Nat
  dig : Nat
  lockW : Nat
  lockB : Nat
deriving DecidableEq, Repr

/-- Region codes. -/
def rgMfg : Nat := 0
@[inherit_doc rgMfg] def rgKey : Nat := 2
@[inherit_doc rgMfg] def rgRot : Nat := 3
@[inherit_doc rgMfg] def rgCrit : Nat := 6
@[inherit_doc rgMfg] def rgUsr : Nat := 7

/-- The sealed region of a region code. -/
def sealedRegion (code : Nat) : Option Region :=
  if code = rgMfg then some ⟨0, 0x000, 0x40, 0x040, 0x049, 0⟩
  else if code = rgKey then some ⟨2, 0x05C, 14, 0x06A, 0x049, 1⟩
  else if code = rgRot then some ⟨3, 0x080, 0x40, 0x0C0, 0x049, 2⟩
  else if code = rgCrit then some ⟨6, 0x050, 4, 0x054, 0x049, 3⟩
  else if code = rgUsr then some ⟨7, 0x100, 0x80, 0x180, 0x049, 4⟩
  else none

/-- CFGD slot `s`; its region code in OTP_CMD is 0x20 + s. -/
def slotRegion (s : Nat) : Region := ⟨0x20 + s, 0x200 + 16 * s, 8, 0x208 + 16 * s, 0x04A, s⟩

/-- Region states (OTP_REGION.STATE). -/
def rsBlank : Nat := 0
@[inherit_doc rsBlank] def rsOpen : Nat := 1
@[inherit_doc rsBlank] def rsLocked : Nat := 2
@[inherit_doc rsBlank] def rsNoLock : Nat := 3
@[inherit_doc rsBlank] def rsFailed : Nat := 4
@[inherit_doc rsBlank] def rsValid : Nat := 5

/-- Lifecycle codes (GLB_LIFE.LC). -/
def lcManufacture : Nat := 0
@[inherit_doc lcManufacture] def lcDevelopment : Nat := 1
@[inherit_doc lcManufacture] def lcField : Nat := 2
@[inherit_doc lcManufacture] def lcRetired : Nat := 3

/-- Payload bytes of a region under a reading of the words. -/
def Region.bytes (r : Region) (rd : Nat → Sensed) : List Byte :=
  (List.range r.len).flatMap fun k => bytesLE 4 (rd (r.base + k)).value

/-- The region digest, or the guard of a slot (R432). -/
def Region.digest (r : Region) (rd : Nat → Sensed) : List Byte :=
  if r.code < 0x20 then Machine.digest 0x414B4F5450523031 (bytesLE 1 r.code ++ r.bytes rd)
  else Machine.digest 0x414B4F5450533031 (bytesLE 1 (r.code - 0x20) ++ r.bytes rd)

/-- The stored digest or guard. -/
def Region.stored (r : Region) (rd : Nat → Sensed) : List Byte :=
  (List.range 8).flatMap fun k => bytesLE 4 (rd (r.dig + k)).value

/-- The words that a region's state depends on. -/
def Region.words (r : Region) : List Nat :=
  (List.range r.len).map (r.base + ·) ++ (List.range 8).map (r.dig + ·) ++ [r.lockW]

/-- The state of a sealed region or slot (R432, R435) in lifecycle `lc`. -/
def Region.state (r : Region) (rd : Nat → Sensed) (lc : Nat) : Nat :=
  let payload0 := (List.range r.len).all fun k => (rd (r.base + k)).value == 0
  let digest0 := (List.range 8).all fun k => (rd (r.dig + k)).value == 0
  let locked := nbit (rd r.lockW).value r.lockB
  let must := r.code == rgMfg || r.code == rgKey || r.code == rgRot || r.code == rgCrit
  if r.words.any fun w => (rd w).failed then rsFailed
  else if locked then (if digest0 || r.digest rd != r.stored rd then rsFailed else rsLocked)
  else if !digest0 then rsNoLock
  else if must && lc != lcManufacture then rsFailed
  else if payload0 then rsBlank
  else if 0x20 ≤ r.code then rsFailed
  else rsOpen

/-- The number of 1s among `n` bits. -/
def ones (n v : Nat) : Nat := ((List.range n).filter (nbit v)).length

/-- No 1 stands above a 0 among `n` bits (R435). -/
def thermometer (n v : Nat) : Bool := v == 2 ^ ones n v - 1

/-- Bits [2:0] of the LIFE word as a lifecycle code, or none if the bits of the word are no thermometer (R435, R447). -/
def lifeCode (v : Nat) : Option Nat := if thermometer 32 v then some (ones 3 v) else none

/-- The lifecycle that a reading of the words gives; a failed LIFE gives FIELD (R437). -/
def lifeOf (rd : Nat → Sensed) : Nat := if (rd 0x048).failed then lcField else (lifeCode (rd 0x048).value).getD lcField

/-- LIFE has FAILED. -/
def lifeFailed (rd : Nat → Sensed) : Bool := (rd 0x048).failed || (lifeCode (rd 0x048).value).isNone

/-- The 128 RBK bits as a number. -/
def rbkBits (rd : Nat → Sensed) : Nat := (List.range 4).foldl (fun a k => a + (rd (0x04C + k)).value * 2 ^ (32 * k)) 0

/-- RBK has FAILED: a word failed or the bits are no thermometer. -/
def rbkFailed (rd : Nat → Sensed) : Bool :=
  ((List.range 4).any fun k => (rd (0x04C + k)).failed) || !thermometer 128 (rbkBits rd)

/-- The CFGD slots that are not BLANK. -/
def slotsUsed (rd : Nat → Sensed) (lc : Nat) : Nat := nmask 32 fun s => (slotRegion s).state rd lc != rsBlank

/-- The lowest BLANK slot. -/
def lowestBlank (rd : Nat → Sensed) (lc : Nat) : Option Nat :=
  (List.range 32).find? fun s => (slotRegion s).state rd lc == rsBlank

/-- The latched words as sensing decided them. -/
def Latches.rd (l : Latches) (w : Nat) : Sensed :=
  { value := Store.get (fun _ => 0) l.words w, failed := l.failed.contains w }

/-- The latched lifecycle. -/
def Hw.life (h : Hw) : Nat := h.get F.GLB_LIFE_LC 0

/-- A CRIT bit as applied. -/
def Hw.crit (h : Hw) (k : Nat) : Bool := nbit (h.get F.OTP_CRIT_VALUE 0) k

/-! ### FUSE_SENSING_DONE: what sensing latches (R433 to R439, R451, R460) -/

/-- The DBG master is enabled (R31, R461). -/
def Hw.dbgAllowed (h : Hw) : Bool :=
  let lc := h.life
  lc == lcManufacture || (lc == lcDevelopment && (h.crit 0 || h.boot.unlocked)) ||
    (lc == lcField && h.crit 1 && h.boot.unlocked)

/-- The registers of one region: its state, marginal words and first failed or marginal word. -/
def Hw.showRegion (h : Hw) (k state : Nat) (words : List Nat) (bad : Bool) (rd : Nat → Sensed) : Hw :=
  let marg := words.filter fun w => (rd w).marginal
  let first := ((words.find? fun w => (rd w).failed).orElse fun _ => marg.head?).getD 0
  (((h.set F.OTP_REGION_STATE k state).set F.OTP_REGION_MARG k (min marg.length 255)).set F.OTP_REGION_FIRSTW k first).setB
    F.OTP_REGION_DIGBAD k bad

/-- A sealed region or slot in OTP_REGIONk. -/
def Hw.showSealed (h : Hw) (k : Nat) (r : Region) (rd : Nat → Sensed) (lc : Nat) : Hw :=
  let digest0 := (List.range 8).all fun i => (rd (r.dig + i)).value == 0
  h.showRegion k (r.state rd lc) r.words (!digest0 && r.digest rd != r.stored rd) rd

/-- The tag AKIDENT1 as a number (R453). -/
def tagIdent : Nat := 0x414B4944454E5431

/-- The identity private key of a secret and a lifecycle byte (R451). -/
def identityKey (lcb : Nat) (secret : List Byte) : List Byte := shake256 (tagBytes tagIdent ++ bytesLE 1 lcb ++ secret) 57

/-- The lifecycle byte LCB (R451). -/
def Hw.lcb (h : Hw) : Nat := h.life + (if h.dbgAllowed then 0x80 else 0)

/-- SEC derives the identity key at the end of sensing, unless KEY has FAILED or the Rind is breached (R437, R451, R460). -/
def Hw.deriveKey (h : Hw) (rd : Nat → Sensed) (keyFailed : Bool) : Hw :=
  let h := h.set F.SEC_STAT_LCB 0 h.lcb
  let h := h.setB F.SEC_STAT_DBG_EN 0 h.dbgAllowed
  if keyFailed || h.on F.SEC_STAT_BREACH 0 then h
  else { h.setB F.SEC_STAT_IDKEY 0 true with idKey := identityKey h.lcb (Region.bytes ⟨2, 0x05C, 14, 0x06A, 0x049, 1⟩ rd) }

/-- The words of sensing as a store, drawing a free value for every word that fails. -/
def NonVol.senseAll (v : NonVol) (devs : List Deviation) (draws : Nat) : Nat → Sensed := fun w =>
  if listedWord w then v.sense devs (Config.freeValue (draws + w) % 2 ^ 32) w else {}

/-- Everything of sensing that the OTP block latches and shows (R434 to R439). -/
def Hw.latchFuses (h : Hw) (v : NonVol) (devs : List Deviation) (strap : Bool) : Hw :=
  let rd := v.senseAll devs h.draws
  let h := { h with draws := h.draws + 1024 }
  let all := (List.range 1024).filter listedWord
  let lc := lifeOf rd
  let words := all.foldl (fun m w => Store.put (fun _ => 0) m w (rd w).value) []
  let marg := all.filter fun w => (rd w).marginal
  let st (k : Nat) : Nat := match sealedRegion k with
    | some r => r.state rd lc
    | none => rsBlank
  let used := slotsUsed rd lc
  let newest := ((List.range 32).reverse.find? (nbit used)).getD 0
  let slotOk (s : Nat) : Bool := (slotRegion s).state rd lc == rsLocked
  let h := { h with otp :=
    { words := words, failed := all.filter fun w => (rd w).failed, newest := newest, newestOk := used != 0 && slotOk newest,
      newestDigest := (slotRegion newest).bytes rd, keyFailed := st rgKey == rsFailed, rotFailed := st rgRot == rsFailed } }
  let h := (h.set F.GLB_LIFE_LC 0 lc).setB F.GLB_LIFE_INTEGRITY 0 (lifeFailed rd)
  let h := h.forEach [rgMfg, rgKey, rgRot, rgCrit, rgUsr] fun k h => match sealedRegion k with
    | some r => h.showSealed k r rd lc
    | none => h
  let h := h.showRegion 1 (if lifeFailed rd then rsFailed else rsValid) [0x048] false rd
  let h := if used = 0 then h.showRegion 4 rsBlank [] false rd else h.showSealed 4 (slotRegion newest) rd lc
  let h := h.showRegion 5 (if rbkFailed rd then rsFailed else rsValid) [0x04C, 0x04D, 0x04E, 0x04F] false rd
  let h := (h.set F.OTP_CFGDUSED_VALUE 0 used).set F.OTP_CFGDOK_VALUE 0 (nmask 32 slotOk)
  let h := h.set F.OTP_CFGDNEW_VALUE 0 (newest + 256 * bit (used != 0 && slotOk newest))
  let rbk := rbkBits rd
  let anyRbk := (List.range 128).filter fun k => [0, 1, 2].any fun c =>
    let r := v.reading devs c (0x04C + k / 32)
    nbit r.1 (k % 32) || nbit r.2 (k % 32)
  let h := h.set F.OTP_RBKCNT_VALUE 0 (if rbkFailed rd then anyRbk.length + 256 else ones 128 rbk)
  let critFailed := st rgCrit == rsFailed
  let h := h.set F.OTP_CRIT_VALUE 0 (if critFailed then 4 else (rd 0x050).value % 64)
  let h := match marg.head? with
    | none => h.set F.OTP_MARGW_VALUE 0 0
    | some w => h.set F.OTP_MARGW_VALUE 0 (w + 65536 * (rd w).copies + 2 ^ 24 * min marg.length 255)
  let mfgFailed := st rgMfg == rsFailed
  let serial (k : Nat) : Nat := if mfgFailed then 0 else (rd k).value
  let h := (h.set F.GLB_SERIAL_SERIAL 0 (serial 0)).set F.GLB_SERIAL_SERIAL 1 (serial 1)
  let pay := (List.range 64).map fun k => (rd k).value
  let h := h.forUpTo 4 fun k h =>
    h.set F.NPS_PADDR_VALUE k (if mfgFailed then 0 else (Config.portMac pay k).toNat % (if k % 2 = 1 then 2 ^ 16 else 2 ^ 32))
  let h := h.forUpTo 8 fun n h => h.setB F.CLI_STAT_NOTRIM n mfgFailed
  let fuse := if critFailed then 0 else nfield (rd 0x050).value 3 2
  let strapOk := strap && !critFailed && (lc == lcManufacture || lc == lcDevelopment)
  let split (k : Nat) : Bool := nbit fuse k || strapOk
  let h := ((h.set F.POD_SPLITCFG_FUSE 0 fuse).set F.POD_SPLITCFG_STRAP 0 (nmask 2 fun _ => strapOk)).set F.POD_SPLITCFG_SPLIT 0
    (nmask 2 split)
  let h := (h.setB F.POD_STAT_SPLIT 4 (split 0)).setB F.POD_STAT_SPLIT 5 (split 1)
  let integrity := (List.range 8).any fun k => h.get F.OTP_REGION_STATE k == rsFailed
  let h := ((h.setB F.OTP_STAT_INTEGRITY 0 integrity).setB F.OTP_STAT_HOLD 0 integrity).setB F.OTP_STAT_MARGINAL 0 (!marg.isEmpty)
  let h := h.setB F.OTP_STAT_SENSED 0 true
  let h := h.when (integrity || !marg.isEmpty) (·.raise 124)
  h.deriveKey rd (st rgKey == rsFailed)

/-! ### OTP_CMD (R436, R440 to R445, R450) -/

/-- OTP_CMD operations. -/
def opProgram : Nat := 1
@[inherit_doc opProgram] def opFinalise : Nat := 2
@[inherit_doc opProgram] def opRescan : Nat := 3
@[inherit_doc opProgram] def opKeygen : Nat := 4
@[inherit_doc opProgram] def opLcAdvance : Nat := 5
@[inherit_doc opProgram] def opRbkAdvance : Nat := 6
@[inherit_doc opProgram] def opCommission : Nat := 7

/-- OTP_RESULT codes. -/
def orOk : Nat := 1
@[inherit_doc orOk] def orLocked : Nat := 3
@[inherit_doc orOk] def orDenied : Nat := 4
@[inherit_doc orOk] def orZero : Nat := 5
@[inherit_doc orOk] def orProgFail : Nat := 6
@[inherit_doc orOk] def orPresence : Nat := 7
@[inherit_doc orOk] def orBMismatch : Nat := 8
@[inherit_doc orOk] def orBTimeout : Nat := 9
@[inherit_doc orOk] def orNotBlank : Nat := 10

/-- An operation refused with a result. -/
def otpRefused (op target code : Nat) : OtpOp := { op := op, target := target, code := code }

/-- The words and bits of a byte string from word `w`. -/
def wordPlan (w : Nat) (bs : List Byte) : List (Nat × Nat) :=
  (List.range (bs.length / 4)).map fun k => (w + k, ofBytesLE ((bs.drop (4 * k)).take 4))

/-- The burns that finalise a region whose payload reads as `rd`: the digest words, then the lock bit (R442). -/
def Region.finalPlan (r : Region) (rd : Nat → Sensed) : List (Nat × Nat) :=
  wordPlan r.dig (r.digest rd) ++ [(r.lockW, 2 ^ r.lockB)]

/-- The sealed region whose payload holds word `w`. -/
def regionOfWord (w : Nat) : Option Region :=
  [rgMfg, rgRot, rgCrit, rgUsr].findSome? fun k => match sealedRegion k with
    | none => none
    | some r => if r.base ≤ w ∧ w < r.base + r.len then some r else none

/-- PROGRAM (R440, R441). -/
def Hw.planProgram (h : Hw) (v : NonVol) (w bits : Nat) : OtpOp :=
  match regionOfWord w with
  | none => otpRefused opProgram w orDenied
  | some r =>
    let may := if r.code = rgUsr then h.life != lcRetired else h.life == lcManufacture
    let st := r.state v.now h.life
    if !may then otpRefused opProgram r.code orDenied
    else if st ≠ rsBlank ∧ st ≠ rsOpen then otpRefused opProgram r.code orLocked
    else { op := opProgram, target := r.code, plan := [(w, bits)], code := orOk }

/-- FINALISE (R440, R442). -/
def Hw.planFinalise (h : Hw) (v : NonVol) (code : Nat) : OtpOp :=
  match sealedRegion code with
  | none => otpRefused opFinalise code orDenied
  | some r =>
    let may := if r.code = rgUsr then h.life != lcRetired else h.life == lcManufacture
    let st := r.state v.now h.life
    if !may then otpRefused opFinalise code orDenied
    else if st = rsBlank then otpRefused opFinalise code orZero
    else if st ≠ rsOpen then otpRefused opFinalise code orLocked
    else { op := opFinalise, target := code, plan := r.finalPlan v.now, code := orOk }

/-- KEYGEN (R450): 448 random bits, drawn from number `draws` on, then the finalisation of the region. -/
def Hw.planKeygen (h : Hw) (v : NonVol) : OtpOp :=
  match sealedRegion rgKey with
  | none => otpRefused opKeygen rgKey orDenied
  | some r =>
    if h.life = lcManufacture ∧ r.state v.now h.life = rsBlank then
      let pay := wordPlan r.base ((List.range 56).map fun k => Config.randomByte (h.draws + k))
      { op := opKeygen, target := rgKey, plan := pay ++ r.finalPlan ((v.burnAll pay).now), code := orOk }
    else otpRefused opKeygen rgKey orDenied

/-- BOOTLK stops the operation; it has no effect in MANUFACTURE (R440). -/
def Hw.bootLocked (h : Hw) : Bool := h.on F.OTP_CTL_BOOTLK 0 && h.life != lcManufacture

/-- The LIFE bits of a lifecycle code. -/
def lifeBits (lc : Nat) : Nat := 2 ^ lc - 1

/-- LC_ADVANCE (R440, R447). -/
def Hw.planLcAdvance (h : Hw) (target : Nat) : OtpOp :=
  if !h.bootLocked && decide (h.life < lcRetired ∧ (target = h.life + 1 ∨ target = lcRetired)) then
    { op := opLcAdvance, target := target, plan := [(0x048, lifeBits target)], code := orOk }
  else otpRefused opLcAdvance target orDenied

/-- The burns that set the RBK bits below `n`. -/
def rbkPlan (n : Nat) : List (Nat × Nat) := (List.range 4).map fun k => (0x04C + k, 2 ^ (min (n - 32 * k) 32) - 1)

/-- The RBK count taken. -/
def Hw.rbkCount (h : Hw) : Nat := h.get F.OTP_RBKCNT_VALUE 0 % 256

/-- RBK_ADVANCE (R439, R440). -/
def Hw.planRbkAdvance (h : Hw) (target : Nat) : OtpOp :=
  if !h.bootLocked && h.get F.OTP_REGION_STATE 5 != rsFailed && decide (h.rbkCount ≤ target ∧ target ≤ 128) then
    { op := opRbkAdvance, target := target, plan := rbkPlan target, code := orOk }
  else otpRefused opRbkAdvance target orDenied

/-- The configuration digest for COMMISSION. -/
def Hw.cdig (h : Hw) : List Byte := h.getBytes .OTP_CDIG 8

/-- COMMISSION (R445). -/
def Hw.planCommission (h : Hw) (v : NonVol) (target : Nat) : OtpOp :=
  let s := target - 0x20
  let no (code : Nat) : OtpOp := otpRefused opCommission target code
  if target < 0x20 ∨ 0x40 ≤ target ∨ (h.life ≠ lcDevelopment ∧ h.life ≠ lcField) then no orDenied
  else if lowestBlank v.now h.life ≠ some s then no orNotBlank
  else if !h.boot.commLow then no orPresence
  else if !h.on F.XLK_STAT_XLKC_UP 0 || !h.b.digValid then no orBTimeout
  else if h.b.digest ≠ h.cdig then no orBMismatch
  else
    let r := slotRegion s
    let pay := wordPlan r.base h.cdig
    { op := opCommission, target := target, plan := pay ++ r.finalPlan ((v.burnAll pay).now), code := orOk }

/-- The operation that a code and a target ask for; none for a reserved code. -/
def Hw.otpPlan (h : Hw) (v : NonVol) (op target : Nat) : Option OtpOp :=
  if op = opProgram then some (h.planProgram v (h.get F.OTP_ADDR_VALUE 0) (h.get F.OTP_WDATA_VALUE 0))
  else if op = opFinalise then some (h.planFinalise v target)
  else if op = opRescan then some { op := opRescan, target := target, code := orOk }
  else if op = opKeygen then some (h.planKeygen v)
  else if op = opLcAdvance then some (h.planLcAdvance target)
  else if op = opRbkAdvance then some (h.planRbkAdvance target)
  else if op = opCommission then some (h.planCommission v target)
  else none

/-- OTP_STAT with the mirror of OTP_CTL.BOOTLK. -/
def Hw.otpStat (h : Hw) : Word := F.OTP_STAT_BOOTLK.put (h.word .OTP_STAT 0) (bit (h.on F.OTP_CTL_BOOTLK 0))

/-- A write to OTP_CMD starts an operation, or is rejected while one runs (R440). -/
def otpCmdWrite (v : NonVol) (x : Word) (h : Hw) : Hw :=
  let op := (x.extractLsb' 0 4).toNat
  if h.on F.OTP_STAT_BUSY 0 then h.setB F.OTP_STAT_REJ 0 true
  else
    match h.otpPlan v op (x.extractLsb' 8 8).toNat with
    | none => h
    | some o =>
      let h := if op = opKeygen then { h with draws := h.draws + 56 } else h
      { h.setB F.OTP_STAT_BUSY 0 true with otpOp := some { o with target := (x.extractLsb' 8 8).toNat } }

/-- RESCAN reports the words that read otherwise than latched, or a marginal copy (R436). -/
def Hw.rescan (h : Hw) (v : NonVol) (devs : List Deviation) : Hw :=
  let all := (List.range 1024).filter listedWord
  let rd := v.senseAll devs h.draws
  let diff := all.filter fun w => (rd w).value != Store.get (fun _ => 0) h.otp.words w
  let h := ((h.setB F.OTP_SCAN_DONE 0 true).set F.OTP_SCAN_DIFF 0 (min diff.length 255)).set F.OTP_SCAN_FIRST 0 (diff.head?.getD 0)
  let h := { h with draws := h.draws + 1024 }
  let h := h.when (!diff.isEmpty) (·.setB F.OTP_STAT_SCANDIFF 0 true)
  h.when (!diff.isEmpty || all.any fun w => (rd w).any) (·.raise 124)

/-- A word of the KEY region. -/
def keyWord (w : Nat) : Bool := decide (0x05C ≤ w ∧ w < 0x072)

/-- An operation is one on the KEY region. -/
def Hw.onKey (h : Hw) (o : OtpOp) : Bool :=
  o.op == opKeygen || (o.op == opFinalise && o.target == rgKey) || (o.op == opProgram && keyWord (h.get F.OTP_ADDR_VALUE 0))

/-- The log data of an OTP operation (R409). -/
def Hw.otpLogData (h : Hw) (o : OtpOp) : List Byte :=
  bytesLE 4 (h.get F.OTP_ADDR_VALUE 0) ++ bytesLE 4 (if h.onKey o then 0 else h.get F.OTP_WDATA_VALUE 0) ++
    bytesLE 4 o.target ++ bytesLE 4 h.otpStat.toNat ++ List.replicate 16 0

/-- An operation ends with a result (R440, R408). -/
def Hw.otpEnd (h : Hw) (o : OtpOp) (code : Nat) : Hw :=
  let h := { (h.setB F.OTP_STAT_BUSY 0 false) with otpOp := none }
  let h := (h.set F.OTP_RESULT_OP 0 o.op).set F.OTP_RESULT_CODE 0 code
  h.log 5 (o.op + 16 * code) 0 (h.otpLogData o)

/-- What the array holds after a running operation has ended with the copies `bad` left unburned. -/
def otpBurn (v : NonVol) (o : OtpOp) (bad : List Deviation) : NonVol × Bool :=
  v.program (fun w => (v.now w).value) bad o.plan

/-- OTP_OPERATION_DONE in the hardware (R440, R441): `devs` are the readings of a RESCAN and the bits left unburned. -/
def Hw.otpDone (h : Hw) (v : NonVol) (devs : List Deviation) : Hw :=
  match h.otpOp with
  | none => h
  | some o =>
    if o.op = opRescan then (h.rescan v devs).otpEnd o orOk
    else h.otpEnd o (if (otpBurn v o devs).2 then o.code else orProgFail)

/-- OTP_OPERATION_DONE in the array. -/
def NonVol.otpDone (v : NonVol) (h : Hw) (devs : List Deviation) : NonVol :=
  match h.otpOp with
  | none => v
  | some o => (otpBurn v o devs).1

/-- A write to OTP_CTL (R439): HOLDREL releases the hold, and is ignored while KEY or ROT has FAILED. -/
def otpCtlWrite (x : Word) (h : Hw) : Hw :=
  let h := h.when (wbit x 0) (·.setB F.OTP_CTL_BOOTLK 0 true)
  h.when (wbit x 1 && !h.otp.keyFailed && !h.otp.rotFailed) fun h =>
    (h.setB F.OTP_CTL_HOLDREL 0 true).setB F.OTP_STAT_HOLD 0 false

/-- OTP_DATA: a latched word; the KEY payload and digest read 0 (R450). -/
def Hw.otpData (h : Hw) (w : Nat) : Nat := if keyWord w then 0 else Store.get (fun _ => 0) h.otp.words w

end Sys2Proof.Machine
end

