-- ==== Sys2Proof/Machine/Package.lean ====
section
/-! DEFINITION. Signed packages: their header, the order in which they are verified, and the bodies of lifecycle packages
(R453 to R455, R457). -/

namespace Sys2Proof.Machine

/-- Domain tags as the numbers of their eight characters (R453). -/
def tagPubKey : Nat := 0x414B5055424B3031
@[inherit_doc tagPubKey] def tagPkgSig : Nat := 0x414B504B47533031
@[inherit_doc tagPubKey] def tagFwBody : Nat := 0x414B465742443031
@[inherit_doc tagPubKey] def tagConf : Nat := 0x414B434F4E463031
@[inherit_doc tagPubKey] def tagLcBody : Nat := 0x414B4C4342443031
@[inherit_doc tagPubKey] def tagCommission : Nat := 0x414B434F4D4D3031
@[inherit_doc tagPubKey] def tagAttest : Nat := 0x414B415454523031
@[inherit_doc tagPubKey] def tagUnlock : Nat := 0x414B444247553031

/-- Package kinds (R454). -/
inductive PkgKind where
  | firmware | config | lifecycle
deriving DecidableEq, Repr

/-- The KIND byte. -/
def PkgKind.code : PkgKind → Nat
  | .firmware => 1
  | .config => 2
  | .lifecycle => 3

/-- The body tag of a kind. -/
def PkgKind.tag : PkgKind → Nat
  | .firmware => tagFwBody
  | .config => tagConf
  | .lifecycle => tagLcBody

/-- Bytes `off` to `off + n - 1` of a byte string. -/
def bytesAt (b : List Byte) (off n : Nat) : List Byte := (b.drop off).take n

/-- The little-endian number at an offset. -/
def leAt (b : List Byte) (off n : Nat) : Nat := ofBytesLE (bytesAt b off n)

/-- Bytes that must be 0. -/
def zerosAt (b : List Byte) (off n : Nat) : Bool := (bytesAt b off n).all (· == 0)

/-- Header fields of a package (R454). -/
def pkgKeySlot (b : List Byte) : Nat := leAt b 6 1
@[inherit_doc pkgKeySlot] def pkgMinor (b : List Byte) : Nat := leAt b 8 2
@[inherit_doc pkgKeySlot] def pkgMajor (b : List Byte) : Nat := leAt b 10 2
@[inherit_doc pkgKeySlot] def pkgRbk (b : List Byte) : Nat := leAt b 12 1
@[inherit_doc pkgKeySlot] def pkgTarget (b : List Byte) : Nat := leAt b 16 8
@[inherit_doc pkgKeySlot] def pkgBodyLen (b : List Byte) : Nat := leAt b 24 4
@[inherit_doc pkgKeySlot] def pkgSigner (b : List Byte) : List Byte := bytesAt b 32 57
@[inherit_doc pkgKeySlot] def pkgBodyDig (b : List Byte) : List Byte := bytesAt b 96 32
@[inherit_doc pkgKeySlot] def pkgSig (b : List Byte) : List Byte := bytesAt b 128 114

/-- The body of a package. -/
def pkgBody (b : List Byte) : List Byte := bytesAt b 256 (pkgBodyLen b)

/-- The whole length of a package. -/
def pkgLen (b : List Byte) : Nat := 256 + pkgBodyLen b

/-- Step 1: MAGIC, FORMAT, KIND, the reserved fields and BODY_LEN follow R454. -/
def pkgShape (k : PkgKind) (b : List Byte) : Bool :=
  bytesAt b 0 6 == [0x41, 0x4B, 0x50, 0x4B, 0x01, BitVec.ofNat 8 k.code] && zerosAt b 7 1 && zerosAt b 13 3 && zerosAt b 28 4 &&
    zerosAt b 89 7 && zerosAt b 242 14 && decide (1 ≤ pkgBodyLen b ∧ pkgBodyLen b ≤ 2 ^ 28 - 256 ∧ pkgLen b ≤ b.length) &&
    (match k with
      | .firmware => decide (pkgRbk b ≤ 128)
      | _ => pkgRbk b == 0) &&
    (match k with
      | .lifecycle => pkgTarget b != 0 && pkgBodyLen b == 16 && zerosAt b 258 6
      | _ => true)

/-- The key digest of ROT slot `k` as latched. -/
def Hw.rotSlot (h : Hw) (k : Nat) : List Byte :=
  (List.range 8).flatMap fun i => bytesLE 4 (Store.get (fun _ => 0) h.otp.words (0x080 + 8 * k + i))

/-- A public key matches a ROT slot that is in use (R455). -/
def Hw.keyInSlot (h : Hw) (k : Nat) (pub : List Byte) : Bool :=
  decide (k < 8) && (h.rotSlot k).any (· != 0) && digest tagPubKey pub == h.rotSlot k

/-- The serial number. -/
def Hw.serial (h : Hw) : Nat := h.get F.GLB_SERIAL_SERIAL 0 + 2 ^ 32 * h.get F.GLB_SERIAL_SERIAL 1

/-- The bytes of a lifecycle package's body: FROM and TO. -/
def pkgFrom (b : List Byte) : Nat := leAt b 256 1
@[inherit_doc pkgFrom] def pkgTo (b : List Byte) : Nat := leAt b 257 1

/-- The signer slots that a kind permits (R455, R448). -/
def pkgSlotOk (k : PkgKind) (b : List Byte) : Bool :=
  let s := pkgKeySlot b
  match k with
  | .firmware => decide (s < 4)
  | .config => decide (4 ≤ s ∧ s < 8)
  | .lifecycle =>
    if pkgTo b = lcDevelopment then decide (s < 4)
    else if pkgTo b = lcField then decide (4 ≤ s ∧ s < 8)
    else decide (s < 8)

/-- How a package fails its verification, by the step of R455 that fails first. -/
inductive PkgFail where
  | shape | signer | signature | body | target | rollback
deriving DecidableEq, Repr

/-- Verify a package (R455); none when it passes. -/
def Hw.verifyPkg (h : Hw) (k : PkgKind) (b : List Byte) : Option PkgFail :=
  if !pkgShape k b then some .shape
  else if !pkgSlotOk k b || !h.keyInSlot (pkgKeySlot b) (pkgSigner b) then some .signer
  else if !ed448Verify (pkgSigner b) (tagBytes tagPkgSig ++ bytesAt b 0 128) (pkgSig b) then some .signature
  else if digest k.tag (pkgBody b) ≠ pkgBodyDig b then some .body
  else if pkgTarget b ≠ 0 ∧ pkgTarget b ≠ h.serial then some .target
  else
    match k with
    | .firmware => if h.rbkCount ≤ pkgRbk b then none else some .rollback
    | _ => none

/-- The version of a package, higher for a higher MAJOR or an equal MAJOR with a higher MINOR. -/
def pkgVersion (b : List Byte) : Nat := 65536 * pkgMajor b + pkgMinor b

end Sys2Proof.Machine
end

