-- ==== Sys2Proof/Machine/Hold.lean ====
section
/-! DEFINITION. SAFE_HOLD, the progress of the start and the boot records (R221, R410, R464, R467). -/

namespace Sys2Proof.Machine

/-- GLB_STATE.HOLD_CAUSE codes. -/
def hcXlkVersion : Nat := 1
@[inherit_doc hcXlkVersion] def hcOtpKeyRot : Nat := 2
@[inherit_doc hcXlkVersion] def hcFwVerify : Nat := 3
@[inherit_doc hcXlkVersion] def hcRind : Nat := 4
@[inherit_doc hcXlkVersion] def hcBdieStart : Nat := 5
@[inherit_doc hcXlkVersion] def hcClock : Nat := 6
@[inherit_doc hcXlkVersion] def hcDdr : Nat := 7
@[inherit_doc hcXlkVersion] def hcPodBoot : Nat := 8

/-- XLK_STAT.BSTATE codes. -/
def bsReset : Nat := 0
@[inherit_doc bsReset] def bsSelftest : Nat := 1
@[inherit_doc bsReset] def bsWaitCfg : Nat := 2
@[inherit_doc bsReset] def bsEval : Nat := 3
@[inherit_doc bsReset] def bsTrial : Nat := 4
@[inherit_doc bsReset] def bsUnconfigured : Nat := 5
@[inherit_doc bsReset] def bsHold : Nat := 6

/-- Change the B-die. -/
def Hw.updB (h : Hw) (f : BDie → BDie) : Hw := { h with b := f h.b }

/-- Change the start-up record. -/
def Hw.updBoot (h : Hw) (f : Boot → Boot) : Hw := { h with boot := f h.boot }

/-- CLK_BOOT takes a stage, with the time since the release (CLK_BOOT.MS). -/
def Hw.setStage (h : Hw) (k : Nat) : Hw := (h.set F.CLK_BOOT_STAGE 0 k).set F.CLK_BOOT_MS 0 (min (h.time / 100000) 0xFFFF)

/-- A BOOT log record waits (R408, R409): CLK_RSTCAUSE, CLK_BOOT, OTP_STAT, GLB_FWVER and the body of a boot record; `seq` is the
SEQ of the boot record that it copies, or 0. -/
def Hw.logBootAs (h : Hw) (code : Nat) (body : List Byte) (seq : Nat) : Hw :=
  let reg (r : Reg) : List Byte := bytesLE 4 (h.word r 0).toNat
  let data := reg .CLK_RSTCAUSE ++ reg .CLK_BOOT ++ bytesLE 4 h.otpStat.toNat ++ reg .GLB_FWVER ++ (body ++ List.replicate 16 0).take 16
  { h with logQ := h.logQ ++ [{ cls := 2, code := code, time := h.time, data := data, seq := seq }] }

/-- A BOOT log record of the start itself waits. -/
def Hw.logBoot (h : Hw) (code : Nat) (body : List Byte) : Hw := h.logBootAs code body 0

/-- The B-die holds its lines off: it stops evaluating, its connections close, and its switches and SEO lines are off
(R221, R477, R479, R484). -/
def Hw.bHold (h : Hw) : Hw :=
  let h := h.updB fun b => { b with state := bsHold, evaluating := false }
  let h := h.updFio fun f => { f with cmdM := 0 }
  let h := h.forUpTo 16 fun n h => h.soSwitch .b n false
  h.npsStop .b

/-- Something holds the module in reset. -/
def Boot.held (b : Boot) : Bool := b.heldPor || b.heldPin || b.heldHot

/-- Firmware has not started yet. -/
def Boot.early (b : Boot) : Bool := b.phase == .por || b.phase == .locked || b.phase == .sensed || b.phase == .rom

/-- Where a hold leaves the start (R467): a hold by the cross links, the B-die's start or a clock still lets the boot ROM and
firmware start, and firmware that has started still trains DRAM, unless it is DRAM that failed. -/
def Boot.afterHold (b : Boot) (cause : Nat) : Phase :=
  if (b.early && (cause == hcXlkVersion || cause == hcBdieStart || cause == hcClock)) || (b.phase == .firmware && cause != hcDdr) then
    b.phase
  else .ended

/-- A hold cause takes the device to SAFE_HOLD: outputs and SEO off, event 47, and the end of the start if it still runs
(R221, R467). A device already in SAFE_HOLD keeps its cause, but a cause that keeps firmware from starting does so then too. The
BOOT record of a hold before firmware runs waits for firmware, which copies the boot records first (R408). -/
def Hw.safeHold (h : Hw) (cause : Nat) : Hw :=
  if h.dev = devSafeHold then h.updBoot fun b => { b with phase := b.afterHold cause }
  else
    let starting := h.dev == devBoot
    let h := (h.set F.GLB_STATE_STATE 0 devSafeHold).set F.GLB_STATE_HOLD_CAUSE 0 cause
    let h := (h.setStage 0xF).outputsOff
    let h := (h.npsStop .a).bHold
    let early := h.boot.early
    let h := h.updBoot fun b => { b with phase := b.afterHold cause }
    (h.raise 47).when (starting && !early) (·.logBoot 3 [])

/-! ### Boot records (R410) -/

/-- The 32 bytes of a boot record. -/
def bootRecordBytes (kind result seq : Nat) (body : List Byte) : List Byte :=
  let b := [BitVec.ofNat 8 kind, BitVec.ofNat 8 result, 0, 0] ++ bytesLE 4 seq ++ (body ++ List.replicate 16 0).take 16
  b ++ bytesLE 4 (crcOf crc32Params b) ++ [0, 0, 0, 0]

/-- The boot ROM writes a boot record; the ring of 2,047 records drops the oldest. -/
def NonVol.addRecord (v : NonVol) (kind result : Nat) (body : List Byte) : NonVol :=
  let f := v.flash
  let rec_ : BootRecord := { seq := f.nextSeq, bytes := bootRecordBytes kind result f.nextSeq body }
  let rs := f.records ++ [rec_]
  { v with flash := { f with records := rs.drop (rs.length - 2047), nextSeq := f.nextSeq + 1 } }

/-- Boot-record kinds and results. -/
def brLifecycle : Nat := 1
@[inherit_doc brLifecycle] def brNoLock : Nat := 2
@[inherit_doc brLifecycle] def brRbk : Nat := 3
@[inherit_doc brLifecycle] def brHold : Nat := 4

/-- A start that ends in SAFE_HOLD before firmware runs leaves a HOLD record: the cause and the stage reached. Where no Pod
can run the boot ROM (POD_BOOT) nothing is written. -/
def NonVol.holdRecord (v : NonVol) (h : Hw) (cause : Nat) : NonVol :=
  if h.dev = devBoot ∧ h.boot.early = true ∧ cause ≠ hcPodBoot then
    v.addRecord brHold 2 [BitVec.ofNat 8 cause, BitVec.ofNat 8 (h.get F.CLK_BOOT_STAGE 0)]
  else v

/-- At its start, firmware copies into the event log every record above the newest one copied. -/
def Hw.copyRecords (h : Hw) (v : NonVol) : Hw :=
  h.forEach (v.flash.records.filter fun r => decide (v.flash.copied < r.seq)) fun r h =>
    h.logBootAs (0x100 + leAt r.bytes 0 1) (bytesAt r.bytes 8 16) r.seq

/-- Once the last copy that waits is written into the event log, the header of the boot-record area takes its SEQ. -/
def NonVol.recordsCopied (v : NonVol) (q : List LogItem) : NonVol :=
  match q with
  | [] => v
  | i :: rest =>
    if i.seq ≠ 0 ∧ rest.all (·.seq == 0) = true then { v with flash := { v.flash with copied := i.seq } } else v

end Sys2Proof.Machine
end

