-- ==== Sys2Proof/Machine/Units.lean ====
section
/-! DEFINITION. The timers (R340 to R351, R358) and the general check-value units (R352 to R357). -/

namespace Sys2Proof.Machine

/-! ### Timers -/

/-- What timer `n` holds beside its registers. -/
def Hw.timer (h : Hw) (n : Nat) : Timer := Store.get (fun _ => {}) h.tmr n

/-- Change what a timer holds. -/
def Hw.updTimer (h : Hw) (n : Nat) (f : Timer → Timer) : Hw := { h with tmr := Store.upd (fun _ => {}) h.tmr n f }

/-- Flag bits of TMR_STAT. -/
def tfWrap : Nat := 0
@[inherit_doc tfWrap] def tfCmp : Nat := 1
@[inherit_doc tfWrap] def tfCap : Nat := 2
@[inherit_doc tfWrap] def tfCapovr : Nat := 3

/-- A flag of TMR_STAT as a field. -/
def tmrFlag (k : Nat) : Fld := ⟨.TMR_STAT, k, 1⟩

/-- Set a flag; if it becomes 1 while enabled, the timer's event is raised once in the clock (R358). -/
def Hw.tmrFlag (h : Hw) (n k : Nat) : Hw :=
  let was := h.on (Machine.tmrFlag k) n
  let h := h.setB (Machine.tmrFlag k) n true
  if !was && h.bitOf F.TMR_IEN_EN n k && (h.timer n).rung != some h.time then
    (h.raise (64 + n)).updTimer n fun t => { t with rung := some h.time }
  else h

/-- OUTMODE codes. -/
def omOff : Nat := 0
@[inherit_doc omOff] def omSet : Nat := 1
@[inherit_doc omOff] def omClear : Nat := 2
@[inherit_doc omOff] def omToggle : Nat := 3
@[inherit_doc omOff] def omPwm : Nat := 4

/-- What a compare match does to OUT (R347). -/
def Hw.outMatch (h : Hw) (n : Nat) : Hw :=
  let m := h.get F.TMR_CTL_OUTMODE n
  if m = omSet then h.setB F.TMR_STAT_OUT n true
  else if m = omClear ∨ m = omPwm then h.setB F.TMR_STAT_OUT n false
  else if m = omToggle then h.setB F.TMR_STAT_OUT n (!h.on F.TMR_STAT_OUT n)
  else h

/-- TMR_COMPARE_MATCH, step 3 of a clock (R347, R348): after a change of CNT the timer compares CNT with CMP_ACT. -/
def Hw.tmrCompare (h : Hw) (n : Nat) : Hw :=
  let t := h.timer n
  let h :=
    if t.due ∧ h.get F.TMR_CNT_COUNT n = h.get F.TMR_CMP_ACT_VALUE n then (h.tmrFlag n tfCmp).outMatch n else h
  h.updTimer n fun t => { t with due := false }

/-- CNT takes a value of the counter's own: it is compared in this clock, and a write of this clock leaves it (R347, R348). -/
def Hw.tmrMove (h : Hw) (n v : Nat) : Hw :=
  (h.set F.TMR_CNT_COUNT n v).updTimer n fun t => { t with due := true, moved := some h.time }

/-! #### Capture (R344 to R346) -/

/-- A source code of R344 that is a level. -/
def levelSource (src : Nat) : Bool := decide ((0x80 ≤ src ∧ src < 0xB0) ∨ 0xE0 ≤ src)

/-- The level of a capture source: the last sample of a digital input on FLA, or the compare output of a timer (R344). -/
def Hw.captureLevel (h : Hw) (src : Nat) : Bool :=
  if src < 0xB0 then (h.di .a (src - 0x80)).raw else h.on F.TMR_STAT_OUT (src - 0xE0)

/-- An edge selected by CAPEDGE or a pulse: the Nth one captures CNT while CAPEN is 1 (R345, R346). -/
def Hw.tmrEdge (h : Hw) (n : Nat) (pulse rising : Bool) : Hw :=
  let edge := h.get F.TMR_CTL_CAPEDGE n
  if pulse || edge == 2 || (edge == 0 && rising) || (edge == 1 && !rising) then
    let k := (h.timer n).edges + 1
    if h.get F.TMR_CAPCFG_DIV n < k then
      let h := h.updTimer n fun t => { t with edges := 0 }
      if h.on F.TMR_CTL_CAPEN n then
        let h := h.set F.TMR_CAP_VALUE n (h.get F.TMR_CNT_COUNT n)
        let h := h.when (h.on F.TMR_STAT_CAP n) (·.tmrFlag n tfCapovr)
        let h := h.tmrFlag n tfCap
        h.when (h.on F.TMR_CTL_CAPRST n) (·.tmrMove n 0)
      else h
    else h.updTimer n fun t => { t with edges := k }
  else h

/-- The next edge of this clock at the capture source of timer `n`, if there is one: a level that the source
has held through the filter, or a pulse (R344 to R346). -/
def Hw.tmrCapture (h : Hw) (n : Nat) : Hw :=
  let t := h.timer n
  let src := h.get F.TMR_CAPCFG_SRC n
  if !h.on F.TMR_CTL_EN n then h
  else if levelSource src then
    let l := h.captureLevel src
    if l ≠ t.level ∧ h.get F.TMR_CAPCFG_FLT n ≤ t.held then
      (h.updTimer n fun t => { t with level := l, held := 0 }).tmrEdge n false l
    else h
  else
    match (h.pulses.drop t.taken).findIdx? (· == src) with
    | some i => (h.updTimer n fun t => { t with taken := t.taken + i + 1 }).tmrEdge n true true
    | none => h

/-- The state shows the edge that a TMR_CAPTURE names: one of the timer's capture source, of that direction for a level source,
in a clock in which the counter has changed or not (R344, R345, R348). -/
def Hw.showsEdge (h : Hw) (n src : Nat) (rising sameClock : Bool) : Bool :=
  h.get F.TMR_CAPCFG_SRC n == src && (!levelSource src || h.captureLevel src == rising) &&
    ((h.timer n).moved == some h.time) == sameClock

/-- TMR_CAPTURE of an edge that the state does not show is no event (log entry 6). -/
def Hw.captureEdge (h : Hw) (n src : Nat) (rising sameClock : Bool) : Hw :=
  h.when (h.showsEdge n src rising sameClock) (·.tmrCapture n)

/-- A timer ends a clock that gave `k` pulses: the edges not yet taken, then the compare (R348). -/
def Hw.tmrEnd (h : Hw) (n k : Nat) : Hw :=
  let h := h.forUpTo (k + 1) fun _ h => h.tmrCapture n
  (h.tmrCompare n).updTimer n fun t => { t with taken := t.taken - k }

/-- The clock of every timer ends; a pulse that this end gives belongs to the next clock. -/
def Hw.tmrSettle (h : Hw) : Hw :=
  let k := h.pulses.length
  let h := h.forUpTo 32 fun n h => if !h.on F.TMR_CTL_EN n && h.timer n == {} then h else h.tmrEnd n k
  { h with pulses := h.pulses.drop k }

/-- The filter of a level source counts a clock in which the source held the other level (R345). -/
def Hw.tmrHold (h : Hw) (n : Nat) : Hw :=
  let src := h.get F.TMR_CAPCFG_SRC n
  if h.on F.TMR_CTL_EN n && levelSource src then
    h.updTimer n fun t => { t with held := if h.captureLevel src == t.level then 0 else t.held + 1 }
  else h

/-- A clock of TIMEBASE passes. -/
def Hw.tick (h : Hw) : Hw :=
  let h := (h.dosed (·.ceClock)).tmrSettle.forUpTo 32 fun n h => h.tmrHold n
  { h with time := h.time + 1 }

/-- The edge count starts again, and the filter starts at the level that the source then has (R346). -/
def Hw.tmrRestartEdges (h : Hw) (n : Nat) : Hw :=
  let src := h.get F.TMR_CAPCFG_SRC n
  h.updTimer n fun t => { t with edges := 0, level := levelSource src && h.captureLevel src, held := 0 }

/-! #### Counting (R340 to R343, R349) -/

/-- A wrap: with IMM = 0 the preloads are copied; ONESHOT stops the timer, and PWM drives 1, or 0 where CMP_ACT = 0 matches in the
same clock (R340 to R342, R347). -/
def Hw.tmrWrapOne (h : Hw) (n : Nat) : Hw :=
  let h := h.tmrMove n 0
  let h := h.when (!h.on F.TMR_CTL_IMM n) fun h =>
    ((h.set F.TMR_RELOAD_ACT_VALUE n (h.get F.TMR_RELOAD_VALUE n)).set F.TMR_CMP_ACT_VALUE n (h.get F.TMR_CMP_VALUE n)).updTimer n
      fun t => { t with psc := h.get F.TMR_CTL_PSC n }
  let h := h.when (h.get F.TMR_CTL_OUTMODE n == omPwm) (·.setB F.TMR_STAT_OUT n (h.get F.TMR_CMP_ACT_VALUE n != 0))
  (h.when (h.on F.TMR_CTL_ONESHOT n) (·.setB F.TMR_CTL_EN n false)).tmrFlag n tfWrap

/-- A tick of timer `n`; a wrap ticks the timers chained to it in the same clock (R340, R349). -/
def Hw.tmrCount (h : Hw) (n : Nat) : Nat → Hw
  | 0 => h
  | k + 1 =>
    let h := h.tmrCompare n
    if h.get F.TMR_RELOAD_ACT_VALUE n ≤ h.get F.TMR_CNT_COUNT n then
      let h := h.tmrWrapOne n
      if n + 1 < 32 ∧ h.on F.TMR_CTL_EN (n + 1) ∧ h.on F.TMR_CTL_CHAIN (n + 1) then h.tmrCount (n + 1) k else h
    else h.tmrMove n (h.get F.TMR_CNT_COUNT n + 1)

/-- A timer that runs on its own prescaler. -/
def Hw.tmrFree (h : Hw) (n : Nat) : Bool := h.on F.TMR_CTL_EN n && !h.on F.TMR_CTL_CHAIN n

/-- The prescaler of a timer expires: PSC + 1 clocks have passed since it restarted or last expired (R340, R341). -/
def Hw.tmrDue (h : Hw) (n : Nat) : Bool :=
  h.tmrFree n && decide ((h.timer n).start + (h.timer n).psc + 1 ≤ h.time)

/-- The prescaler runs on into its next period. -/
def Hw.tmrExpire (h : Hw) (n : Nat) : Hw := h.updTimer n fun t => { t with start := t.start + t.psc + 1 }

/-- The next tick of a timer wraps it. -/
def Hw.tmrTop (h : Hw) (n : Nat) : Bool := decide (h.get F.TMR_RELOAD_ACT_VALUE n ≤ h.get F.TMR_CNT_COUNT n)

/-- TMR_TICK: the prescaler expires and CNT advances (R340). -/
def Hw.tmrTick (h : Hw) (n : Nat) : Hw := if h.tmrDue n && !h.tmrTop n then (h.tmrExpire n).tmrCount n 1 else h

/-- TMR_WRAP: the prescaler expires with CNT at or above RELOAD_ACT (R340, R343). -/
def Hw.tmrWrap (h : Hw) (n : Nat) : Hw := if h.tmrDue n && h.tmrTop n then (h.tmrExpire n).tmrCount n 32 else h

/-! #### Writes -/

/-- A write to TMR_CTL (R341, R342, R346, R349): the PSC preload is copied at once under IMM, and a change of it restarts the
prescaler; EN written 1 starts the prescaler and the edge count from 0; OUTMODE OFF holds OUT at 0. -/
def tmrCtlWrite (n : Nat) (v : Word) (h : Hw) : Hw :=
  let h := h.writeFields .TMR_CTL n false v
  let h := h.when (n == 0) (·.setB F.TMR_CTL_CHAIN 0 false)
  let psc := h.get F.TMR_CTL_PSC n
  let h := h.when (h.on F.TMR_CTL_IMM n && psc != (h.timer n).psc) (·.updTimer n fun t => { t with psc := psc, start := h.time })
  let h := h.when (wbit v 0) fun h => (h.updTimer n fun t => { t with start := h.time }).tmrRestartEdges n
  h.when (h.get F.TMR_CTL_OUTMODE n == omOff) (·.setB F.TMR_STAT_OUT n false)

/-- A write to TMR_CNT: a clock in which the counter changes leaves the hardware value (R348). -/
def tmrCntWrite (n : Nat) (v : Word) (h : Hw) : Hw :=
  if (h.timer n).moved = some h.time then h else h.writeFields .TMR_CNT n false v

/-- A write to TMR_RELOAD or TMR_CMP (R342). -/
def tmrPreloadWrite (pre act : Fld) (n : Nat) (v : Word) (h : Hw) : Hw :=
  let h := h.writeFields pre.reg n false v
  h.when (h.on F.TMR_CTL_IMM n) (·.set act n (h.get pre n))

/-- A write to TMR_CAPCFG (R344, R346): a timer's own compare output is a reserved source. -/
def tmrCapcfgWrite (n : Nat) (v : Word) (h : Hw) : Hw :=
  let src := h.get F.TMR_CAPCFG_SRC n
  let h := h.writeFields .TMR_CAPCFG n false v
  let h := h.when (h.get F.TMR_CAPCFG_SRC n == 0xE0 + n) (·.set F.TMR_CAPCFG_SRC n src)
  h.tmrRestartEdges n

/-! ### General check-value units -/

/-- The parameters of unit `n` as its registers stand. -/
def Hw.crcParams (h : Hw) (n : Nat) : CrcParams :=
  { width := h.get F.CRC_CFG_WIDTH n, poly := h.get F.CRC_POLY_VALUE n, init := h.get F.CRC_INIT_VALUE n,
    xorOut := h.get F.CRC_XOR_VALUE n, refIn := h.on F.CRC_CFG_REFIN n, refOut := h.on F.CRC_CFG_REFOUT n }

/-- The running register of unit `n`; bits above WIDTH read 0. -/
def Hw.crcReg (h : Hw) (n : Nat) : Nat := h.get F.CRC_REG_VALUE n % 2 ^ h.get F.CRC_CFG_WIDTH n

/-- CRC_RESULT of unit `n`. -/
def Hw.crcResult (h : Hw) (n : Nat) : Nat := crcFinal (h.crcParams n) (h.crcReg n)

/-- Feed bytes into a unit's register. -/
def Hw.crcTake (h : Hw) (n : Nat) (bs : List Byte) : Hw :=
  h.set F.CRC_REG_VALUE n (crcFeed (h.crcParams n) (h.crcReg n) bs)

/-- A flag of CRC_STAT. -/
def crcFlag (k : Nat) : Fld := ⟨.CRC_STAT, k, 1⟩

/-- Set a flag of CRC_STAT; a flag that becomes 1 while enabled raises event 96 + n (CRC_IEN). -/
def Hw.crcFlag (h : Hw) (n k : Nat) : Hw :=
  let was := h.on (Machine.crcFlag k) n
  let h := h.setB (Machine.crcFlag k) n true
  h.when (!was && h.bitOf F.CRC_IEN_EN n (k - 1)) (·.raise (96 + n))

/-- Memory mode is running. -/
def Hw.crcBusy (h : Hw) (n : Nat) : Bool := h.on F.CRC_STAT_BUSY n

/-- ERR_BUSYWR: a write that a running memory mode ignores (R356). -/
def Hw.crcBusyWrite (h : Hw) (n : Nat) : Hw := h.crcFlag n 2

/-- A write of `k` bytes to a data register (R353, R356). -/
def crcDataWrite (k n : Nat) (v : Word) (h : Hw) : Hw :=
  if h.crcBusy n then h.crcBusyWrite n else h.crcTake n (bytesLE k v.toNat)

/-- A write to a parameter or address register of a unit (R354, R356). -/
def crcParamWrite (r : Reg) (n : Nat) (v : Word) (h : Hw) : Hw :=
  if h.crcBusy n then h.crcBusyWrite n else h.writeFields r n false v

/-- The register takes CRC_INIT under the current WIDTH (R354). -/
def Hw.crcLoad (h : Hw) (n : Nat) : Hw :=
  h.set F.CRC_REG_VALUE n (h.get F.CRC_INIT_VALUE n % 2 ^ h.get F.CRC_CFG_WIDTH n)

/-- Where DRAM lies in the system address space, and its size (Memories). -/
def dramBase : Nat := 0x1000000000
@[inherit_doc dramBase] def dramSize : Nat := 0x1C0000000

/-- A range of system addresses touches DRAM. -/
def touchesDram (a len : Nat) : Bool := decide (a < dramBase + dramSize ∧ dramBase < a + len)

/-- The memory-mode start address of unit `n`. -/
def Hw.crcAddr (h : Hw) (n : Nat) : Nat := h.get F.CRC_ADDR_LO_VALUE n + 2 ^ 32 * h.get F.CRC_ADDR_HI_VALUE n

/-- GO (R355, R36): `noDram` says that the master may not use memory mode over DRAM. -/
def Hw.crcGo (h : Hw) (n : Nat) (noDram : Bool) : Hw :=
  let len := h.get F.CRC_LEN_VALUE n
  if len = 0 ∨ 2 ^ 28 < len ∨ (noDram = true ∧ touchesDram (h.crcAddr n) len = true) then h.crcFlag n 4
  else
    let h := (h.crcLoad n).setB F.CRC_STAT_BUSY n true
    { h with crcRead := Store.put (fun _ => 0) h.crcRead n 0 }

/-- Memory mode ends without DONE. -/
def Hw.crcStop (h : Hw) (n : Nat) : Hw :=
  { h.setB F.CRC_STAT_BUSY n false with crcRead := Store.put (fun _ => 0) h.crcRead n 0 }

/-- A write to CRC_CTL (R354 to R356). -/
def crcCtlWrite (noDram : Bool) (n : Nat) (v : Word) (h : Hw) : Hw :=
  let busy := h.crcBusy n
  let h := h.when (busy && (wbit v 0 || wbit v 1)) (·.crcBusyWrite n)
  let h := h.when (!busy && wbit v 0) (·.crcLoad n)
  let h := h.when (!busy && wbit v 1) (·.crcGo n noDram)
  h.when (busy && wbit v 2) (·.crcStop n)

/-- The bytes of its range that memory mode has read, and those that it reads in going on to byte `k`. -/
def Hw.crcSpan (h : Hw) (n k : Nat) : List Nat :=
  let done := Store.get (fun _ => 0) h.crcRead n
  (List.range (min k (h.get F.CRC_LEN_VALUE n) - done)).map fun i => h.crcAddr n + done + i

/-- Memory mode takes the bytes `bs` that follow in its range. -/
def Hw.crcAdvance (h : Hw) (n : Nat) (bs : List Byte) : Hw :=
  { h.crcTake n bs with crcRead := Store.put (fun _ => 0) h.crcRead n (Store.get (fun _ => 0) h.crcRead n + bs.length) }

end Sys2Proof.Machine
end

