-- ==== Sys2Proof/Machine/Sec.lean ====
section
/-! DEFINITION. The SEC block: hashes, signatures, random bytes, the identity, the Rind and the debug unlock (R450 to R463). -/

namespace Sys2Proof.Machine

/-- SEC_CMD operations. -/
def seHashMem : Nat := 1
@[inherit_doc seHashMem] def seHashBuf : Nat := 2
@[inherit_doc seHashMem] def seVerify : Nat := 3
@[inherit_doc seHashMem] def seSignId : Nat := 4
@[inherit_doc seHashMem] def seRandom : Nat := 5
@[inherit_doc seHashMem] def seIdPub : Nat := 6
@[inherit_doc seHashMem] def seAbort : Nat := 0xF

/-- SEC_RESULT codes. -/
def srOk : Nat := 1
@[inherit_doc srOk] def srSigFail : Nat := 2
@[inherit_doc srOk] def srKeyMismatch : Nat := 3
@[inherit_doc srOk] def srTag : Nat := 4
@[inherit_doc srOk] def srDenied : Nat := 5
@[inherit_doc srOk] def srNoKey : Nat := 6
@[inherit_doc srOk] def srRngFail : Nat := 7
@[inherit_doc srOk] def srReadErr : Nat := 8
@[inherit_doc srOk] def srAborted : Nat := 9

/-- SEC_EVT flag numbers. -/
def sfDone : Nat := 0
@[inherit_doc sfDone] def sfSigFail : Nat := 1
@[inherit_doc sfDone] def sfRind : Nat := 2
@[inherit_doc sfDone] def sfRng : Nat := 3
@[inherit_doc sfDone] def sfDbgFail : Nat := 4

/-- Set a flag of SEC_EVT; a flag that becomes 1 while enabled, and a breach in any case, raises event 125. -/
def Hw.secEvt (h : Hw) (k : Nat) : Hw :=
  let rises := !h.bitOf F.SEC_EVT_FLAGS 0 k
  (h.setBit F.SEC_EVT_FLAGS 0 k true).when (rises && h.bitOf F.SEC_IEN_FLAGS 0 k || k == sfRind) (·.raise 125)

/-- The 512 bytes of SEC_BUF. -/
def Hw.secBuf (h : Hw) : List Byte := h.getBytes .SEC_BUF 128

/-- Replace bytes of SEC_BUF from byte `off`. -/
def Hw.putSecBuf (h : Hw) (off : Nat) (bs : List Byte) : Hw :=
  let b := h.secBuf
  h.setBytes .SEC_BUF 0 (b.take off ++ bs ++ b.drop (off + bs.length))

/-- The message that a command took from SEC_BUF. -/
def SecOp.message (o : SecOp) : List Byte := bytesAt o.buf 192 o.len

/-- A command ends with a result (SEC_RESULT, SEC_EVT.DONE). -/
def Hw.secEnd (h : Hw) (code : Nat) : Hw :=
  let h := { (h.setB F.SEC_STAT_BUSY 0 false) with secOp := none }
  ((h.set F.SEC_RESULT_CODE 0 code).when (code == srSigFail) (·.secEvt sfSigFail)).secEvt sfDone

/-- The device secret gives identity keys: KEY is LOCKED. -/
def Hw.hasSecret (h : Hw) : Bool := h.get F.OTP_REGION_STATE 2 == rsLocked

/-- Why a command is refused at its start; none where it runs. `noDram` says that the master may not hash over DRAM. -/
def Hw.secRefusal (h : Hw) (noDram : Bool) (o : SecOp) : Option Nat :=
  if o.op = seHashMem then
    if o.len = 0 ∨ 2 ^ 28 < o.len ∨ (noDram && touchesDram o.src o.len) then some srDenied else none
  else if o.op = seHashBuf ∨ o.op = seVerify then
    if 320 < o.len then some srDenied else none
  else if o.op = seSignId then
    if 320 < o.len then some srDenied
    else if bytesAt o.message 0 8 ≠ tagBytes tagAttest then some srTag
    else if !h.on F.SEC_STAT_IDKEY 0 then some srNoKey
    else none
  else if o.op = seIdPub then
    if h.life ≠ lcManufacture ∨ (o.key ≠ lcDevelopment ∧ o.key ≠ lcField) then some srDenied
    else if !h.hasSecret then some srNoKey
    else none
  else none

/-- A write to SEC_CMD (R452, R463): the command takes SEC_BUF as it stands, so that what is signed is what was checked. It does not
start before a signing request that the ledger has standing. While a command runs, only the abort of a HASH_MEM has an effect. -/
def secCmdWrite (noDram : Bool) (v : Word) (h : Hw) : Hw :=
  let op := (v.extractLsb' 0 4).toNat
  match h.secOp with
  | some o => if op = seAbort ∧ o.op = seHashMem then h.secEnd srAborted else h
  | none =>
    if op = 0 ∨ seIdPub < op then h
    else
      let o : SecOp :=
        { op := op, key := (v.extractLsb' 8 4).toNat,
          tag := bytesLE 4 (h.get F.SEC_TAG_LO_VALUE 0) ++ bytesLE 4 (h.get F.SEC_TAG_HI_VALUE 0),
          src := h.get F.SEC_SRC_LO_VALUE 0 + 2 ^ 32 * (h.get F.SEC_SRC_HI_VALUE 0 % 256), len := h.get F.SEC_LEN_VALUE 0,
          buf := h.secBuf, waits := h.ledger.signing.isSome }
      match h.secRefusal noDram o with
      | some code => h.secEnd code
      | none => { h.setB F.SEC_STAT_BUSY 0 true with secOp := some o }

/-- The result of a signature check by VERIFY. -/
def Hw.secVerdict (h : Hw) (o : SecOp) : Nat :=
  if !h.keyInSlot o.key (o.buf.take 57) then srKeyMismatch
  else if ed448Verify (o.buf.take 57) o.message (bytesAt o.buf 64 114) then srOk
  else srSigFail

/-- A command that waits for a signature of the ledger does not end (R463). -/
def Hw.secWaits (h : Hw) (o : SecOp) : Bool := o.waits && h.ledger.signing.isSome

/-- SEC_OPERATION_DONE (R450 to R452, R463): `rd` reads a byte of the system address space; `bad` says that HASH_MEM met an
uncorrectable error, or that the random source fails its health tests. -/
def Hw.secDone (h : Hw) (rd : Nat → Byte) (bad : Bool) : Hw :=
  match h.secOp with
  | none => h
  | some o =>
    if h.secWaits o then h
    else if o.op = seHashMem then
      if bad then h.secEnd srReadErr
      else (h.setBytes .SEC_DIG 0 (shake256 (o.tag ++ (List.range o.len).map fun k => rd (o.src + k)) 32)).secEnd srOk
    else if o.op = seHashBuf then (h.setBytes .SEC_DIG 0 (shake256 (o.tag ++ o.message) 32)).secEnd srOk
    else if o.op = seVerify then h.secEnd (h.secVerdict o)
    else if o.op = seSignId then
      if h.on F.SEC_STAT_IDKEY 0 then (h.putSecBuf 64 (ed448Sign h.idKey o.message)).secEnd srOk else h.secEnd srNoKey
    else if o.op = seRandom then
      if bad || !h.on F.SEC_STAT_RNG_OK 0 then ((h.setB F.SEC_STAT_RNG_OK 0 false).secEvt sfRng).secEnd srRngFail
      else
        let h := h.putSecBuf 0 ((List.range 32).map fun k => Config.randomByte (h.draws + k))
        { h with draws := h.draws + 32 }.secEnd srOk
    else
      let secret := (List.range 14).flatMap fun k => bytesLE 4 (Store.get (fun _ => 0) h.otp.words (0x05C + k))
      (h.putSecBuf 0 (ed448Public (identityKey o.key secret))).secEnd srOk

/-- The SEC block's own reaction to a breach of the segments in `mask` (R460). -/
def Hw.rindZeroise (h : Hw) (mask : Nat) : Hw :=
  let h := h.set F.SEC_RIND_SEG 0 (Nat.lor (h.get F.SEC_RIND_SEG 0) (mask % 256))
  let h := ((h.setB F.SEC_STAT_RIND_OK 0 false).setB F.SEC_STAT_BREACH 0 true).setB F.SEC_STAT_IDKEY 0 false
  { h.setBytes .SEC_BUF 0 (List.replicate 512 0) with idKey := [] }.secEvt sfRind

/-- RIND_BREACH: segments of the mesh are found breached. In a module that the pin or a thermal trip holds in reset, the sequence still
runs on from t2 once it is released, and finds the breach again (R460, R470). -/
def Hw.rindBreach (h : Hw) (mask : Nat) : Hw :=
  if mask % 256 = 0 then h
  else
    let u := (h.rindZeroise mask).safeHold hcRind
    if h.boot.held then u.updBoot fun b => { b with phase := h.boot.phase } else u

/-- The ledger's signature can be made: a HASH_MEM gives way to it, another command that runs completes first (R463). -/
def Hw.signerFree (h : Hw) : Bool := h.secOp.all fun o => o.waits || o.op == seHashMem

/-- CHECKPOINT_SIGNED: the ledger's signature ends, and a command that waited for it starts (R167, R463). -/
def Hw.ledgerSigned (h : Hw) : Hw :=
  if h.ledger.signing.isSome ∧ h.signerFree = true then
    { h.checkpointSigned with secOp := h.secOp.map fun o => { o with waits := false } }
  else h

/-- SEC draws a new debug challenge (R462). -/
def Hw.newChallenge (h : Hw) : Hw :=
  { h.setBytes .SEC_DBGCHAL 0 ((List.range 32).map fun k => Config.randomByte (h.draws + k)) with draws := h.draws + 32 }

/-- The message that a debug unlock signs (R462). -/
def Hw.unlockMessage (h : Hw) : List Byte :=
  tagBytes tagUnlock ++ h.getBytes .SEC_DBGCHAL 8 ++ bytesLE 8 h.serial ++ bytesLE 1 h.lcb

/-- A debug unlock passes its checks and the lifecycle allows it (R461, R462). -/
def Hw.unlockOk (h : Hw) (key : List Byte) (slot : Nat) (sig : List Byte) : Bool :=
  (h.life == lcManufacture || h.life == lcDevelopment || (h.life == lcField && h.crit 1)) && h.keyInSlot slot key &&
    ed448Verify key h.unlockMessage sig

end Sys2Proof.Machine
end

