-- ==== Sys2Proof/Machine/Boot.lean ====
section
/-! DEFINITION. Resets, and the start up to the choice of the state that the configuration runs in (R430 to R484). -/

namespace Sys2Proof.Machine

/-! ### Resets (R469 to R475) -/

/-- The hardware with every field at its reset value: Pod 0 is PRIMARY and vote source. -/
def Hw.fresh : Hw := (({} : Hw).set F.POD_STAT_STATE 0 podPrimary).setB F.POD_STAT_VOTE 0 true

/-- A register kept through a reset. -/
def Hw.keepReg (new old : Hw) (r : Reg) (n : Nat) : Hw := new.putWord r n (old.word r n)

/-- The retirement cause of a Pod that is RETIRED, or retires at the end of the reset it is in or waits for (R308, R327); 0 for
another. -/
def Hw.retirement (h : Hw) (p : Nat) : Nat :=
  if h.podState p = podRetired then h.get F.POD_STAT_RCAUSE p else (h.pod p).retire

/-- What a WARM reset keeps of Pod `p` (R308, R327, R470, R471): its counts and time stamps, and retirement. -/
def Hw.keepPod (new old : Hw) (p : Nat) : Hw :=
  let h := (new.keepReg old .POD_MMCNT p).updPod p fun _ => { stamps := (old.pod p).stamps }
  let cause := old.retirement p
  if cause = 0 then h
  else
    (((h.set F.POD_STAT_STATE p podRetired).set F.POD_STAT_RCAUSE p cause).set F.POD_STAT_MMWIN p
      (old.get F.POD_STAT_MMWIN p)).setB F.POD_STAT_VOTE p false

/-- The CLK_RSTCAUSE bits of the resets under way: those of a sequence that still runs, of the pin, of a thermal trip and of a
CLK_RSTREQ that waits (R474). -/
def Hw.causesNow (h : Hw) : Nat :=
  let run := if h.dev = devBoot then h.boot.causes else 0
  Nat.lor (Nat.lor run (8 * bit h.boot.heldPin)) (Nat.lor (16 * bit h.boot.rstWaits) (32 * bit h.boot.heldHot))

/-- A WARM reset with a cause: everything at its reset value but what R470 keeps, and the sequence runs again from t2 with
the PLLs as they are. Every cause that takes part is recorded (R474). The temperature of the B-die is no reset's to change (R484). -/
def Hw.warm (old : Hw) (cause : Fld) : Hw :=
  let causes := Nat.lor old.causesNow (2 ^ cause.lo)
  let h := Hw.fresh
  let h := h.forUpTo 6 fun p h => h.keepPod old p
  let h := ((h.keepReg old .CLK_RSTCAUSE 0).keepReg old .CLK_WARMCNT 0).keepReg old .SEC_RIND 0
  let h := h.setB F.SEC_STAT_BREACH 0 (old.on F.SEC_STAT_BREACH 0)
  let h := h.forEach [F.CLK_STAT_REFCLK_OK, F.CLK_STAT_MAIN_LOCK, F.CLK_STAT_SER_LOCK, F.CLK_STAT_DDR_LOCK, F.CLK_STAT_VSYS_OK]
    fun f h => h.setB f 0 (old.on f 0)
  let h := h.forUpTo 8 fun k h => h.keepReg old .SEC_DBGCHAL k
  let h := (h.putWord .CLK_RSTCAUSE 0 (h.word .CLK_RSTCAUSE 0 ||| BitVec.ofNat 32 causes)).bump F.CLK_WARMCNT_COUNT 0 1
  let locked := old.on F.CLK_STAT_REFCLK_OK 0 && old.on F.CLK_STAT_MAIN_LOCK 0
  { h with
    base := old.base + old.time
    draws := old.draws
    out := old.out
    b := { xbOk := old.b.xbOk, pllLock := old.b.pllLock, vsysOk := old.b.vsysOk, vsysWarn := old.b.vsysWarn,
           vsysMv := old.b.vsysMv, therm := old.b.therm }
    boot := { phase := if locked then .locked else .por, heldPor := old.boot.heldPor, heldPin := old.boot.heldPin,
              heldHot := old.boot.heldHot, causes := causes, drawn := old.boot.drawn,
              unlocked := old.boot.unlocked, commLow := old.boot.commLow, pcieUp := old.boot.pcieUp } }

/-- POR is held with a cause, or released (R464, R481): everything stands at its reset value, but for VSYS_B and the temperature of
the B-die, which are none of VSYS's (R484, R490). -/
def Hw.por (old : Hw) (s : Supply) : Hw :=
  let h : Hw := { Hw.fresh with draws := old.draws, out := old.out, b := { vsysOk := old.b.vsysOk, therm := old.b.therm } }
  let held (k : Nat) : Boot :=
    { heldPor := true, heldPin := old.boot.heldPin, heldHot := old.boot.heldHot, causes := Nat.lor old.causesNow k }
  match s with
  | .under => { h with boot := held 2 }
  | .above => { h with boot := held 4 }
  | .within =>
    if old.boot.heldPor then
      let causes := Nat.lor 1 old.causesNow
      { h with boot := { heldPin := old.boot.heldPin, heldHot := old.boot.heldHot, causes := causes,
                         commLow := old.boot.commLow } }.putWord .CLK_RSTCAUSE 0 (BitVec.ofNat 32 causes)
    else old

/-- A WARM reset from the pin: recorded with the others, and held until the rising edge (R472, R474). -/
def Hw.pinReset (h : Hw) : Hw :=
  if h.boot.heldPor then h.updBoot fun b => { b with heldPin := true }
  else (h.warm F.CLK_RSTCAUSE_PIN).updBoot fun b => { b with heldPin := true }

/-- THERMAL_TRIP: the B-die holds its lines off, or the A-die starts a WARM reset and holds it (R484); under POR the hold alone
stands, and its cause is recorded with the others (R474). -/
def Hw.thermalTrip (h : Hw) (sideB : Bool) : Hw :=
  if h.boot.heldPor then if sideB then h.updB fun b => { b with therm := true } else h.updBoot fun b => { b with heldHot := true }
  else if sideB then h.bHold.updB fun b => { b with therm := true }
  else (h.warm F.CLK_RSTCAUSE_THERMAL).updBoot fun b => { b with heldHot := true }

/-- What a reset that does not wait leaves of the array when it cuts a running OTP operation (R441, R473). -/
def NonVol.cutBy (v : NonVol) (h : Hw) (cut : OtpCut) : NonVol :=
  match h.otpOp with
  | none => v
  | some o => v.burnCut cut o.plan

/-- CLK_RSTREQ and DEVICE_RESET: a WARM reset that waits for a running OTP operation (R406, R473). -/
def Hw.requestReset (h : Hw) : Hw :=
  if h.otpOp.isSome then h.updBoot fun b => { b with rstWaits := true } else h.warm F.CLK_RSTCAUSE_REQ

/-- A write to CLK_RSTREQ takes effect with the key and GO. -/
def rstReqWrite (v : Word) (h : Hw) : Hw :=
  if v.extractLsb' 16 16 = 0x574D ∧ wbit v 0 then h.requestReset else h

/-- The reset that waited for the end of an OTP operation (R473). -/
def Hw.afterOtp (h : Hw) : Hw := h.when (h.boot.rstWaits && h.otpOp.isNone) (·.warm F.CLK_RSTCAUSE_REQ)

/-- Every NCP session ends (R394). -/
def Hw.endSessions (h : Hw) : Hw := { h with ncp := { h.ncp with sessions := [] } }

/-- The PCI Express link is lost (R394). -/
def Hw.linkLost (h : Hw) : Hw := h.endSessions.updBoot fun b => { b with pcieUp := false }

/-- PERST: the endpoint with its MSI-X table is reset and its link is down (R475). -/
def Hw.perst (h : Hw) : Hw := { h.linkLost with msixTbl := [], msixPba := 0 }

/-! ### From the PLLs to the boot ROM -/

/-- PLL_LOCKED (R464 t2): REFCLK is stable and the PLLs are locked; VSYS and VSYS_B measure `va` and `vb` mV. -/
def Hw.pllLocked (h : Hw) (va vb : Nat) : Hw :=
  if h.boot.phase = .por then
    let h := (h.set F.CLK_VMON_VSYS 0 va).updB fun b => { b with vsysMv := vb % 65536 }
    let h := h.forEach [F.CLK_STAT_REFCLK_OK, F.CLK_STAT_MAIN_LOCK, F.CLK_STAT_SER_LOCK, F.CLK_STAT_DDR_LOCK, F.CLK_STAT_VSYS_OK]
      fun f h => h.setB f 0 true
    (h.updB fun b => { b with pllLock := b.vsysOk && b.xbOk }).updBoot fun b => { b with phase := .locked }
  else h

/-- CLK_BOOT.STAGE as hardware writes it: a SAFE_HOLD keeps 0xF. -/
def Hw.reach (h : Hw) (k : Nat) : Hw := h.when (h.dev != devSafeHold) (·.setStage k)

/-- FUSE_SENSING_DONE (R433 to R439, R451, R460, R464 t3): `devs` are the copies that read otherwise than they are burned,
`strap` the pin SPLIT_EN, `rng` the health of the random source and `rind` the breached segments. -/
def Hw.sensingDone (h : Hw) (v : NonVol) (devs : List Deviation) (strap rng : Bool) (rind : Nat) : Hw :=
  if h.boot.phase = .locked then
    let h := (h.setB F.SEC_STAT_RIND_OK 0 (rind % 256 == 0)).setB F.SEC_STAT_RNG_OK 0 rng
    let h := h.when (rind % 256 != 0) (·.rindZeroise rind)
    let h := h.setB F.SEC_STAT_DBG_UNLOCKED 0 h.boot.unlocked
    let h := (h.latchFuses v devs strap).when (!rng) (·.secEvt sfRng)
    let h := h.when (!h.boot.drawn) fun h => h.newChallenge.updBoot fun b => { b with drawn := true }
    let h := (h.reach 1).updBoot fun b => { b with phase := .sensed }
    h.when (h.on F.SEC_STAT_BREACH 0) (·.safeHold hcRind)
  else h

/-- The firmware of a start that has ended in SAFE_HOLD still starts, unless the cause keeps it from running (R467). -/
def Hw.firmwareMayRun (h : Hw) : Bool :=
  !h.otp.keyFailed && !h.otp.rotFailed && (h.dev == devBoot ||
    (h.dev == devSafeHold && ([hcXlkVersion, hcBdieStart, hcClock].contains (h.get F.GLB_STATE_HOLD_CAUSE 0))))

/-- A sealed region or slot in DIGEST_NO_LOCK as latched, with whether its digest verifies (R444). -/
def Hw.openEnded (h : Hw) : List (Region × Bool) :=
  let rd := h.otp.rd
  let all := [rgMfg, rgKey, rgRot, rgCrit, rgUsr].filterMap sealedRegion ++ (List.range 32).map slotRegion
  (all.filter fun r => r.state rd h.life == rsNoLock).map fun r => (r, r.digest rd == r.stored rd)

/-- The boot ROM burns the lock bits of the regions that verify and records each of them (R444, R410). -/
def NonVol.closeRegions (v : NonVol) (rs : List (Region × Bool)) : NonVol :=
  rs.foldl (fun v r =>
    if r.2 then (v.burnWord r.1.lockW (2 ^ r.1.lockB)).addRecord brNoLock 0 [BitVec.ofNat 8 r.1.code]
    else v.addRecord brNoLock 2 [BitVec.ofNat 8 r.1.code]) v

/-- The OTP_REGION index of a region: the newest slot stands for CFGD. -/
def Hw.regionIndex (h : Hw) (r : Region) : Option Nat :=
  if r.code < 0x20 then some r.code else if r.code = 0x20 + h.otp.newest then some 4 else none

/-- The values applied when CRIT has FAILED: the CRIT bits, no split, and the debug port as they allow it (R330, R431, R437). -/
def Hw.critFailed (h : Hw) : Hw :=
  let h := h.set F.OTP_CRIT_VALUE 0 4
  let h := ((h.set F.POD_SPLITCFG_FUSE 0 0).set F.POD_SPLITCFG_STRAP 0 0).set F.POD_SPLITCFG_SPLIT 0 0
  let h := (h.setB F.POD_STAT_SPLIT 4 false).setB F.POD_STAT_SPLIT 5 false
  h.setB F.SEC_STAT_DBG_EN 0 h.dbgAllowed

/-- The values applied when MFG has FAILED: every field loaded from it reads 0, and the trims take their defaults (R439). -/
def Hw.mfgFailed (h : Hw) : Hw :=
  let h := ((h.set F.GLB_SERIAL_SERIAL 0 0).set F.GLB_SERIAL_SERIAL 1 0).forUpTo 4 fun k h => h.set F.NPS_PADDR_VALUE k 0
  h.forUpTo 8 fun n h => h.setB F.CLI_STAT_NOTRIM n true

/-- A region in DIGEST_NO_LOCK whose digest differs is FAILED (R439, R444). -/
def Hw.failRegion (h : Hw) (r : Region) : Hw :=
  let h := match h.regionIndex r with
    | none => h
    | some k => (h.set F.OTP_REGION_STATE k rsFailed).setB F.OTP_REGION_DIGBAD k true
  let h := { h with otp := { h.otp with keyFailed := h.otp.keyFailed || r.code == rgKey,
                                         rotFailed := h.otp.rotFailed || r.code == rgRot } }
  let h := ((h.setB F.OTP_STAT_INTEGRITY 0 true).setB F.OTP_STAT_HOLD 0 true).raise 124
  (h.when (r.code == rgCrit) (·.critFailed)).when (r.code == rgMfg) (·.mfgFailed)

/-- A lifecycle package may be carried out (R448). -/
def Hw.lifecycleOk (h : Hw) (b : List Byte) : Bool :=
  let locked (k : Nat) : Bool := h.get F.OTP_REGION_STATE k == rsLocked
  let from_ := pkgFrom b
  let goal := pkgTo b
  (h.verifyPkg .lifecycle b).isNone && from_ == h.life && pkgTarget b == h.serial && h.boot.commLow &&
    decide ((from_ = lcManufacture ∧ goal = lcDevelopment ∧ locked 0 ∧ locked 2 ∧ locked 3 ∧ locked 6) ∨
      (from_ = lcDevelopment ∧ goal = lcField) ∨ (from_ < lcRetired ∧ goal = lcRetired))

/-- The burns of a transition (R449): the LIFE bits, and for RETIRED every KEY payload bit. -/
def transitionPlan (goal : Nat) : List (Nat × Nat) :=
  (0x048, lifeBits goal) :: (if goal = lcRetired then (List.range 14).map fun k => (0x05C + k, 2 ^ 32 - 1) else [])

/-- The boot ROM handles a lifecycle package and erases it (R448, R449, R410). -/
def NonVol.lifecycle (v : NonVol) (ok : Bool) : NonVol :=
  let b := v.flash.life
  let v := { v with flash := { v.flash with life := [] } }
  let v := v.addRecord brLifecycle (if ok then 0 else 1) (bytesAt b 256 16)
  if ok then v.burnAll (transitionPlan (pkgTo b)) else v

/-- The KEY bits that the boot ROM burns at every start in RETIRED (R449). -/
def NonVol.retireKey (v : NonVol) (lc : Nat) : NonVol :=
  if lc = lcRetired then v.burnAll ((List.range 14).map fun k => (0x05C + k, 2 ^ 32 - 1)) else v

/-- No Pod can run the boot ROM (R471). -/
def Hw.noBootPod (h : Hw) : Bool := h.podState 0 == podRetired && h.podState 1 == podRetired

/-- XLK_C is trained: the A-die has the B-die's step from it (R1). -/
def Hw.xlkcTrained (h : Hw) : Hw := (h.setB F.XLK_STAT_XLKC_UP 0 true).set F.GLB_ID_BSTEP 0 0xA2

/-- Both dies check the version word `ver` of a cross link when the link is first trained after the start of the B-die; a
mismatch ends in SAFE_HOLD (R24). -/
def Hw.checkVersion (h : Hw) (linkD : Bool) (ver : Nat) : Hw :=
  if (if linkD then h.b.verD else h.b.verC).isSome then h
  else
    let own := h.get F.GLB_IFVER_XLK 0
    let h := h.updB fun b => if linkD then { b with verD := some (ver % 16) } else { b with verC := some (ver % 16) }
    let h := h.set F.XLK_STAT_BVER 0 ver
    let h := h.setB F.XLK_STAT_VER_OK 0 (h.b.verC == some own && h.b.verD == some own)
    if ver % 16 = own then h else (h.setB F.XLK_ERR_VERSION 0 true).safeHold hcXlkVersion

/-- The Pod that runs the boot ROM, split Pods, XLK_C in training, and the link version (R24, R329 to R331, R471). -/
def Hw.bootPods (h : Hw) (ver : Nat) : Hw :=
  let p := if h.podState 0 = podRetired then 1 else 0
  let h := (h.set F.POD_STAT_STATE p podPrimary).setB F.POD_STAT_VOTE p true
  let h := h.forEach [4, 5] fun p h =>
    h.when (h.on F.POD_STAT_SPLIT p && h.podState p != podRetired) fun h => (h.set F.POD_STAT_STATE p podSplit).raiseAt 122 p
  if h.b.runs then
    (h.xlkcTrained.updB fun b => { b with state := bsSelftest }).checkVersion false ver
  else h

/-- The regions that do not verify are FAILED. -/
def Hw.failRegions (h : Hw) (rs : List (Region × Bool)) : Hw :=
  h.forEach (rs.filter fun r => !r.2) fun r h => h.failRegion r.1

/-- BOOT_ROM_START in the hardware (R439, R444, R448, R464 t4, R471): `ver` is the cross-link version that the B-die reports
and `commLow` the level of COMM_N. -/
def Hw.bootRomStart (h : Hw) (v : NonVol) (ver : Nat) (commLow : Bool) : Hw :=
  if h.boot.phase = .sensed then
    let h := (h.reach 2).updBoot fun b => { b with phase := .rom, commLow := commLow }
    if h.noBootPod then h.safeHold hcPodBoot
    else
      let rs := h.openEnded
      let h := (h.failRegions rs).bootPods ver
      if rs.any fun r => r.2 then h.warm F.CLK_RSTCAUSE_BOOTROM
      else if h.otp.keyFailed || h.otp.rotFailed then (h.safeHold hcOtpKeyRot).updBoot fun b => { b with phase := .ended }
      else if h.lifecycleOk v.flash.life then h.warm F.CLK_RSTCAUSE_BOOTROM
      else h.when (h.on F.OTP_STAT_INTEGRITY 0) (otpCtlWrite 2)
  else h

/-- BOOT_ROM_START in the array and the boot flash. -/
def NonVol.bootRomStart (v : NonVol) (h : Hw) (ver : Nat) (commLow : Bool) : NonVol :=
  if h.boot.phase = .sensed && !h.noBootPod then
    let h := (h.reach 2).updBoot fun b => { b with phase := .rom, commLow := commLow }
    let rs := h.openEnded
    let g := (h.failRegions rs).bootPods ver
    let v := (if g.dev = devSafeHold then v.holdRecord h hcXlkVersion else v).retireKey h.life
    let v := v.closeRegions rs
    if rs.any fun r => r.2 then v
    else if g.otp.keyFailed || g.otp.rotFailed then v.holdRecord g hcOtpKeyRot
    else if v.flash.life.isEmpty then v
    else v.lifecycle (g.lifecycleOk v.flash.life)
  else v

/-! ### Firmware (R456) -/

/-- The firmware area that starts: the one with the higher version of those that verify. The spec names none for equal
versions: `free` chooses. -/
def Hw.firmwareArea (h : Hw) (f : Flash) (free : Nat) : Option Nat :=
  let ok0 := (h.verifyPkg .firmware f.fw0).isNone
  let ok1 := (h.verifyPkg .firmware f.fw1).isNone
  if ok0 && ok1 then
    if pkgVersion f.fw1 < pkgVersion f.fw0 then some 0
    else if pkgVersion f.fw0 < pkgVersion f.fw1 then some 1
    else some (free % 2)
  else if ok0 then some 0
  else if ok1 then some 1
  else none

/-- The firmware package of an area. -/
def Flash.fw (f : Flash) (area : Nat) : List Byte := if area = 0 then f.fw0 else f.fw1

/-- The boot ROM raises the anti-rollback count for a package (R439, R456). -/
def Hw.raisesRbk (h : Hw) (b : List Byte) : Bool := decide (h.rbkCount < pkgRbk b) && h.get F.OTP_REGION_STATE 5 != rsFailed

/-- The firmware chosen at this start. -/
def Hw.chosenFw (h : Hw) (v : NonVol) : Option Nat := h.firmwareArea v.flash (Config.freeValue h.draws)

/-- The boot ROM's RBK_ADVANCE ends with OK. -/
def Hw.rbkAdvanced (h : Hw) (n : Nat) : Hw :=
  h.otpEnd { op := opRbkAdvance, target := n, plan := rbkPlan n, code := orOk } orOk

/-- The boot ROM's anti-rollback advance for the firmware `b`, with its boot record (R410, R456). -/
def NonVol.rbkRaised (v : NonVol) (h : Hw) (b : List Byte) : NonVol :=
  if h.raisesRbk b then
    (v.burnAll (rbkPlan (pkgRbk b))).addRecord brRbk 0 [BitVec.ofNat 8 h.rbkCount, BitVec.ofNat 8 (pkgRbk b)]
  else v

/-- FIRMWARE_START in the hardware (R40, R456, R464 t5, R467): firmware copies the boot records, that of the advance among them,
and then logs a hold that came before it (R408, R410). -/
def Hw.firmwareStart (h : Hw) (v : NonVol) : Hw :=
  if h.boot.phase = .rom && h.firmwareMayRun then
    match h.chosenFw v with
    | none => if h.dev = devBoot then h.safeHold hcFwVerify else h.updBoot fun b => { b with phase := .ended }
    | some a =>
      let b := v.flash.fw a
      let raised := v.rbkRaised h b
      let h := { h with draws := h.draws + 1 }
      let h := h.when (h.raisesRbk b) (·.rbkAdvanced (pkgRbk b))
      let h := h.setB F.OTP_CTL_BOOTLK 0 true
      let h := (h.set F.GLB_FWVER_MAJOR 0 (pkgMajor b)).set F.GLB_FWVER_MINOR 0 (pkgMinor b)
      let h := (h.reach 3).updBoot fun x => { x with svcUp := true, area := a, fwDigest := pkgBodyDig b, phase := .firmware }
      (h.copyRecords raised).when (h.dev == devSafeHold) (·.logBoot 3 [])
  else h

/-- FIRMWARE_START in the array and the boot flash. -/
def NonVol.firmwareStart (v : NonVol) (h : Hw) : NonVol :=
  if h.boot.phase = .rom && h.firmwareMayRun then
    match h.chosenFw v with
    | none => v.holdRecord h hcFwVerify
    | some a => v.rbkRaised h (v.flash.fw a)
  else v

/-! ### DRAM (R47) -/

/-- DRAM_TRAINING_DONE (R47, R464 t6): LPDDR5 is trained, wiped and ECC-initialised, or every attempt has failed. The start of a
device in SAFE_HOLD ends here (R467). -/
def Hw.dramTrained (h : Hw) (ok : Bool) : Hw :=
  if h.boot.phase = .firmware then
    let h := h.when (h.dev != devBoot) (·.updBoot fun b => { b with phase := .ended })
    if ok then
      let h := { h with dram := [] }
      let h := ((h.setB F.DDR_STAT_TRAINED 0 true).setB F.DDR_STAT_ECC_ON 0 true).setB F.DDR_STAT_WIPED 0 true
      (h.reach 4).when (h.dev == devBoot) (·.updBoot fun b => { b with phase := .dram })
    else (h.ddrEvt F.DDR_EVT_TRAIN_FAIL F.DDR_IEN_TRAIN_FAIL).safeHold hcDdr
  else h

/-! ### The configuration (R446, R455, R457) -/

/-- The range of T_SYNC of a function type in ms, least and largest (R197, R204). -/
def tSyncRange (type : Nat) : Nat × Nat :=
  if type = ftTwoHand ∨ type = ftLightCurtain then (10, 500) else (10, 3000)

/-- A type with a fault condition of its own, which its function latches (R197 to R218). -/
def latchingType (type : Nat) : Bool :=
  [ftEstop, ftGuard, ftGuardLock, ftTwoHand, ftLightCurtain, ftEdm, ftAnalog, ftOutput, ftEnvSelect].contains type

/-- The parameters of a function lie in the ranges of R195 and of its type's table. -/
def FnCfg.inRange (f : FnCfg) : Bool :=
  let r := tSyncRange f.type
  let pairType := [ftEstop, ftGuard, ftGuardLock, ftTwoHand, ftLightCurtain].contains f.type
  let target : Bool := match f.target with
    | .none => true
    | .so n => decide (n < 16)
    | .seo n => decide (n < 16)
    | .peerOut p b => decide (p < 16 ∧ b < 64)
  decide (1 ≤ f.type ∧ f.type ≤ 0x10) && decide (f.fgrp ≤ 15 ∧ f.pair < 3) && decide (1 ≤ f.disc ∧ f.disc ≤ 1023) &&
  decide (f.ridx.getD 0 ≤ 15) && (!pairType || decide (r.1 ≤ f.tSync ∧ f.tSync ≤ r.2)) &&
  (f.type != ftGuardLock || decide (f.lockout < 16 ∧ f.tZc ≤ 600000 ∧ 10 ≤ f.tPlaus ∧ f.tPlaus ≤ 3000)) &&
  (f.type != ftEdm || decide (10 ≤ f.tEdm ∧ f.tEdm ≤ 1000)) &&
  (f.type != ftAnalog || decide (0 ≤ f.hyst ∧ 2 * f.hyst ≤ f.hi - f.lo ∧ 0 ≤ f.band ∧ 10 ≤ f.tBand ∧ f.tBand ≤ 10000)) &&
  (f.type != ftZone || decide (f.zone < 64)) && (!(f.type == ftOnDelay || f.type == ftOffDelay) || decide (f.delay ≤ 60000)) &&
  target && (f.type != ftEnvSelect || (decide (f.group ≤ 15) && (f.modeRequest || decide (50 ≤ f.settle ∧ f.settle ≤ 5000))))

/-- Check parameters that a lane may run with (R506). -/
def CrcParams.laneOk (p : CrcParams) : Bool :=
  decide (3 ≤ p.width ∧ p.width ≤ 32 ∧ p.poly ≠ 0 ∧ p.poly < 2 ^ 32 ∧ p.init < 2 ^ 32 ∧ p.xorOut < 2 ^ 32)

/-- A path of a current-loop input has an average length, a characteristic and a cutoff that its registers hold (R281, R283). -/
def CliCfg.inRange (x : CliCfg) : Bool := decide (1 ≤ x.avg ∧ x.avg ≤ 100 ∧ x.char ≤ 2 ∧ x.cut < 65536)

/-- The parameters of lanes, inputs, test pulses and peers lie in the ranges of R58, R70, R235, R251, R281, R425 and R506, and in
those of the register fields that channel A takes them from. -/
def PkgConfig.inRange (c : PkgConfig) : Bool :=
  let filtOk (n : Nat) : Bool := decide (5 ≤ n ∧ n ≤ 200)
  let lane (n : Nat) : LaneCfg := c.lane n
  decide (c.tc ≤ 3 ∧ c.tpEn < 65536 ∧ c.localId < 65536 ∧ c.peakEp < 2 ^ 25) &&
  ((List.range 16).all fun n => (lane n).crc.laneOk && (lane n).egCrc.laneOk &&
    decide ((lane n).p12Shift ≤ 4 ∧ 13334 ≤ (lane n).ts ∧ (lane n).ts ≤ 16777215)) &&
  (c.fns.all fun x => x.2.type == 0 || x.2.inRange) &&
  (c.di.all fun x => filtOk x.2.filt && (x.2.ossd == 0 || decide (10 ≤ x.2.ossd ∧ x.2.ossd ≤ 100)) && decide (x.2.src.getD 0 < 16)) &&
  (c.dqFilt.all fun x => filtOk x.2) && (c.cli.all fun x => x.2.inRange) && (c.cliS.all fun x => x.2.inRange) &&
  (c.zmap.all fun x => decide (x.2 < 64)) && (c.groups.all fun x => decide (x.2 < 16)) &&
  decide (10 ≤ c.tpW ∧ c.tpW ≤ 100 ∧ 20 ≤ c.tpL ∧ c.tpL ≤ 3125 ∧ 2 * c.tpW ≤ c.tpL) &&
  (c.peers.all fun x => decide (1 ≤ x.2.cycle ∧ x.2.cycle ≤ 100 ∧ 3 ≤ x.2.wd ∧ x.2.wd ≤ 1000 ∧ x.2.pair ≤ 3))

/-- A configuration that the loaders refuse (R27, R28, R115, R118, R131, R195, R199, R217, R218, R236, R239, R322, R332,
R418, R425, R506), with every parameter that lies outside its range, and one with two OUTPUT functions on a target (R214; DEDUCED, log
entry 130); `split` says that Pod 4 or Pod 5 is split. -/
def PkgConfig.refused (c : PkgConfig) (split : Bool) : Bool :=
  let fns := (List.range 256).filter fun n => (c.fn n).type != 0
  let lanes := List.range 16
  let us := tcOf c.tc
  let zoneGroups (z : Nat) : List Nat :=
    (lanes.filter fun n => engineHasZone c.zmap n z).map c.groupOf
  let dis (f : FnCfg) : List Nat := (List.range 4).filterMap fun k =>
    if srcKind (f.src k) = .di then some (nfield (f.src k) 0 12) else none
  let di (i : Nat) : DiCfg := Store.get (fun _ => {}) c.di i
  let needsRidx (f : FnCfg) : Bool := f.restartManual || latchingType f.type
  let pairFns (q : Nat) : List Nat := fns.filter fun n => (c.fn n).pair == q
  let owns (w : Nat) : Bool := (List.range 16).any fun k => nfield w (2 * k) 2 == 2
  let peer (p : Nat) : PeerCfg := Store.get (fun _ => {}) c.peers p
  let drives (n : Nat) (t : Target) : Bool := (c.fn n).type == ftOutput && (c.fn n).target == t && t != .none
  !c.inRange || (fns.any fun n => drives n (c.fn n).target && fns.any fun m => m != n && drives m (c.fn n).target) ||
  (fns.any fun m => fns.any fun n => (c.fn m).fgrp == (c.fn n).fgrp && (c.fn m).pair != (c.fn n).pair) ||
  ((List.range 16).any fun g => decide (1 < (fns.filter fun n => (c.fn n).type == ftEnvSelect && (c.fn n).group == g).length)) ||
  (lanes.any fun n => decide (c.peakEp < 2 * (c.lane n).ts)) ||
  ((List.range 64).any fun z => match zoneGroups z with
    | [] => false
    | g :: gs => gs.any (· != g)) ||
  ((List.range 64).any fun z => decide (1 < (fns.filter fun n => (c.fn n).type == ftZone && (c.fn n).zone == z).length)) ||
  (fns.any fun n => needsRidx (c.fn n) && (c.fn n).ridx.isNone) ||
  (fns.any fun n => (c.fn n).type == ftLightCurtain && (dis (c.fn n)).any fun i => (di i).src.isSome) ||
  (fns.any fun n => (c.fn n).type == ftEnvSelect && (c.fn n).setMask == 0) ||
  ((List.range 48).any fun i => match (di i).src with
    | none => false
    | some j => (di i).ossd != 0 || !nbit c.tpEn j) ||
  ((List.range 3).any fun q => !(pairFns q).isEmpty &&
    (let w := Store.get (fun _ => (0, 0)) c.worst q
     decide (dirtyLimit us < w.1 ∨ 9 * us < 10 * w.2))) ||
  (split && (!(pairFns 2).isEmpty || owns c.soOwn || owns c.seoOwn ||
    ((List.range 4).any fun k => owns (Store.get (fun _ => 0xFFFFFFFF) c.zoneOwn k)))) ||
  (fns.any fun n => match (c.fn n).target with
    | .peerOut p _ => (c.fn n).type == ftOutput && (c.fn n).pair != (peer p).pair
    | .none => false
    | .so _ => false
    | .seo _ => false) ||
  ((List.range 16).any fun p => (peer p).en && decide ((peer p).wd < 2 * (peer p).cycle + 1)) ||
  (c.bZones.any fun z => decide (z.2.k < 1 ∨ 15 < z.2.k))

/-- The state that the installed configuration runs in (R446). -/
def Hw.chosenState (h : Hw) (f : Flash) (c : PkgConfig) : Nat :=
  if (h.verifyPkg .config f.cfg).isSome || c.refused (h.on F.POD_STAT_SPLIT 4 || h.on F.POD_STAT_SPLIT 5) then devUnconfigured
  else if h.otp.newestOk && pkgBodyDig f.cfg == h.otp.newestDigest then devStartup
  else if h.life == lcDevelopment && h.crit 5 && f.trial then devTrial
  else devUnconfigured

/-- The B-die's installed digest (R457): it takes the package that is streamed to it, and compares it with the newest slot
on the wires (R438). -/
def Hw.bInstall (h : Hw) (body : List Byte) : Hw :=
  if h.on F.XLK_STAT_XLKC_UP 0 && h.b.selftestOk then
    let d := digest tagConf body
    h.updB fun b => { b with digest := d, digValid := true, cfgOk := h.otp.newestOk && d == h.otp.newestDigest }
  else h

/-- CONFIG_LOAD (R438, R446, R457, R464 t7): the installed package is read into staging and verified; `c` is what its body says. -/
def Hw.configLoad (h : Hw) (v : NonVol) (c : PkgConfig) : Hw :=
  if h.boot.phase = .dram then
    let f := v.flash
    let ok := (h.verifyPkg .config f.cfg).isNone
    let st := h.chosenState f c
    let h := (h.putDram stagingBase f.cfg).when ok fun h => (h.setBytes .GLB_CFGDIG 0 (pkgBodyDig f.cfg)).bInstall (pkgBody f.cfg)
    let h := h.reach 5
    if st = devUnconfigured then
      let h := (h.set F.GLB_STATE_STATE 0 devUnconfigured).updBoot fun b => { b with phase := .ended }
      (h.updB fun b => { b with state := bsUnconfigured }).logBoot 2 []
    else
      let h := h.when (st == devStartup) fun h => (h.setB F.GLB_STATE_SLOT_VALID 0 true).set F.GLB_STATE_CFG_SLOT 0 h.otp.newest
      let h := { h with cfg := c }.updB fun b => { b with cfg := c }
      h.updBoot fun b => { b with phase := .config, trial := st == devTrial }
  else h

/-! ### The B-die's start (R464, R467, R482) -/

/-- BDIE_SELFTEST_DONE: with the self-test passed XLK_D is trained and its version word `ver` checked (R24); a failed
self-test holds the start. -/
def Hw.bSelftest (h : Hw) (ok : Bool) (ver : Nat) : Hw :=
  if h.b.state = bsSelftest then
    let h := h.updB fun b => { b with selftestOk := ok, state := if ok then bsWaitCfg else bsHold }
    let h := h.when ok fun h => (h.setB F.XLK_STAT_XLKD_UP 0 true).checkVersion true ver
    h.when (!ok && h.dev == devBoot) (·.safeHold hcBdieStart)
  else h

/-- The B-die may evaluate the configuration it has installed: a commissioned one by the wires, or an uncommissioned one where
CRIT.TRIAL_EN and the lifecycle on the wires permit a trial (R437, R438). -/
def Hw.bMayRun (h : Hw) : Bool := h.b.digValid && (h.b.cfgOk || (h.life == lcDevelopment && h.crit 5))

/-- The B-die's start is late: it is not trained, its self-test has not passed, its digest has not come, or it does not evaluate
what is installed. -/
def Hw.bLate (h : Hw) : Bool :=
  h.dev == devBoot &&
    ((h.boot.phase != .por && h.boot.phase != .locked && h.boot.phase != .sensed && !h.on F.XLK_STAT_XLKC_UP 0) ||
      ((h.boot.phase == .config || h.boot.phase == .setup || h.boot.phase == .tested) && !h.bMayRun))

/-- BDIE_START_TIMEOUT (R467). -/
def Hw.bStartTimeout (h : Hw) : Hw := h.when h.bLate (·.safeHold hcBdieStart)

/-- BDIE_SUPERVISOR_RESET (R481, R482): VSYS_B leaves its window, and the B-die alone is reset and drives nothing; or it
returns, and the B-die runs its own sequence again. -/
def Hw.bSupervisor (h : Hw) (ok : Bool) : Hw :=
  if ok then
    if h.b.vsysOk then h
    else h.updB fun b => { b with vsysOk := true, pllLock := b.xbOk, state := bsSelftest }
  else
    let h := ({ h.bHold with evB := {}, toA := [], xlkD := [], toB := [] } : Hw).forUpTo 16 fun n h => h.updLane n fun l => { l with late := [] }
    let h := { h with b := { xbOk := h.b.xbOk, vsysOk := false } }
    let h := ((h.setB F.XLK_STAT_XLKC_UP 0 false).setB F.XLK_STAT_XLKD_UP 0 false).setB F.XLK_ERR_XLKC_DOWN 0 true
    let h := { h.setB F.XLK_ERR_XLKD_DOWN 0 true with nps := h.nps.filter fun k => decide (k.1 < 16) }
    h.updFio fun f =>
      { f with latchB := 0, clrB := 0, di := f.di.filter fun k => decide (k.1 < 64), tp := f.tp.filter fun k => decide (k.1 < 64),
               links := f.links.filter fun k => decide (k.1 < 2), cli := f.cli.filter fun k => decide (k.1 < 64) }

/-! ### Resets with what they leave of a running OTP operation -/

/-- POWER_ON_RESET (R464, R481, R441): an operation is cut when POR is newly held. -/
def NonVol.porCut (v : NonVol) (h : Hw) (s : Supply) (cut : OtpCut) : NonVol := if s = .within then v else v.cutBy h cut

/-- NRST_IN_WARM_RESET (R472): NRST_IN_N falls; a pin that is low already changes nothing. -/
def Hw.nrst (h : Hw) (nv : NonVol) (cut : OtpCut) : Hw × NonVol :=
  if h.boot.heldPin then (h, nv) else (h.pinReset, nv.cutBy h cut)

/-- THERMAL_TRIP (R484): only a trip of the A-die resets it and cuts an operation. -/
def Hw.thermal (h : Hw) (nv : NonVol) (sideB : Bool) (cut : OtpCut) : Hw × NonVol :=
  if !sideB && h.boot.heldHot then (h, nv) else (h.thermalTrip sideB, if sideB then nv else nv.cutBy h cut)

/-- DEBUG_UNLOCK (R462): the challenge is drawn anew; a success resets the module with debug access, a failure sets
DBG_FAIL. -/
def Hw.unlock (h : Hw) (nv : NonVol) (key : List Byte) (slot : Nat) (sig : List Byte) (cut : OtpCut) : Hw × NonVol :=
  if h.unlockOk key slot sig then
    ((h.newChallenge.updBoot fun b => { b with unlocked := true }).warm F.CLK_RSTCAUSE_BOOTROM, nv.cutBy h cut)
  else ((h.secEvt sfDbgFail).newChallenge, nv)

end Sys2Proof.Machine
end

