-- ==== Sys2Proof/Machine/State.lean ====
section
/-! DEFINITION. The state of the AK7216 module: the volatile hardware, the non-volatile storage and the commands that wait. -/

namespace Sys2Proof.Machine

/-- The module: `hw` is everything that a power cycle clears, `nv` the fuse array and the configuration flash, and
`pending` the commands that wait, first in first out. -/
structure State where
  hw : Hw
  nv : NonVol
  pending : List Instr
deriving DecidableEq, Repr

/-- Reasons for a fault. There is none: the spec gives every command an effect. -/
inductive Fault where
deriving DecidableEq, Repr

/-- Reasons for a refusal. -/
inductive Refusal where
  /-- A command without a meaning in this model; raised by no arm. It would be safe: the machine stops. -/
  | notModelled (mnemonic : String)
deriving DecidableEq, Repr

/-- Right after power-on reset: every register at its reset value, memories empty, fuses unburned, flash empty. -/
def State.reset : State := { hw := Hw.fresh, nv := {}, pending := [] }

end Sys2Proof.Machine
end

