-- ==== Sys2Proof/Machine/Apply.lean ====
section
/-! DEFINITION. How a command acts on the state: on the volatile hardware, with a view of the non-volatile storage, or on
both. A module held in reset reacts only to what ends or changes the hold. -/

namespace Sys2Proof.Machine

/-- A command of the hardware; it has no effect while the module is held in reset. -/
def State.apply (s : State) (f : Hw → Hw) : Host.Outcome State Fault Refusal :=
  .next (if s.hw.boot.held then s else { s with hw := f s.hw })

/-- A command of the hardware that looks at the non-volatile storage. -/
def State.applyBus (s : State) (f : Hw → NonVol → Hw) : Host.Outcome State Fault Refusal :=
  .next (if s.hw.boot.held then s else { s with hw := f s.hw s.nv })

/-- A command of the hardware that may end the start in SAFE_HOLD before firmware runs: the boot ROM then leaves a HOLD
record (R410, R467). -/
def State.applyHold (s : State) (f : Hw → NonVol → Hw) : Host.Outcome State Fault Refusal :=
  .next (if s.hw.boot.held then s
    else
      let h := f s.hw s.nv
      let nv := if s.hw.dev ≠ devSafeHold ∧ h.dev = devSafeHold then s.nv.holdRecord s.hw (h.get F.GLB_STATE_HOLD_CAUSE 0) else s.nv
      { s with hw := h, nv := nv })

/-- An event, taken under the holds of the pin and of a thermal trip as well, that may end the start in SAFE_HOLD. -/
def State.alwaysHold (s : State) (f : Hw → NonVol → Hw) : Host.Outcome State Fault Refusal :=
  .next (if s.hw.boot.heldPor then s
    else
      let h := f s.hw s.nv
      let nv := if s.hw.dev ≠ devSafeHold ∧ h.dev = devSafeHold then s.nv.holdRecord s.hw (h.get F.GLB_STATE_HOLD_CAUSE 0) else s.nv
      { s with hw := h, nv := nv })

/-- A command that changes the hardware and the non-volatile storage. -/
def State.applyNv (s : State) (f : Hw → NonVol → Hw × NonVol) : Host.Outcome State Fault Refusal :=
  .next (if s.hw.boot.held then s else { s with hw := (f s.hw s.nv).1, nv := (f s.hw s.nv).2 })

/-- An event that the hardware takes while it is held in reset as well. -/
def State.always (s : State) (f : Hw → Hw) : Host.Outcome State Fault Refusal := .next { s with hw := f s.hw }

/-- An event taken while held as well that also acts on the non-volatile storage. -/
def State.alwaysNv (s : State) (f : Hw → NonVol → Hw × NonVol) : Host.Outcome State Fault Refusal :=
  .next { s with hw := (f s.hw s.nv).1, nv := (f s.hw s.nv).2 }

end Sys2Proof.Machine
end

