-- ==== Sys2Proof/Machine/Clock.lean ====
section
/-! DEFINITION. Clock, supply and temperature monitors, and clock gating (R476 to R484). -/

namespace Sys2Proof.Machine

/-- A flag of CLK_EVT is set: one that becomes 1 while enabled, and a loss of REFCLK or PLL_MAIN in any case, raises event
127. -/
def Hw.clkEvt (h : Hw) (flag ien : Fld) (always : Bool) : Hw :=
  let rises := !h.on flag 0
  (h.setB flag 0 true).when (always || (rises && h.on ien 0)) (·.raise 127)

/-- REFCLK_LOSS: REFCLK fails, or PLL_MAIN loses lock (R477). -/
def Hw.refclkLoss (h : Hw) (pll : Bool) : Hw :=
  let h := if pll then (h.setB F.CLK_STAT_MAIN_LOCK 0 false).clkEvt F.CLK_EVT_MAIN_LOL F.CLK_IEN_MAIN_LOL true
    else (h.setB F.CLK_STAT_REFCLK_OK 0 false).clkEvt F.CLK_EVT_REFCLK F.CLK_IEN_REFCLK true
  h.safeHold hcClock

/-- PLL_SER_LOSS: the lanes of a quad lose block lock in both directions (R477, R79). -/
def Hw.pllSerLoss (h : Hw) (quad : Nat) : Hw :=
  let h := (h.setB F.CLK_STAT_SER_LOCK 0 false).clkEvt F.CLK_EVT_SER_LOL F.CLK_IEN_SER_LOL false
  h.forUpTo 4 fun k h => (h.lockLost (4 * quad + k) .ingress).lockLost (4 * quad + k) .egress

/-- PLL_DDR_LOSS (R477): no entry can be opened until PLL_DDR locks again. FULL sets, and blanking begins, with the next segment that
asks for an entry (R170; DESIGN CHOICE, log entry 124). -/
def Hw.pllDdrLoss (h : Hw) : Hw := (h.setB F.CLK_STAT_DDR_LOCK 0 false).clkEvt F.CLK_EVT_DDR_LOL F.CLK_IEN_DDR_LOL false

/-- PLL_DDR_RELOCK (R477). -/
def Hw.pllDdrRelock (h : Hw) : Hw := h.setB F.CLK_STAT_DDR_LOCK 0 true

/-- XB_LOSS: XB fails, or the B-die's PLL (R477). -/
def Hw.xbLoss (h : Hw) (pll : Bool) : Hw :=
  h.bHold.updB fun b => if pll then { b with pllLock := false } else { b with xbOk := false, pllLock := false }

/-- The count of a die's windows in a row outside the accepted range, up to 2 (R479). -/
def windowCount (inRange : Bool) (old : Nat) : Nat := if inRange then 0 else min (old + 1) 2

/-- CLOCK_CHECK_WINDOW: the A-die has counted `a` TIMEBASE ticks and the B-die `b` B_CLK cycles (R478, R479). -/
def Hw.clockWindow (h : Hw) (a b : Nat) : Hw :=
  if h.on F.XLK_STAT_XLKC_UP 0 && h.b.runs then
    let okA := decide (98000 ≤ a ∧ a ≤ 102000)
    let okB := decide (196000 ≤ b ∧ b ≤ 204000)
    let wasA := h.get F.CLK_XMON_AFAIL 0
    let wasB := h.get F.CLK_XMON_BFAIL 0
    let nowA := windowCount okA wasA
    let nowB := windowCount okB wasB
    let dev := clampInt (-512) 511 (((b : Int) - 200000).fdiv 20)
    let h := ((h.set F.CLK_XMON_ACNT 0 (min a 131071)).set F.CLK_XMON_BDEV 0 (unsigned32 dev)).set F.CLK_XMON_AFAIL 0 nowA
    let h := (h.set F.CLK_XMON_BFAIL 0 nowB).setB F.CLK_STAT_XMON_OK 0 (okA && okB)
    let h := h.when (!(okA && okB)) (·.clkEvt F.CLK_EVT_XMON F.CLK_IEN_XMON false)
    let faultA := decide (nowA = 2 ∧ wasA < 2)
    let faultB := decide (nowB = 2 ∧ wasB < 2)
    let h := h.when faultA (·.raise 45)
    let h := h.when faultB (·.bHold.raise 45)
    h.when (faultA || faultB) (·.safeHold hcClock)
  else h

/-- A write to CLK_GATE (R480): DOSE does not stop after activation, and no quad with an enabled lane stops. The lanes of a quad that
stops lose block lock. -/
def clkGateWrite (v : Word) (h : Hw) : Hw :=
  let quads := (v.extractLsb' 1 4).toNat
  let stops (q : Nat) : Bool := h.bitOf F.CLK_GATE_QUAD 0 q && !nbit quads q
  let busy (q : Nat) : Bool := (List.range 4).any fun k => h.on F.LANE_CTL_EN (4 * q + k)
  let refused := (List.range 4).any fun q => stops q && busy q
  let h := if refused then h
    else (h.set F.CLK_GATE_QUAD 0 quads).forUpTo 16 fun n h =>
      h.when (!nbit quads (n / 4)) fun h => (h.lockLost n .ingress).lockLost n .egress
  if h.on F.CHK_STAT_ACTIVE 0 && !wbit v 0 then h else h.setB F.CLK_GATE_DOSE 0 (wbit v 0)

/-- A write to CLK_BOOT: firmware reports a stage; MS takes the time of a change. -/
def clkBootWrite (v : Word) (h : Hw) : Hw :=
  let old := h.get F.CLK_BOOT_STAGE 0
  let h := h.writeFields .CLK_BOOT 0 false v
  if h.get F.CLK_BOOT_STAGE 0 = old then h else h.setStage (h.get F.CLK_BOOT_STAGE 0)

/-- VSYS_WARN: VSYS, or VSYS_B, measures `mv` and has been below 10.8 V for 1 ms (R481). -/
def Hw.vsysWarn (h : Hw) (sideB : Bool) (mv : Nat) : Hw :=
  if sideB then
    (h.updB fun b => { b with vsysWarn := true, vsysMv := mv % 65536 }).clkEvt F.CLK_EVT_VSYSB_WARN F.CLK_IEN_VSYSB_WARN false
  else ((h.setB F.CLK_STAT_VSYS_OK 0 false).set F.CLK_VMON_VSYS 0 mv).clkEvt F.CLK_EVT_VSYS_WARN F.CLK_IEN_VSYS_WARN false

/-! ### Temperatures (R483): sensors 0 to 3 on the A-die, 4 the B-die, 5 F0 and 6 F1 -/

/-- The field of sensor `k`; 7 is the highest of all. -/
def tempField (k : Nat) : Fld := if k % 2 = 0 then F.CLK_TEMP_LO else F.CLK_TEMP_HI

/-- The last reading of a sensor in 1/16 °C. -/
def Hw.temp (h : Hw) (k : Nat) : Int := (BitVec.ofNat 16 (h.get (tempField k) (k / 2))).toInt

/-- A sensor reads `t`; the highest of all follows. -/
def Hw.setTemp (h : Hw) (k : Nat) (t : Int) : Hw :=
  let h := h.set (tempField k) (k / 2) (unsigned32 t)
  let top := (List.range 6).foldl (fun m i => max m (h.temp (i + 1))) (h.temp 0)
  h.set (tempField 7) 3 (unsigned32 top)

/-- THERMAL_WARN: sensor `k` reads `t` (R483). -/
def Hw.thermalWarn (h : Hw) (k : Nat) (t : Int) : Hw :=
  let h := h.setTemp k t
  if 16 * (h.get F.CLK_THCFG_WARN 0 : Int) ≤ t ∧ !h.boot.thermFired then
    (h.clkEvt F.CLK_EVT_THERM_WARN F.CLK_IEN_THERM_WARN false).updBoot fun b => { b with thermFired := true }
  else h

/-- THERMAL_WARN_REARM: the sensors read `ts`; once every one is 5 K below WARN, THERM_WARN may set again (R483). -/
def Hw.thermalRearm (h : Hw) (ts : List Int) : Hw :=
  let h := (List.range 7).foldl (fun h k => h.setTemp k (ts.getD k (h.temp k))) h
  h.when ((List.range 7).all fun k => decide (h.temp k ≤ 16 * (h.get F.CLK_THCFG_WARN 0 : Int) - 80))
    (·.updBoot fun b => { b with thermFired := false })

/-- THERMAL_RELEASE: every die reads below 115 °C, and the held WARM reset proceeds (R484). -/
def Hw.thermalRelease (h : Hw) : Hw := (h.updBoot fun b => { b with heldHot := false }).updB fun b => { b with therm := false }

/-- NRST_IN_RELEASE: the rising edge of NRST_IN_N (R472). -/
def Hw.pinRelease (h : Hw) : Hw := h.updBoot fun b => { b with heldPin := false }

end Sys2Proof.Machine
end

