-- ==== Sys2Proof/Machine/Xlk.lean ====
section
/-! DEFINITION. The cross links and the mirror of the B-die, and the DRAM controller (R44 to R47, R482). -/

namespace Sys2Proof.Machine

/-- The code of a B-side engine fault (REL_STAT.BFCAUSE). -/
def BFaultCause.code : BFaultCause → Nat
  | .none => 0
  | .rptWrong => 1
  | .rptMissing => 2
  | .seoRb => 3

/-- Mirror of lines, engines and envelopes. -/
def Hw.mirrorEngines (h : Hw) : Hw :=
  let eng (n : Nat) : BEngine := h.bEng n
  let h := h.set F.XLK_BSEO_LO 0 (nmask 16 h.seoB)
  let h := h.set F.XLK_BSEO_HI 0 (nmask 16 fun n => ((eng n).stuck).getD (h.seoB n))
  let h := h.set F.XLK_BENGF_LO 0 (nmask 16 fun n => (eng n).fault != .none)
  let h := h.forUpTo 2 fun w h =>
    h.set F.XLK_BENGC_CAUSE w ((List.range 8).foldl (fun a j => a + (eng (8 * w + j)).fault.code * 2 ^ (4 * j)) 0)
  let h := h.set F.XLK_BRPTCNT_COUNT 0 h.b.reports
  let h := h.forUpTo 2 fun w h => h.set F.XLK_BZONE_OPEN w (nfield h.b.zones (32 * w) 32)
  let h := h.set F.XLK_BENV_VALUE 0 (nmask 16 fun n => (eng n).envOk)
  h.forUpTo 2 fun w h => h.set F.XLK_BSEL_VALUE w ((List.range 8).foldl (fun a j => a + h.bSel (8 * w + j) * 2 ^ (4 * j)) 0)

/-- Mirror of the field inputs and switches. -/
def Hw.mirrorField (h : Hw) : Hw :=
  let h := h.forUpTo 2 fun w h => h.set F.XLK_BDI_FILT w (nmask 32 fun j => decide (32 * w + j < 48) && (h.di .b (32 * w + j)).filt)
  let h := h.forUpTo 3 fun k h =>
    h.set F.XLK_BTPF_TPF k ((List.range 16).foldl (fun a j => a + (h.di .b (16 * k + j)).tpf * 2 ^ (2 * j)) 0)
  let h := (h.set F.XLK_BTP_LO 0 (nmask 16 fun j => (h.tp .b j).fault)).set F.XLK_BTP_HI 0 (nmask 16 fun j => (h.tp .b j).rb)
  let h := (h.set F.XLK_BSO_LO 0 h.fio.cmdM).set F.XLK_BSO_HI 0 (nmask 16 fun n => (h.so n).mRb)
  let h := (h.setB F.XLK_BFLINK_F0 0 (h.link .b 0).err).setB F.XLK_BFLINK_F1 0 (h.link .b 1).err
  let h := h.forUpTo 8 fun n h =>
    (h.set F.XLK_SMEAS_VALUE n (unsigned32 (h.cli .b n).meas)).set F.XLK_SCUR_VALUE n (unsigned32 (h.cli .b n).cur)
  ((h.set F.XLK_SCLI_VALID 0 (nmask 8 fun n => (h.cli .b n).valid)).set F.XLK_SCLI_NE_HI 0 (nmask 8 fun n => (h.cli .b n).neHi)).set
    F.XLK_SCLI_NE_LO 0 (nmask 8 fun n => (h.cli .b n).neLo)

/-- Mirror of the B-die's own state, its peers and its health. -/
def Hw.mirrorState (h : Hw) : Hw :=
  let b := h.b
  let h := ((h.set F.XLK_STAT_BSTATE 0 b.state).setB F.XLK_STAT_BRUN 0 b.brun).setB F.XLK_STAT_CFGOK 0 b.cfgOk
  let h := (h.setB F.XLK_STAT_DIGVALID 0 b.digValid).setB F.XLK_STAT_SELFTEST_OK 0 b.selftestOk
  let h := h.setBytes .XLK_BDIG 0 ((b.digest ++ List.replicate 32 0).take 32)
  let h := h.set F.XLK_BNPS_VALUE 0 ((List.range 16).foldl (fun a p => a + (h.conn .b p).state * 2 ^ (2 * p)) 0)
  let h := h.set F.XLK_BNPSV_VALUE 0 (nmask 16 fun p => (h.conn .b p).valid)
  let h := ((h.setB F.XLK_BHEALTH_THERM 0 b.therm).setB F.XLK_BHEALTH_VSYSB_OK 0 (!b.vsysWarn)).setB F.XLK_BHEALTH_BPLL_LOCK 0 b.pllLock
  let h := h.setB F.XLK_BHEALTH_XB_OK 0 b.xbOk
  let h := (h.setB F.CLK_STAT_BCLK_OK 0 (b.xbOk && b.pllLock)).setB F.CLK_STAT_VSYSB_OK 0 (!b.vsysWarn)
  h.set F.CLK_VMON_VSYSB 0 b.vsysMv

/-- XLK_STATUS_FRAME: the B-die's status is written into the mirror; a link that is not trained drops the frame (R44, R45). -/
def Hw.statusFrame (h : Hw) : Hw :=
  h.when h.b.runs fun h =>
    if h.on F.XLK_STAT_XLKC_UP 0 then h.mirrorState.mirrorField.mirrorEngines.setB F.XLK_STAT_MIRROR_VALID 0 true
    else h.setB F.XLK_ERR_XLKC_DROP 0 true

/-- XLK_MIRROR_TIMEOUT: no status frame for 100 µs (R44). -/
def Hw.mirrorTimeout (h : Hw) : Hw := (h.setB F.XLK_STAT_MIRROR_VALID 0 false).setB F.XLK_ERR_BSTAT_LATE 0 true

/-- A frame lost on XLK_D gets no verdict (R45). -/
def Hw.frameLost (h : Hw) (f : XlkFrame) : Hw :=
  let hd := frameHdr f.bytes
  h.lateLost f.lane f.entry hd.seg hd.seq

/-- A message lost on XLK_C: a lost verdict is late no more. -/
def Hw.messageLost (h : Hw) (m : BtoA) : Hw :=
  match m with
  | .verdict v => h.updLane v.lane fun l => { l with late := l.late.erase (v.entry, v.seg, v.seq) }
  | _ => h

/-- XLK_BLOCK_RECEIVED: the first block under way on a link fails its check `fails` times in a row; the fourth failure drops
it (R45). -/
def Hw.blockReceived (h : Hw) (l : XlkLink) (fails : Nat) : Hw :=
  let k := min fails 3
  match l with
  | .d =>
    let h := (h.bump F.XLK_RETRYCNT_XLKD 0 k).when (k != 0) (·.setB F.XLK_ERR_XLKD_RETRY 0 true)
    match h.xlkD with
    | f :: rest => h.when (decide (3 < fails)) fun h => ({ h.setB F.XLK_ERR_XLKD_DROP 0 true with xlkD := rest } : Hw).frameLost f
    | [] => h
  | .cToB =>
    let h := (h.bump F.XLK_RETRYCNT_XLKC 0 k).when (k != 0) (·.setB F.XLK_ERR_XLKC_RETRY 0 true)
    h.when (decide (3 < fails) && !h.toB.isEmpty) fun h => { h.setB F.XLK_ERR_XLKC_DROP 0 true with toB := h.toB.tail }
  | .cToA =>
    let h := (h.bump F.XLK_RETRYCNT_XLKC 0 k).when (k != 0) (·.setB F.XLK_ERR_XLKC_RETRY 0 true)
    match h.toA with
    | m :: rest => h.when (decide (3 < fails)) fun h => ({ h.setB F.XLK_ERR_XLKC_DROP 0 true with toA := rest } : Hw).messageLost m
    | [] => h
  | .cOther =>
    let h := (h.bump F.XLK_RETRYCNT_XLKC 0 k).when (k != 0) (·.setB F.XLK_ERR_XLKC_RETRY 0 true)
    h.when (decide (3 < fails)) (·.setB F.XLK_ERR_XLKC_DROP 0 true)

/-- XLK_TRAINING_LOSS (R45). -/
def Hw.trainingLoss (h : Hw) (linkD : Bool) : Hw :=
  if linkD then (h.setB F.XLK_STAT_XLKD_UP 0 false).setB F.XLK_ERR_XLKD_DOWN 0 true
  else (h.setB F.XLK_STAT_XLKC_UP 0 false).setB F.XLK_ERR_XLKC_DOWN 0 true

/-- XLK_RETRAIN_DONE (R24, R45): the link is trained again, with a B-die that runs; a link that had no training since the
B-die's start has its version word `ver` checked. -/
def Hw.retrainDone (h : Hw) (linkD : Bool) (ver : Nat) : Hw :=
  h.when h.b.runs fun h => (if linkD then h.setB F.XLK_STAT_XLKD_UP 0 true else h.xlkcTrained).checkVersion linkD ver

/-- XLKC_SILENCE: no valid traffic on XLK_C for 200 µs after SAFE-READY (R482). -/
def Hw.xlkcSilence (h : Hw) : Hw := h.when (h.dev != devBoot) (·.safeHold hcBdieStart)

/-! ### DRAM (R47) -/

/-- The patrol scrubber runs. -/
def Hw.scrubbing (h : Hw) : Bool := h.on F.DDR_SCRUB_EN 0 && h.on F.DDR_STAT_TRAINED 0

/-- DDR_PATROL_SCRUB: the scrubber corrects `ce` errors and finds uncorrectable ones at the offsets `ue`. -/
def Hw.patrolScrub (h : Hw) (ce : Nat) (ue : List Nat) : Hw :=
  if h.scrubbing then (h.ddrCe ce).forEach ue fun off h => h.ddrUe off none true else h

/-- DDR_REFRATE_CHANGE: the devices report refresh-rate code `code`. -/
def Hw.refrateChange (h : Hw) (code : Nat) : Hw :=
  if h.get F.DDR_STAT_REFRATE 0 = code % 256 then h
  else (h.set F.DDR_STAT_REFRATE 0 code).ddrEvt F.DDR_EVT_TEMP F.DDR_IEN_TEMP

/-! ### Readers of DRAM that may meet an uncorrectable error (R47) -/

/-- ENV_WRITE_DONE: the loader has written the set, or met the error that loading the ceilings meets (R122, R124). -/
def Hw.envWritten (h : Hw) : Hw :=
  match h.env with
  | none => h
  | some l => if h.get F.CHK_ENV_STAT_STATE 0 = envLoading then (h.envWriteDone l.ceilErr.isSome).ddrMay l.ceilErr none else h

/-- ENV_IMAGE_CHECKED: the loader finishes checking the image, or meets an error in it (R121, R124). -/
def Hw.envChecked (h : Hw) (met : ImageErrs) : Hw :=
  if h.env.isSome ∧ h.get F.CHK_ENV_STAT_STATE 0 = envChecking then
    let h := ((h.envImageChecked met.checking.isSome).ddrMay met.checking none).ddrCe met.ce
    { h with env := h.env.map fun l => { l with ceilErr := met.loading } }
  else h

/-- POD_RELOAD_DONE: the image has been read, or its reading met an error (R324). -/
def Hw.podReloaded (h : Hw) (p : Nat) (met : DramMet) : Hw :=
  if h.podState p = podReloading then ((h.podReloadDone p met.ue.isSome).ddrMay met.ue none).ddrCe met.ce else h

end Sys2Proof.Machine
end

