-- ==== Sys2Proof/Machine/Flags.lean ====
section
/-! DEFINITION. Status words: what each register reads as where its fields are computed from other state (R46, R140, R179,
R223, R313, R324, R374). -/

namespace Sys2Proof.Machine

/-- The RW bits of SFN_STAT. -/
def sfnMask : Nat := 0x1FF0F

/-- SFN_STAT of function `n`: the image of the vote source, with SAFE and GROUP_SAFE for a forced pair and SAFE and OVERRUN
for a group that missed the cycle (R179, R223, R324). -/
def Hw.sfnStatWord (h : Hw) (n : Nat) : Nat :=
  let img := Nat.land (h.owned (slotSfn n)) sfnMask
  let img := if nbit h.evA.ovr n then 0x1400 + Nat.land img 0xC else img
  let img := if h.get F.SFN_CFG_TYPE n ≠ 0 ∧ h.forcedPair (h.get F.SFN_CFG_PAIR n) = true then groupSafeOf img else img
  Nat.land (h.word .SFN_STAT n).toNat (0xFFFFFFFF - sfnMask) + img

/-- REL_STAT of engine `n`. -/
def Hw.relStatWord (h : Hw) (n : Nat) : Word :=
  let w := h.word .REL_STAT n
  let w := F.REL_STAT_ROB.put w ((List.range 32).filter ((h.lane n).robTaken ·)).length
  let w := F.REL_STAT_BFCAUSE.put w (nfield (h.get F.XLK_BENGC_CAUSE (n / 8)) (4 * (n % 8)) 4)
  let w := F.REL_STAT_SEOB.put w (bit (h.bitOf F.XLK_BSEO_LO 0 n))
  let w := F.REL_STAT_BFAULT.put w (bit (h.bitOf F.XLK_BENGF_LO 0 n))
  let w := F.REL_STAT_SEOA_RB.put w (bit (h.seoARb n))
  F.REL_STAT_SEOA.put w (bit (h.seoA n))

/-- CHK_CESTAT codes. -/
def CeState.code : CeState → Nat
  | .online => 0
  | .shuttingDown => 1
  | .offline => 2
  | .failed => 3

/-- CHK_STAT. -/
def Hw.chkStatWord (h : Hw) : Word :=
  let online := ((List.range 16).filter fun m => (h.ce m).state == .online).length
  let taken := (List.range 16).foldl (fun a n => a + ((List.range 32).filter ((h.lane n).poolTaken ·)).length) 0
  F.CHK_STAT_INFLIGHT.put (F.CHK_STAT_ONLINE.put (h.word .CHK_STAT 0) online) taken

/-- LDG_STAT. -/
def Hw.ldgStatWord (h : Hw) : Word :=
  F.LDG_STAT_OPEN.put (F.LDG_STAT_CLOSING.put (h.word .LDG_STAT 0) (bit (h.ledger.entries.any h.closeMet))) (min h.openEntries 4)

/-- NPS_STAT of peer `p`. -/
def Hw.npsStatWord (h : Hw) (p : Nat) : Nat :=
  let x := h.conn .a p
  x.agreed * 256 + bit (h.bitOf F.XLK_BNPSV_VALUE 0 p) * 128 + bit x.valid * 64 +
    nfield (h.get F.XLK_BNPS_VALUE 0) (2 * p) 2 * 16 + x.state

/-- POD_PAIR: the vote source and the healthy standby of each pair beside what it holds. -/
def Hw.podPairWord (h : Hw) : Word :=
  (List.range 3).foldl (fun w q =>
    let healthy := h.healthyStandby (2 * q) || h.healthyStandby (2 * q + 1)
    putBits (putBits w (8 * q + 2) 1 (bit healthy)) (8 * q) 1 (h.voteSource q % 2)) (h.word .POD_PAIR 0)

/-- The word that register `r`, word `n`, reads as. -/
def Hw.readWord (h : Hw) (r : Reg) (n : Nat) : Word :=
  let num (v : Nat) : Word := BitVec.ofNat 32 v
  match r with
  | .SFN_STAT => num (h.sfnStatWord n)
  | .SO_CMD => num (h.owned (slotSo n))
  | .REL_SEO => num (h.owned (slotSeo n))
  | .CHK_ZOPEN => num (nmask 32 fun j => h.owned (slotZone (32 * n + j)) != 0)
  | .NPS_TXDATA_LO => num (h.owned (slotPeer n 0))
  | .NPS_TXDATA_HI => num (h.owned (slotPeer n 1))
  | .LANE_STAT => F.LANE_STAT_INSERVICE.put (h.word .LANE_STAT n) (bit (h.inService n))
  | .REL_STAT => h.relStatWord n
  | .CHK_STAT => h.chkStatWord
  | .CHK_CESTAT => num ((List.range 16).foldl (fun v m => v + (h.ce m).state.code * 2 ^ (2 * m)) 0)
  | .CHK_TRIP => num (nmask 32 fun j => h.on F.ZONE_STAT_TRIP (32 * n + j))
  | .ZONE_STAT => F.ZONE_STAT_TOUCH_OK.put (h.word .ZONE_STAT n) (bit (h.touchOk n))
  | .LDG_STAT => h.ldgStatWord
  | .EVT_SIG => num h.evtSig
  | .MBX_FULL => num h.mbxFullWord
  | .MBX_SEMSTAT => num h.semStat
  | .TMR_STAT => F.TMR_STAT_RUN.put (h.word .TMR_STAT n) (bit (h.on F.TMR_CTL_EN n))
  | .NPS_STAT => num (h.npsStatWord n)
  | .NPS_RXDATA_LO => num (h.conn .a n).bits
  | .NPS_RXDATA_HI => num ((h.conn .a n).bits / 2 ^ 32)
  | .NPS_SEQ_RX => num (h.conn .a n).last
  | .CLI_SCUR => h.word .XLK_SCUR n
  | .CLI_STAT => F.CLI_STAT_S_NE43.put (h.word .CLI_STAT n) (bit (h.bitOf F.XLK_SCLI_NE_LO 0 n || h.bitOf F.XLK_SCLI_NE_HI 0 n))
  | .CRC_REG => num (h.crcReg n)
  | .CRC_RESULT => num (h.crcResult n)
  | .POD_PAIR => h.podPairWord
  | .POD_STAT => if h.podState n = podRetired then h.word .POD_STAT n else F.POD_STAT_MMWIN.put (h.word .POD_STAT n) (h.recentMismatches n)
  | .OTP_STAT => h.otpStat
  | .OTP_DATA => num (h.otpData n)
  | .DDR_STAT => F.DDR_STAT_SCRUB_RUN.put (h.word .DDR_STAT 0) (bit h.scrubbing)
  | _ => h.word r n

end Sys2Proof.Machine
end

