-- ==== Sys2Proof/Machine/Bus.lean ====
section
/-! DEFINITION. The interconnect: masters, address decoding, access rights and violations, and what a bus read or write of
each register does (R9 to R16, R30 to R43, R312 to R314, R333, R351, R503). -/

namespace Sys2Proof.Machine

/-! ### Masters -/

/-- Master classes as bits of the access masks of the register map (R14). -/
def clPod : Nat := 1
@[inherit_doc clPod] def clPea1 : Nat := 2
@[inherit_doc clPod] def clSvc : Nat := 4
@[inherit_doc clPod] def clHost : Nat := 8
@[inherit_doc clPod] def clBdie : Nat := 16
@[inherit_doc clPod] def clDma : Nat := 32
@[inherit_doc clPod] def clDbg : Nat := 64
@[inherit_doc clPod] def clPod0 : Nat := 128

/-- The Pod that runs the boot ROM, to which the registers of POD0 are open: Pod 0, or until SAFE-READY Pod 1 in its place while Pod 0
is RETIRED (R471). -/
def Hw.isBootPod (h : Hw) (m : Nat) : Bool := m == 0 || (m == 1 && h.podState 0 == podRetired && !h.boot.ready)

/-- The class bits of master `m`. -/
def Hw.classOf (h : Hw) (m : Nat) : Nat :=
  if m < 6 then clPod + (if h.isBootPod m then clPod0 else 0)
  else if m < 10 then clSvc
  else if m = idHost then clHost
  else if m = idBdie then clBdie
  else if m = idDma then clDma
  else if m = idDbg then clDbg
  else clPea1

/-- The Pods have been released: the boot ROM runs or has run (R464 t4). -/
def Hw.podsUp (h : Hw) : Bool := h.boot.phase != .por && h.boot.phase != .locked && h.boot.phase != .sensed

/-- A master is present and can issue a transaction (Bus masters, R31, R32). -/
def Hw.present (h : Hw) (m : Nat) : Bool :=
  if m < 6 then h.podsUp && (h.podActs m || h.podState m == podSplit)
  else if m < 10 then h.boot.svcUp
  else if m = idHost then h.boot.pcieUp
  else if m = idBdie then h.on F.XLK_STAT_XLKC_UP 0 && h.b.runs
  else if m = idDma then true
  else if m = idDbg then h.on F.SEC_STAT_DBG_EN 0
  else if m = 0x14 ∨ m = 0x15 then h.podsUp && h.podState (m - 0x10) == podSplit
  else false

/-! ### Address decoding -/

/-- The word of register `r` at address `a` (R10, R15). -/
def Reg.at (r : Reg) (a : Nat) : Option Nat :=
  let i := r.info
  let off := a - i.base
  let inst := if i.count = 1 then 0 else off / i.stride
  let rest := if i.count = 1 then off else off % i.stride
  let k := if i.sub = 1 then 0 else rest / i.sstride
  let last := if i.sub = 1 then rest else rest % i.sstride
  if i.base ≤ a ∧ inst < i.count ∧ k < i.sub ∧ last = 0 then some (inst * i.sub + k) else none

/-- The register and word at address `a`. -/
def decodeReg (a : Nat) : Option (Reg × Nat) := allRegs.findSome? fun r => (r.at a).map fun n => (r, n)

/-- The address of word `n` of register `r`. -/
def Reg.addr (r : Reg) (n : Nat) : Nat := r.info.base + n / r.info.sub * r.info.stride + n % r.info.sub * r.info.sstride

/-- The ranges of the A-die address map. -/
def mapRanges : List (Nat × Nat) :=
  [(0x0, 0xDFFFF), (0x100000, 0x5FFFFF), (0x1000000, 0x11FFFFF), (0x1400000, 0x17FFFFF), (0x1C00000, 0x1C03FFF)]

/-- An address lies in a range of the address map. -/
def mapped (a : Nat) : Bool := mapRanges.any fun r => decide (r.1 ≤ a ∧ a ≤ r.2)

/-- The word that a dose SRAM or zone-map window shows at `a`; none outside the windows (R34, R35). -/
def Hw.windowWord (h : Hw) (a : Nat) : Option Nat :=
  if 0x1000000 ≤ a ∧ a ≤ 0x11FFFFF then
    let e := (a - 0x1000000) / 2
    some (h.ceiling e + 65536 * h.ceiling (e + 1))
  else if 0x1400000 ≤ a ∧ a ≤ 0x17FFFFF then some (h.integrator ((a - 0x1400000) / 4))
  else if 0x1C00000 ≤ a ∧ a ≤ 0x1C03FFF then
    some ((List.range 4).foldl (fun v k => v + h.zoneOf (a - 0x1C00000 + k) * 2 ^ (8 * k)) 0)
  else none

/-- The MSI-X table and its pending-bit array in BAR0. -/
def msixTblBase : Nat := 0x28000
@[inherit_doc msixTblBase] def msixPbaBase : Nat := 0x29000

/-- A place in a memory that a master sees beside the register map: its own private view, or DRAM. -/
inductive MemPlace where
  | priv (a : Nat)
  | dram (off : Nat)
deriving DecidableEq, Repr

/-- The private memories of a master as base and size pairs (the A-die address map, R331). -/
def Hw.privRanges (h : Hw) (m : Nat) : List (Nat × Nat) :=
  if m < 6 ∧ h.podState m ≠ podSplit then [(0x80000000, 0x20000), (0x80100000, 0x20000), (0x80200000, 0x8000)]
  else if m < 6 ∨ m = 0x14 ∨ m = 0x15 then [(0x80000000, 0x10000), (0x80100000, 0x10000), (0x80200000, 0x4000)]
  else if m < 10 then [(0x80000000, 0x40000)]
  else []

/-- The memory that `len` bytes at address `a` of master `m` lie in (R36). -/
def Hw.memPlace (h : Hw) (m a len : Nat) : Option MemPlace :=
  if (h.privRanges m).any fun r => decide (r.1 ≤ a ∧ a + len ≤ r.1 + r.2) then some (.priv a)
  else if ((6 ≤ m ∧ m < 10) ∨ m = idDma) ∧ dramBase ≤ a ∧ a + len ≤ dramBase + dramSize then some (.dram (a - dramBase))
  else none

/-! ### Violations (R41) -/

/-- An access violation is counted and recorded. -/
def Hw.violation (h : Hw) (m a : Nat) (write : Bool) : Hw :=
  let h := h.bump F.GLB_AVCNT_COUNT 0 1
  if h.on F.GLB_AVIOL_VALID 0 then h.setB F.GLB_AVIOL_OVF 0 true
  else (((h.setB F.GLB_AVIOL_VALID 0 true).setB F.GLB_AVIOL_WRITE 0 write).set F.GLB_AVIOL_MASTER 0 m).set F.GLB_AVADDR_ADDR 0 a

/-! ### Reads -/

/-- A read by master `m` clears RC fields and has other side effects: class POD or SVC, its GLB_NOCLR bit 0, not a standby
(R42, R43, R46, R312). -/
def Hw.readClears (h : Hw) (m : Nat) : Bool := decide (m < 10) && !h.bitOf F.GLB_NOCLR_NOCLR 0 m && !h.isStandby m

/-- An access of master `m` to register `r` is allowed by its access list (R14); MBX_MSG, MBX_SEND and MBX_TAKE are opened
by their binding instead. -/
def Hw.mayRead (h : Hw) (m : Nat) (r : Reg) : Bool := Nat.land (h.classOf m) r.info.rd != 0
@[inherit_doc Hw.mayRead] def Hw.mayWrite (h : Hw) (m : Nat) (r : Reg) : Bool := Nat.land (h.classOf m) r.info.wr != 0

/-- MBX_STAT of channel `ch` may be read by its listed classes and by the channel's sender and receiver, and written by the
sender (MBX_STAT, Access by). -/
def Hw.mayReadStat (h : Hw) (m ch : Nat) : Bool := h.mayRead m .MBX_STAT || h.maySend ch m || h.mayTake ch m

/-- A read of a register by master `m`: the word and the effect of the read. -/
def Hw.readReg (h : Hw) (m : Nat) (r : Reg) (n : Nat) : Word × Hw :=
  match r with
  | .MBX_MSG => mbxMsgRead m (n / 8) (n % 8) h
  | .MBX_TAKE => mbxTakeRead m n h
  | .MBX_SEND => (0, h.mbxViolation n m false)
  | .MBX_STAT => if h.mayReadStat m n then (h.readWord r n, h) else (0, h.violation m (r.addr n) false)
  | .MBX_SEM => if h.mayRead m r then semRead true m n h else (0, h.violation m (r.addr n) false)
  | _ =>
    if h.mayRead m r then
      (h.readWord r n, h.when (h.readClears m) (·.putWord r n (r.cleared (h.word r n))))
    else (0, h.violation m (r.addr n) false)

/-- An access at an address outside every range of the address map is a violation, whatever its width and alignment (R33);
within the map a width or alignment that R10 does not allow leaves everything as it is. -/
def Hw.stray (h : Hw) (m a : Nat) (write : Bool) : Hw := h.when (!mapped a) (·.violation m a write)

/-- A 32-bit read by master `m` at address `a` of the register map (R10, R15, R33). BDIE reaches the bus for its MBX channels
alone, so that its access to any other address is a violation (R14, R20). -/
def Hw.readMap (h : Hw) (m a : Nat) : Word × Hw :=
  if a % 4 ≠ 0 then (0, h.stray m a false)
  else match decodeReg a with
    | some (r, n) => (h.tmrSettle).readReg m r n
    | none =>
      if m = idBdie then (0, h.violation m a false)
      else match h.windowWord a with
      | some v => (BitVec.ofNat 32 v, h)
      | none =>
        if msixTblBase ≤ a ∧ a < msixTblBase + 256 ∧ m = idHost then (h.msixWord ((a - msixTblBase) / 4), h)
        else if a = msixPbaBase ∧ m = idHost then (BitVec.ofNat 32 h.msixPba, h)
        else (0, h.stray m a false)

/-- A read answers with data. -/
def Hw.answer (h : Hw) (v : Nat) : Hw := { h with bus := v, resp := .data }

/-- A read of DRAM by master `m` at offset `off` that meets `hit` in the words that it reads (R47). -/
def Hw.dramRead (h : Hw) (m off size : Nat) (hit : DdrHit) : Hw :=
  match hit with
  | .clean => h.answer (ofBytesLE (h.dramBytes off size))
  | .corrected => (h.answer (ofBytesLE (h.dramBytes off size))).ddrCe 1
  | .uncorrectable => ({ h with resp := .error } : Hw).ddrUe off (some m) false

/-- A bus read of `size` bytes by master `m`; `hit` says what a read of DRAM meets. -/
def Hw.busRead (h : Hw) (m a size : Nat) (hit : DdrHit) : Hw :=
  if !h.present m then h
  else match h.memPlace m a size with
    | some (.priv p) => h.answer (ofBytesLE (Store.getList (fun _ => 0) h.priv (privKey m p) size))
    | some (.dram off) => h.dramRead m off size hit
    | none =>
      if m = idHost ∧ size = 8 then
        let lo := h.readMap m a
        let hi := lo.2.readMap m (a + 4)
        hi.2.answer (lo.1.toNat + 2 ^ 32 * hi.1.toNat)
      else if size = 4 then
        let x := h.readMap m a
        x.2.answer x.1.toNat
      else (h.stray m a false).answer 0

/-- The byte that master DMA reads at system address `a`: of DRAM, or of the word of the register map (R14, R355). -/
def Hw.dmaByte (h : Hw) (a : Nat) : Byte :=
  match h.memPlace idDma a 1 with
  | some (.dram off) => Store.get (fun _ => 0) h.dram off
  | _ => BitVec.ofNat 8 ((h.readMap idDma (a - a % 4)).1.toNat / 2 ^ (8 * (a % 4)))

/-- What master DMA's reads of the words at the addresses `as` do; each word of the register map is read once, at its first
byte in `as` (R14, R355). -/
def Hw.dmaReads (h : Hw) (as : List Nat) : Hw :=
  h.forEach as fun a h => h.when ((h.memPlace idDma a 1).isNone && (a % 4 == 0 || as.head? == some a)) fun h => (h.readMap idDma (a - a % 4)).2

/-- A byte of the system address space as the SEC block takes it, without side effects. -/
def Hw.sysByte (h : Hw) (a : Nat) : Byte :=
  if dramBase ≤ a then Store.get (fun _ => 0) h.dram (a - dramBase)
  else
    let w := match decodeReg (a - a % 4) with
      | some (r, n) => (h.readWord r n).toNat
      | none => (h.windowWord (a - a % 4)).getD 0
    BitVec.ofNat 8 (w / 2 ^ (8 * (a % 4)))

/-! ### Locks (R11, R503) -/

/-- The lock of the RWL fields of a register as it stands before a write. -/
def Hw.lockOf (h : Hw) (r : Reg) (n : Nat) : Bool :=
  match r with
  | .LANE_CFG | .LANE_SLOT | .LANE_CRC_POLY | .LANE_CRC_INIT | .LANE_CRC_XOR | .LANE_CRC_CFG | .LANE_EG_CFG | .LANE_EG_CRC_POLY
  | .LANE_EG_CRC_INIT | .LANE_EG_CRC_XOR | .LANE_EG_CRC_CFG | .REL_CFG => h.on F.LANE_CTL_CFGLK n
  | .CHK_PEAK_EP | .CHK_HAZ_LIM | .CHK_EGRP | .CHK_ZMAP_SRC => h.on F.CHK_CTL_CFGLK 0
  | .LDG_CFG | .LDG_ENGMASK => h.on F.LDG_CTL_CFGLK 0
  | .SFN_CFG | .SFN_TR | .SFN_TC | .POD_CFG | .POD_OWN_SO | .POD_OWN_SEO | .POD_OWN_ZONE | .POD_IMGSRC | .POD_IMGDIG =>
    h.on F.SFN_CTL_CFGLK 0
  | .DI_CFG | .TP_CFG | .TPG_CFG => h.on F.TPG_CTL_CFGLK 0
  | .SO_CFG | .DQ_CFG | .CLI_CFG | .CLI_PVLO | .CLI_PVHI | .CLI_OFS | .CLI_GAIN | .CLI_TBL | .CLO_CFG => h.on F.SUP_CTL_CFGLK 0
  | .NPS_CFG | .NPS_REMOTE | .NPS_KEY | .NPS_MAC_LO | .NPS_MAC_HI | .NPS_VLAN | .NPS_GCTL => h.on F.NPS_GCTL_CFGLK 0
  | .TMR_BIND => h.on F.TMR_BIND_LOCK n
  | .CRC_BIND => h.on F.CRC_BIND_LOCK n
  | .SEC_BIND => h.on F.SEC_BIND_LOCK 0
  | .MBX_BIND => h.on F.MBX_LOCK_LOCK 0
  | .EVT_ROUTE => h.on F.EVT_ROUTE_LOCK n
  | _ => false

/-- The binding of a timer, check-value unit or the SEC block that a write meets: its LOCK and OWNER (R351, R357, R463). The
binding registers of a check-value unit and of the SEC block are written without it. -/
def Hw.bindingOf (h : Hw) (r : Reg) (n : Nat) : Option Nat :=
  let of (lock owner : Fld) (k : Nat) : Option Nat := if h.on lock k then some (h.get owner k) else none
  match r with
  | .TMR_CTL | .TMR_CNT | .TMR_RELOAD | .TMR_CMP | .TMR_CAPCFG | .TMR_STAT | .TMR_IEN | .TMR_BIND =>
    of F.TMR_BIND_LOCK F.TMR_BIND_OWNER n
  | .CRC_CTL | .CRC_CFG | .CRC_POLY | .CRC_INIT | .CRC_XOR | .CRC_DATA | .CRC_DATA2 | .CRC_DATA1 | .CRC_ADDR_LO | .CRC_ADDR_HI
  | .CRC_LEN | .CRC_STAT | .CRC_IEN => of F.CRC_BIND_LOCK F.CRC_BIND_OWNER n
  | .SEC_CMD | .SEC_TAG_LO | .SEC_TAG_HI | .SEC_SRC_LO | .SEC_SRC_HI | .SEC_LEN | .SEC_EVT | .SEC_IEN | .SEC_BUF =>
    of F.SEC_BIND_LOCK F.SEC_BIND_OWNER 0
  | _ => none

/-- The addresses that Pea 0 of a split Pod may write (R333). -/
def splitMayWrite (m a : Nat) : Bool :=
  decide ((0x20000 ≤ a ∧ a < 0x40000) ∨ (0x70000 ≤ a ∧ a < 0x90000) ∨ (0x500000 + 0x1000 * m ≤ a ∧ a < 0x501000 + 0x1000 * m))

/-! ### Owned outputs (R223, R254, R313) -/

/-- A Pod writes the image of an owned output; a Pod of another pair, or a write without an owner, has no effect. -/
def Hw.imageWrite (h : Hw) (m slot v : Nat) : Hw :=
  h.when (decide (m < 6) && h.ownerPair slot == pairOf m) (·.putImage m slot v)

/-- A write of the vote source of the pair that owns an output. -/
def Hw.fromOwner (h : Hw) (m slot : Nat) : Bool := h.ownerPair slot == pairOf m && h.isVote m

/-- A write of NPS_TXDATA takes effect from the vote source alone: the register has one value, which both Pods of the pair then
have as their image (R314, R418). -/
def Hw.peerWrite (h : Hw) (m slot v : Nat) : Hw :=
  h.when (decide (m < 6) && h.fromOwner m slot) fun h => (h.putImage m slot v).putImage (otherPod m) slot v

/-- A write to SFN_STAT. -/
def Hw.sfnStatWrite (h : Hw) (m n : Nat) (v : Word) : Hw :=
  if h.get F.SFN_CFG_PAIR n ≠ pairOf m ∨ 6 ≤ m then h
  else
    let old := Nat.land (h.image m (slotSfn n)) sfnMask
    let new := Nat.land (Reg.SFN_STAT.after false (BitVec.ofNat 32 old) v).toNat sfnMask
    let h := h.putImage m (slotSfn n) new
    if h.isVote m then
      let h := h.when (wbit v 19) (·.setB F.SFN_STAT_RST_REFUSED n false)
      h.when (!h.forcedPair (pairOf m)) (·.fnChange n old new)
    else h

/-- A write to a register that holds owned outputs; none for another register. -/
def Hw.ownedWrite (h : Hw) (m : Nat) (r : Reg) (n : Nat) (v : Word) : Option Hw :=
  match r with
  | .SFN_STAT => some (h.sfnStatWrite m n v)
  | .SO_CMD =>
    let h1 := h.imageWrite m (slotSo n) (bit (wbit v 0))
    some (h1.when (wbit v 1 && h.fromOwner m (slotSo n)) (·.soFltClr n))
  | .REL_SEO =>
    let h1 := h.imageWrite m (slotSeo n) (bit (wbit v 0))
    some (h1.when (wbit v 1 && h.fromOwner m (slotSeo n)) (·.seoFltClr n))
  | .CHK_ZOPEN => some (h.forUpTo 32 fun j h => h.imageWrite m (slotZone (32 * n + j)) (bit (wbit v j)))
  | .NPS_TXDATA_LO => some (h.peerWrite m (slotPeer n 0) v.toNat)
  | .NPS_TXDATA_HI => some (h.peerWrite m (slotPeer n 1) v.toNat)
  | _ => none

/-! ### What a write does -/

/-- A write to a check-value parameter of a lane or its egress also updates its CRC_ID. -/
def Hw.laneCrcWrite (h : Hw) (r : Reg) (n : Nat) (v : Word) : Hw :=
  let h := h.writeFields r n (h.lockOf r n) v
  (h.set F.LANE_CRC_ID_ID n (crcOf (h.laneCrc n) checkString)).set F.LANE_EG_CRC_ID_ID n (crcOf (h.laneEgCrc n) checkString)

/-- A write to TPG_CFG (R251). -/
def Hw.tpgCfgWrite (h : Hw) (v : Word) : Hw :=
  let w := F.TPG_CFG_W.val v
  let l := F.TPG_CFG_L.val v
  if h.lockOf .TPG_CFG 0 ∨ w < 10 ∨ 100 < w ∨ l < 20 ∨ 3125 < l ∨ l < 2 * w then h
  else (h.set F.TPG_CFG_W 0 w).set F.TPG_CFG_L 0 l

/-- A write to DQ_CTL: FLT_CLR before EN. -/
def Hw.dqCtlWrite (h : Hw) (n : Nat) (v : Word) : Hw :=
  let h := h.when (wbit v 1) (·.dqFltClr n)
  if wbit v 0 then h.dqEnable n else h.dqDisable n

/-- A write to CLO_CTL: FLT_CLR finds EN as the write leaves it (R290). -/
def Hw.cloCtlWrite (h : Hw) (n : Nat) (v : Word) : Hw :=
  (if wbit v 0 then h.cloEnable n else h.cloDisable n).when (wbit v 1) (·.cloFltClr n)

/-- A write to SFN_CTL. -/
def Hw.sfnCtlWrite (h : Hw) (v : Word) : Hw :=
  (h.when (F.SFN_CTL_CFGLK.one v) (·.setB F.SFN_CTL_CFGLK 0 true)).when (F.SFN_CTL_START.one v) (·.sfnStart)

/-- A write to TPG_CTL. -/
def Hw.tpgCtlWrite (h : Hw) (v : Word) : Hw :=
  (h.when (F.TPG_CTL_CFGLK.one v) (·.setB F.TPG_CTL_CFGLK 0 true)).when (F.TPG_CTL_RUN.one v) (·.tpgRun)

/-- GLB_NOCLR takes only the bit of the writing master (R43). -/
def Hw.noClrWrite (h : Hw) (m : Nat) (v : Word) : Hw := h.setBit F.GLB_NOCLR_NOCLR 0 m (wbit v m)

/-- What an allowed write of `v` by master `m` to register `r`, word `n`, does. -/
def Hw.writeReg (h : Hw) (nv : NonVol) (m : Nat) (r : Reg) (n : Nat) (v : Word) : Hw :=
  let noDram := decide (m < 6) || decide (0x10 ≤ m)
  match r with
  | .GLB_NOCLR => h.noClrWrite m v
  | .LANE_CTL => laneCtlWrite n v.toNat h
  | .LANE_CRC_POLY | .LANE_CRC_INIT | .LANE_CRC_XOR | .LANE_CRC_CFG | .LANE_EG_CRC_POLY | .LANE_EG_CRC_INIT | .LANE_EG_CRC_XOR
  | .LANE_EG_CRC_CFG => h.laneCrcWrite r n v
  | .CHK_CTL => chkCtlWrite v.toNat h
  | .CHK_CEOFF => ceoffWrite (v.toNat % 65536) h
  | .ZONE_STAT => (h.writeFields .ZONE_STAT n (h.lockOf .ZONE_STAT n) v).tripHolds n
  | .CHK_ENV_CTL => envCtlWrite v.toNat h
  | .LDG_CTL => ldgCtlWrite v.toNat h
  | .LDG_RDSEQ_LO => ldgRdLoWrite v.toNat h
  | .LDG_RDSEQ_HI => ldgRdHiWrite v.toNat h
  | .SFN_CTL => h.sfnCtlWrite v
  | .TPG_CTL => h.tpgCtlWrite v
  | .TPG_CFG => h.tpgCfgWrite v
  | .DQ_CTL => h.dqCtlWrite n v
  | .DI_CFG => (h.writeFields .DI_CFG n (h.lockOf .DI_CFG n) v).showUnproven n
  | .DQ_CFG => (h.writeFields .DQ_CFG n (h.lockOf .DQ_CFG n) v).dqModeWritten n
  | .CLO_CTL => h.cloCtlWrite n v
  | .POD_CTL => h.when (wbit v 0) (·.rejoinRestart n)
  | .TMR_CTL => tmrCtlWrite n v h
  | .TMR_CNT => tmrCntWrite n v h
  | .TMR_RELOAD => tmrPreloadWrite F.TMR_RELOAD_VALUE F.TMR_RELOAD_ACT_VALUE n v h
  | .TMR_CMP => tmrPreloadWrite F.TMR_CMP_VALUE F.TMR_CMP_ACT_VALUE n v h
  | .TMR_CAPCFG => tmrCapcfgWrite n v h
  | .CRC_CTL => crcCtlWrite noDram n v h
  | .CRC_CFG | .CRC_POLY | .CRC_INIT | .CRC_XOR | .CRC_ADDR_LO | .CRC_ADDR_HI | .CRC_LEN => crcParamWrite r n v h
  | .CRC_DATA => crcDataWrite 4 n v h
  | .CRC_DATA2 => crcDataWrite 2 n v h
  | .CRC_DATA1 => crcDataWrite 1 n v h
  | .MBX_BIND => mbxBindWrite n v h
  | .MBX_SEM => semWrite m n v h
  | .EVT_ROUTE => evtRouteWrite n v h
  | .EVT_PEND => evtPendWrite (m == idHost) n v h
  | .QUE_CTL => queCtlWrite n v h
  | .QUE_SQBA_LO | .QUE_SQBA_HI | .QUE_CQBA_LO | .QUE_CQBA_HI => queBaseWrite r n v h
  | .OTP_CTL => otpCtlWrite v h
  | .OTP_CMD => otpCmdWrite nv v h
  | .SEC_CMD => secCmdWrite noDram v h
  | .CLK_RSTREQ => rstReqWrite v h
  | .CLK_GATE => clkGateWrite v h
  | .CLK_BOOT => clkBootWrite v h
  | _ => h.writeFields r n (h.lockOf r n) v

/-- A standby writes its images of the owned outputs; every other write of a standby is ignored (R314). -/
def Hw.standbyWrite (h : Hw) (m : Nat) (r : Reg) (n : Nat) (v : Word) : Hw := (h.ownedWrite m r n v).getD h

/-- A write of a register by master `m` (R14, R314, R333, R351, R363). -/
def Hw.writeAccess (h : Hw) (nv : NonVol) (m : Nat) (r : Reg) (n : Nat) (v : Word) : Hw :=
  let a := r.addr n
  if h.isStandby m then h.standbyWrite m r n v
  else match r with
  | .MBX_MSG => mbxMsgWrite m (n / 8) (n % 8) v h
  | .MBX_SEND => mbxSendWrite m n v h
  | .MBX_TAKE => h.mbxViolation n m true
  | .MBX_STAT => if h.maySend n m then mbxStatWrite m n v h else h.violation m a true
  | _ =>
    if !h.mayWrite m r then h.violation m a true
    else if (h.bindingOf r n).any (· != m) then h.violation m a true
    else if m < 6 ∧ h.podState m = podSplit ∧ splitMayWrite m a = false then h.violation m a true
    else match h.ownedWrite m r n v with
      | some h => h
      | none => h.writeReg nv m r n v

/-- A 32-bit write of `v` by master `m` at address `a` of the register map (R10, R15, R20, R33, R34, R333). -/
def Hw.writeMap (h : Hw) (nv : NonVol) (m a : Nat) (v : Word) : Hw :=
  let stray (h : Hw) : Hw := if h.isStandby m then h else h.stray m a true
  if a % 4 ≠ 0 then stray h
  else match decodeReg a with
    | some (r, n) => (h.tmrSettle).writeAccess nv m r n v
    | none =>
      if msixTblBase ≤ a ∧ a < msixTblBase + 256 ∧ m = idHost then h.putMsix ((a - msixTblBase) / 4) v
      else if m = idBdie then h.violation m a true
      else if m < 6 ∧ h.podState m = podSplit ∧ splitMayWrite m a = false then h.violation m a true
      else stray h

/-- A byte string written to a master's private view or to DRAM; a Pod's line becomes dirty (R320). -/
def Hw.writeMem (h : Hw) (m : Nat) (p : MemPlace) (bs : List Byte) : Hw :=
  match p with
  | .dram off => h.putDram off bs
  | .priv a =>
    let h := h.putPriv m a bs
    if m < 6 then
      h.updPod m fun r =>
        { r with dirty := ([podLine a, podLine (a + bs.length - 1)].eraseDups.filter fun l => !r.dirty.contains l) ++ r.dirty }
    else h

/-- A bus write of the low `size` bytes of `v` by master `m`. -/
def Hw.busWrite (h : Hw) (nv : NonVol) (m a size v : Nat) : Hw :=
  if !h.present m then h
  else match h.memPlace m a size with
    | some p => h.writeMem m p (bytesLE size v)
    | none =>
      if m = idHost ∧ size = 8 then
        (h.writeMap nv m a (BitVec.ofNat 32 v)).writeMap nv m (a + 4) (BitVec.ofNat 32 (v / 2 ^ 32))
      else if size = 4 then h.writeMap nv m a (BitVec.ofNat 32 v)
      else if h.isStandby m then h
      else h.stray m a true

/-- A 32-bit write of `v` by master `m` to word `n` of register `r`: what a bus write at the register's address does. -/
def Hw.regWrite (h : Hw) (nv : NonVol) (m : Nat) (r : Reg) (n : Nat) (v : Word) : Hw :=
  if h.present m then h.tmrSettle.writeAccess nv m r n v else h

/-- ZONE_MAP_LOAD: a write of CHK_CTL with ZMLOAD = 1, with the corrected errors that the load meets (R47, R126). -/
def Hw.zoneMapLoad (h : Hw) (nv : NonVol) (m : Nat) (w : ZmapWrite) : Hw :=
  let loads := h.present m && h.mayWrite m .CHK_CTL && !h.on F.CHK_STAT_ACTIVE 0
  (h.regWrite nv m .CHK_CTL 0 (w.val ||| 2)).when loads (·.ddrCe w.ce)

/-- A 32-bit read by master `m` of word `n` of register `r`: what a bus read at the register's address does. -/
def Hw.regRead (h : Hw) (m : Nat) (r : Reg) (n : Nat) : Hw :=
  if h.present m then
    let x := h.tmrSettle.readReg m r n
    x.2.answer x.1.toNat
  else h

/-! ### Engines that read the system address space -/

/-- SEC_OPERATION_DONE: `bad` says that the random source fails its health tests, `met` what HASH_MEM met in DRAM (R47, R452,
R463). -/
def Hw.secFinished (h : Hw) (bad : Bool) (met : DramMet) : Hw :=
  match h.secOp with
  | none => h
  | some o =>
    if h.secWaits o then h
    else if o.op = seHashMem then ((h.secDone h.sysByte met.ue.isSome).ddrMay met.ue none).ddrCe met.ce
    else h.secDone h.sysByte bad

/-- Memory mode of unit `n` reads on to byte `k` of its range as master DMA (R355). -/
def Hw.crcReadTo (h : Hw) (n k : Nat) : Hw :=
  let as := h.crcSpan n k
  (h.crcAdvance n (as.map h.dmaByte)).dmaReads as

/-- A running memory mode of unit `n` has read `k` bytes of its range (R356). -/
def Hw.crcReach (h : Hw) (n k : Nat) : Hw := h.when (h.crcBusy n) (·.crcReadTo n k)

/-- CRC_MEMORY_DONE: memory mode has read its range; `met` gives the bytes read before an uncorrectable error with its DRAM
offset, and the count of corrected errors (R47, R355, R356). -/
def Hw.crcEnd (h : Hw) (n : Nat) (met : CrcMet) : Hw :=
  if !h.crcBusy n then h
  else
    let h' := match met.ue with
      | some (k, off) => (((h.crcReadTo n k).crcStop n).crcFlag n 3).ddrUe off (some idDma) false
      | none => ((h.crcReadTo n (h.get F.CRC_LEN_VALUE n)).crcStop n).crcFlag n 1
    h'.ddrCe met.ce

end Sys2Proof.Machine
end

