-- ==== Sys2Proof/Machine/Timing.lean ====
section
/-! DEFINITION. The reaction time of safety functions as firmware computes and reports it (R292 to R300). -/

namespace Sys2Proof.Machine

/-- One path from an input to a function: its total without the output term, in µs, the terms it is made of, and its
input's source code. -/
structure ReactionPath where
  total : Nat := 0
  tf : Nat := 0
  ttp : Nat := 0
  nback : Nat := 0
  tdelay : Nat := 0
  offDelay : Bool := false
  src : Nat := 0
deriving DecidableEq, Repr

/-- T_X in µs (R292). -/
def tXchg : Nat := 30

/-- T_F and T_TP in µs of an input source; `rising` says that the demand is a rising signal (R293). -/
def Hw.inputTerm (h : Hw) (code : Nat) (rising : Bool) : Option (Nat × Nat) :=
  let i := nfield code 0 12
  match srcKind code with
  | .di =>
    let f := 100 * h.get F.DI_CFG_FILT i
    let o := if rising then 0 else 10 * h.get F.DI_CFG_OSSD i
    some (f + o, if h.on F.DI_CFG_TPEN i then 10 * h.get F.TPG_CFG_W 0 else 0)
  | .dqin => some (100 * h.get F.DQ_CFG_FILT i, 0)
  | .cli => some (max (4000 + 1000 * (h.cliPar .a i).avg) (1200 + 1000 * (Store.get (fun _ => {}) h.cfg.cliS i).avg), 0)
  | .peer => some (1000 * (h.peer .a (i / 64)).wd, 0)
  | .fn => none
  | .none => none

/-- The demand on input `k` of a function is a rising signal: the NO contact of a contact pair (R293). -/
def FnCfg.risingDemand (f : FnCfg) (k : Nat) : Bool :=
  f.ncno && k == 1 && (f.type == ftEstop || f.type == ftGuard || f.type == ftGuardLock)

/-- The path that counts of two: the longer one, and of equal ones the one whose input has the lower source code (R300). -/
def worsePath (a b : Option ReactionPath) : Option ReactionPath :=
  match a, b with
  | none, y => y
  | x, none => x
  | some x, some y => if x.total < y.total ∨ (x.total = y.total ∧ y.src < x.src) then some y else some x

/-- A path after one more function (R294). -/
def ReactionPath.through (p : ReactionPath) (f : FnCfg) (delayUs : Nat) : ReactionPath :=
  if f.type = ftOffDelay then { p with total := p.total + delayUs, tdelay := p.tdelay + delayUs, offDelay := true } else p

/-- A path after a step from function `m` to function `n`: backward steps cost one cycle (R294). -/
def ReactionPath.step (p : ReactionPath) (m n tc : Nat) : ReactionPath :=
  if m < n then p else { p with total := p.total + tc, nback := p.nback + 1 }

/-- The worst simple path into function `n`; `seen` holds the functions of the path so far (R294). -/
def Hw.reactionPath (h : Hw) : Nat → Nat → List Nat → Option ReactionPath
  | 0, _, _ => none
  | fuel + 1, n, seen =>
    let f := h.fn .a n
    let tc := h.tc .a
    (List.range 4).foldl (fun best k =>
      let code := f.src k
      let m := nfield code 0 12
      let p : Option ReactionPath := match h.inputTerm code (f.risingDemand k) with
        | some (tf, ttp) => some { total := tf + ttp + 2 * tc + tXchg, tf := tf, ttp := ttp, src := code }
        | none =>
          if srcKind code = .fn ∧ seen.contains m = false then (h.reactionPath fuel m (m :: seen)).map fun p => p.step m n tc
          else none
      worsePath best (p.map fun p => p.through f (h.cycles .a f.delay * tc))) none

/-- Largest slot period in TIMEBASE ticks of the engines that hold tiles of a zone; none for a zone without tiles (R297). -/
def Hw.zoneSlot (h : Hw) (z : Nat) : Option Nat :=
  (((List.range 16).filter fun n => engineHasZone h.cfg.zmap n z).map
    (h.get F.LANE_SLOT_TS ·)).max?

/-- EFFECT and T_O in µs of a function (R295, R297, R300). -/
def Hw.outputTerm (h : Hw) (n : Nat) : Nat × Nat :=
  let f := h.fn .a n
  if f.type = ftOutput then
    match f.target with
    | .so _ => (1, 200)
    | .seo _ => (2, 50)
    | .peerOut p _ => (3, 1000 * (h.peer .a p).cycle)
    | .none => (0, 0)
  else if f.type = ftZone then
    (4, match h.zoneSlot f.zone with
      | none => 0
      | some ts => (ts + 99) / 100 + 60)
  else (0, 0)

/-- T_R of a function with the path that gives it; none where the function has no reaction time (R294, R295). -/
def Hw.reaction (h : Hw) (n : Nat) : Option (Nat × ReactionPath) :=
  if (h.fn .a n).type = ftReset ∨ (h.fn .a n).type = ftEnvSelect then none
  else (h.reactionPath 257 n [n]).map fun p => (p.total + (h.outputTerm n).2, p)

/-- SFN_TR of a function (R299). -/
def Hw.reactionReg (h : Hw) (n : Nat) : Nat :=
  match h.reaction n with
  | none => 0
  | some (t, _) => min t 0xFFFFFF

/-- The SAFETY_TIMING_READ record of a function (R300). -/
def Hw.timingRecord (h : Hw) (n : Nat) : List Byte :=
  let f := h.fn .a n
  match h.reaction n with
  | none => bytesLE 1 n ++ bytesLE 1 f.type ++ [0xFF] ++ List.replicate 29 0
  | some (t, p) =>
    let o := h.outputTerm n
    let flags := bit (decide (0xFFFFFF < t)) + 2 * bit (decide (0 < p.nback)) + 4 * bit p.offDelay +
      8 * bit (srcKind p.src == .peer) + 16 * bit (srcKind p.src == .cli)
    bytesLE 1 n ++ bytesLE 1 f.type ++ bytesLE 1 o.1 ++ bytesLE 1 flags ++ bytesLE 4 t ++ bytesLE 4 p.tf ++ bytesLE 2 p.ttp ++
      bytesLE 2 (h.tc .a) ++ bytesLE 2 p.nback ++ bytesLE 2 tXchg ++ bytesLE 4 p.tdelay ++ bytesLE 4 o.2 ++ bytesLE 2 p.src ++
      [0, 0]

end Sys2Proof.Machine
end

