-- ==== Sys2Proof/Machine/Setup.lean ====
section
/-! DEFINITION. The last steps of the start: the configuration set up, the start-up tests and SAFE-READY (R464 to R466). -/

namespace Sys2Proof.Machine

/-! ### Registers from the package -/

/-- The check-value parameters of a lane in one direction. -/
def Hw.setLaneCrc (h : Hw) (n : Nat) (c : CrcParams) (poly init xor : Fld) (width refin refout : Fld) : Hw :=
  (((((h.set poly n c.poly).set init n c.init).set xor n c.xorOut).set width n c.width).setB refin n c.refIn).setB refout n c.refOut

/-- The registers of a lane. -/
def Hw.setupLane (h : Hw) (n : Nat) : Hw :=
  let c := h.cfg.lane n
  let h := h.setLaneCrc n c.crc F.LANE_CRC_POLY_VALUE F.LANE_CRC_INIT_VALUE F.LANE_CRC_XOR_VALUE F.LANE_CRC_CFG_WIDTH
    F.LANE_CRC_CFG_REFIN F.LANE_CRC_CFG_REFOUT
  let h := h.setLaneCrc n c.egCrc F.LANE_EG_CRC_POLY_VALUE F.LANE_EG_CRC_INIT_VALUE F.LANE_EG_CRC_XOR_VALUE
    F.LANE_EG_CRC_CFG_WIDTH F.LANE_EG_CRC_CFG_REFIN F.LANE_EG_CRC_CFG_REFOUT
  let h := (h.set F.LANE_CRC_ID_ID n (crcOf (h.laneCrc n) checkString)).set F.LANE_EG_CRC_ID_ID n
    (crcOf (h.laneEgCrc n) checkString)
  ((h.set F.LANE_CFG_P12_SHIFT n c.p12Shift).setB F.LANE_CFG_P12_EN n c.p12Ok).set F.LANE_SLOT_TS n c.ts

/-- SFN_CFG of function `n` (R195), with RESTART as the function takes it (R199, R205). -/
def Hw.setupFn (h : Hw) (n : Nat) : Hw :=
  let f := h.cfg.fn n
  if f.type = 0 then h
  else
    let h := (((h.set F.SFN_CFG_TYPE n f.type).set F.SFN_CFG_PAIR n f.pair).set F.SFN_CFG_FGRP n f.fgrp).set F.SFN_CFG_DISC n f.disc
    ((h.setB F.SFN_CFG_RESTART n f.restartManual).setB F.SFN_CFG_HASRST n f.ridx.isSome).set F.SFN_CFG_RIDX n (f.ridx.getD 0)

/-- The registers of digital inputs, test pulses, DQ filters and current-loop inputs (R235). -/
def Hw.setupField (h : Hw) : Hw :=
  let c := h.cfg
  let h := h.forUpTo 48 fun i h =>
    let x : DiCfg := Store.get (fun _ => {}) c.di i
    let h := ((h.set F.DI_CFG_FILT i x.filt).set F.DI_CFG_OSSD i x.ossd).set F.DI_CFG_TPSRC i (x.src.getD 0)
    (h.setB F.DI_CFG_TPEN i x.src.isSome).showUnproven i
  let h := h.forUpTo 16 fun n h =>
    (h.setB F.TP_CFG_EN n (nbit c.tpEn n)).set F.DQ_CFG_FILT n (Store.get (fun _ => 0x1E) c.dqFilt n)
  let h := (h.set F.TPG_CFG_W 0 c.tpW).set F.TPG_CFG_L 0 c.tpL
  h.forUpTo 8 fun n h =>
    let x : CliCfg := Store.get (fun _ => {}) c.cli n
    let h := ((h.set F.CLI_CFG_CHAR n x.char).set F.CLI_CFG_AVG n x.avg).set F.CLI_CFG_CUT n x.cut
    let h := ((h.set F.CLI_PVLO_VALUE n (unsigned32 x.pvlo)).set F.CLI_PVHI_VALUE n (unsigned32 x.pvhi)).set F.CLI_OFS_VALUE n
      (unsigned32 x.ofs)
    let h := h.set F.CLI_GAIN_VALUE n (unsigned32 x.gain)
    h.forUpTo 33 fun k h => h.set F.CLI_TBL_VALUE (33 * n + k) (unsigned32 (x.tbl.getD k 0))

/-- The registers of peer `p`. -/
def Hw.setupPeer (h : Hw) (p : Nat) : Hw :=
  let x : PeerCfg := Store.get (fun _ => {}) h.cfg.peers p
  let h := (((h.setB F.NPS_CFG_EN p x.en).set F.NPS_CFG_CYCLE p x.cycle).set F.NPS_CFG_WD p x.wd).setB F.NPS_CFG_V11 p x.v11
  ((h.set F.NPS_CFG_PAIR p x.pair).set F.NPS_REMOTE_VALUE p x.remote).set F.NPS_KEY_VALUE p x.key

/-- An address of LANE_CTL, CHK_CTL, SFN_CTL or TPG_CTL: what these start or lock follows in the order of the start (R464 t8 to t10),
and no lane is enabled in BOOT (R506). -/
def startsOrLocks (a : Nat) : Bool := match decodeReg a with
  | some (r, _) => r == .LANE_CTL || r == .CHK_CTL || r == .SFN_CTL || r == .TPG_CTL
  | none => false

/-- Firmware writes the configuration registers: first the writes listed in the package, then every parameter that both
channels use (R235, R464 t8). -/
def Hw.setupRegs (h : Hw) (nv : NonVol) (writes : List (Nat × Word)) : Hw :=
  let m := if h.podState 0 = podRetired then 1 else 0
  let h := h.forEach (writes.filter fun w => !startsOrLocks w.1) fun w h => h.busWrite nv m w.1 4 w.2.toNat
  let c := h.cfg
  let h := (h.forUpTo 16 fun n h => h.setupLane n).setupField
  let h := (h.set F.SFN_TC_TC 0 c.tc).forUpTo 256 fun n h => h.setupFn n
  let h := (h.forUpTo 16 fun p h => h.setupPeer p).set F.NPS_GCTL_LOCAL_ID 0 c.localId
  let h := (h.set F.CHK_PEAK_EP_TICKS 0 c.peakEp).forUpTo 2 fun w h =>
    h.set F.CHK_EGRP_GROUP w ((List.range 8).foldl (fun a j => a + c.groupOf (8 * w + j) * 2 ^ (4 * j)) 0)
  let h := (h.set F.POD_OWN_SO_OWN 0 c.soOwn).set F.POD_OWN_SEO_OWN 0 c.seoOwn
  let h := h.forUpTo 4 fun k h => h.set F.POD_OWN_ZONE_OWN k (Store.get (fun _ => 0xFFFFFFFF) c.zoneOwn k)
  h.forUpTo 256 fun n h => h.when ((c.fn n).type != 0) (·.set F.SFN_TR_TR n (h.reactionReg n))

/-! ### Pods (R311, R329, R339, R471) -/

/-- The image of a pair goes into a Pod that starts in lockstep; a Pod whose image fails its digest retires. -/
def Hw.startPod (h : Hw) (p state : Nat) : Hw :=
  if h.podState p = podRetired ∨ h.podState p = podSplit then h
  else if state = podIdle then h.set F.POD_STAT_STATE p podIdle
  else match h.goodImage (pairOf p) with
    | none => h.retirePod p rcReload
    | some (itcm, dtcm) => ((h.putPriv p 0x80000000 itcm).putPriv p 0x80100000 dtcm).set F.POD_STAT_STATE p state

/-- The Pods of pair `q` start: the even Pod, or the odd one in its place, as primary and vote source. -/
def Hw.startPair (h : Hw) (q : Nat) : Hw :=
  let hosts := (List.range 256).any fun n => (h.cfg.fn n).type != 0 && (h.cfg.fn n).pair == q
  let h := h.setB (pairFld F.POD_PAIR_NOGRP0 F.POD_PAIR_NOGRP1 F.POD_PAIR_NOGRP2 q) 0 (!hosts)
  if hosts then
    let h := h.startPod (2 * q) podPrimary
    let odd := h.podState (2 * q) == podRetired
    let h := h.startPod (2 * q + 1) (if odd then podPrimary else podStandby)
    let h := (h.setB F.POD_STAT_VOTE (2 * q) (!odd)).setB F.POD_STAT_VOTE (2 * q + 1) odd
    h.when (h.podState (2 * q) == podRetired && h.podState (2 * q + 1) == podRetired) (·.forcePair q)
  else (h.startPod (2 * q) podIdle).startPod (2 * q + 1) podIdle

/-! ### Envelope sets (R122, R218, R510) -/

/-- The start-up set of a group. -/
def Hw.startSetOf (h : Hw) (g : Nat) : Nat :=
  match h.selectFn .a g with
  | none => 0
  | some n => (h.fn .a n).startSet

/-- The start-up set of a group is loaded and verified by both dies; in a group without engines it counts as confirmed. -/
def Hw.setupEnvelope (h : Hw) (g : Nat) : Hw :=
  let s := h.startSetOf g
  let h := { h with b := { h.b with sel := Store.put (fun _ => 0) h.b.sel g s } }
  let free (c : Chan) (h : Hw) : Hw := h.updEv c fun e => { e with freeSets := Store.put (fun _ => 0) e.freeSets g s }
  let h := h.when (h.enginesOf .a g == 0) (free .a)
  let h := h.when (h.enginesOf .b g == 0) (free .b)
  if h.enginesOf .a g = 0 then h
  else
    let h := ((((h.loadSet g s).envImageChecked false).envWriteDone false).envDigestDone).bEnvCheck.envVerifyReply
    h.updEv .a fun e => { e with loaded := Store.put (fun _ => none) e.loaded g (some s) }

/-- CONFIG_SETUP_DONE (R464 t8): `writes` are the further register writes that the package lists. -/
def Hw.configSetup (h : Hw) (nv : NonVol) (writes : List (Nat × Word)) : Hw :=
  if h.boot.phase = .config ∧ h.dev = devBoot then
    let h := h.setupRegs nv writes
    let h := h.forUpTo 3 fun q h => h.startPair q
    let h := h.zmapLoad.forUpTo 16 fun g h => h.setupEnvelope g
    let h := h.forUpTo 16 fun n h => h.setB F.LANE_CTL_CFGLK n true
    let h := h.forEach [F.CHK_CTL_CFGLK, F.LDG_CTL_CFGLK, F.SFN_CTL_CFGLK, F.TPG_CTL_CFGLK, F.SUP_CTL_CFGLK, F.NPS_GCTL_CFGLK]
      fun f h => h.setB f 0 true
    (h.activate.reach 6).updBoot fun b => { b with phase := .setup }
  else h

/-! ### Start-up tests and SAFE-READY -/

/-- The SO pairs that a configuration drives. -/
def Hw.drivenPairs (h : Hw) : Nat :=
  nmask 16 fun n => (h.fnList .a).any fun f => (h.fn .a f).soTarget == some n

/-- STARTUP_TESTS (R466): `failP` and `failM` are the SO pairs whose P_RB or M_RB is found wrong, `tpLow` the test-pulse
sources that read 0 while on. -/
def Hw.startupTests (h : Hw) (failP failM tpLow : Nat) : Hw :=
  if h.boot.phase = .setup ∧ h.dev = devBoot then
    let driven := h.drivenPairs
    let h := h.forUpTo 16 fun n h =>
      if nbit driven n && nbit failP n then h.soLatch n soRbP
      else if nbit driven n && nbit failM n then h.soLatch n soRbM
      else h
    let h := h.forUpTo 16 fun j h => h.when (nbit tpLow j && h.on F.TP_CFG_EN j) (·.setB F.TP_FLT_SRC_LOW j true)
    let h := h.updBoot fun b => { b with phase := .tested }
    ((((h.showDie 0).showDie 1).tpgRun)).reach 7
  else h

/-- A function whose SO pair failed its test starts in FAULT with cause OUT_FAULT in both channels (R466). -/
def Hw.startFault (h : Hw) (n : Nat) : Hw :=
  match (h.fn .a n).soTarget with
  | none => h
  | some k =>
    if (h.so k).state == .latched then
      let s : FnState := { state := fsFault, cause := ccOutFault, causeOn := true }
      ((h.fnChange n (h.fnState .a n).bits s.bits).putFnState .a n s).putFnState .b n s
    else h

/-- The filtered states of every DI and DQIN start from 0 in both channels, and DI_STAT.FILT and DQ_STAT.FILT with them
(R234). -/
def Hw.freshFilters (h : Hw) : Hw :=
  let h := h.updFio fun f =>
    { f with di := (List.range 128).foldl (fun m i =>
        Store.upd (fun _ => {}) m i fun x => { x with fRun := 0, fVal := false, filt := false }) f.di }
  (h.forUpTo 48 fun i h => h.setB F.DI_STAT_FILT i false).forUpTo 16 fun n h => h.setB F.DQ_STAT_FILT n false

/-- The B-die begins to evaluate: it latches the input image of its cycle 0 (R176), and every tile integrator takes the cold
value of its zone (R135). A B-die that a thermal trip holds does not (R484). A configuration that the wires do not name as commissioned runs as a trial, with every SEO_B line
off (R437). -/
def Hw.bStart (h : Hw) : Hw :=
  if h.b.therm then h
  else (h.latchImage .b).updB fun b =>
    let set (z : Nat) : Nat := match (List.range 16).find? fun n => engineHasZone b.cfg.zmap n z with
      | some n => Store.get (fun _ => 0) b.sel (b.cfg.groupOf n)
      | none => 0
    { b with state := if b.cfgOk then bsEval else bsTrial, evaluating := true, tiles := [],
             cold := Store.putList (fun _ => 0) [] 0 ((List.range 64).map fun z => (b.cfg.bZone (set z) z).cold) }

/-- SAFE_READY (R189, R221, R464 t10): the cycle starts, and the device enters STARTUP, or TRIAL with a trial
configuration. -/
def Hw.safeReady (h : Hw) : Hw :=
  if h.boot.phase = .tested ∧ h.dev = devBoot ∧ h.b.selftestOk = true ∧ h.bMayRun = true then
    let h := h.freshFilters
    let h := h.forEach (h.fnList .a) fun n h => h.startFault n
    let h := h.sfnStart.set F.GLB_STATE_STATE 0 (if h.boot.trial then devTrial else devStartup)
    let h := (((h.reach 8).logBoot 1 []).showDie 0).showDie 1
    let h := h.bStart.npsStart
    h.updBoot fun b => { b with phase := .ended, ready := true }
  else h

end Sys2Proof.Machine
end

