-- ==== Sys2Proof/Machine/Ncp.lean ====
section
/-! DEFINITION. The Naliz Command Protocol as the service cores carry it out: packets, the checks in the order of R396,
replies, and the commands of the opcode catalogue (R386 to R407). -/

namespace Sys2Proof.Machine

/-! ### Codes (R395, R396) -/

/-- STATUS codes of a reply. -/
def nsOk : Nat := 0
@[inherit_doc nsOk] def nsPending : Nat := 0x001
@[inherit_doc nsOk] def nsBadOpcode : Nat := 0x101
@[inherit_doc nsOk] def nsBadLength : Nat := 0x102
@[inherit_doc nsOk] def nsBadParam : Nat := 0x103
@[inherit_doc nsOk] def nsVersion : Nat := 0x104
@[inherit_doc nsOk] def nsSafety : Nat := 0x201
@[inherit_doc nsOk] def nsLifecycle : Nat := 0x202
@[inherit_doc nsOk] def nsBusy : Nat := 0x203
@[inherit_doc nsOk] def nsConflict : Nat := 0x204
@[inherit_doc nsOk] def nsHot : Nat := 0x205
@[inherit_doc nsOk] def nsInternal : Nat := 0x301

/-- DETAIL codes of a reply. -/
def ndNone : Nat := 0
@[inherit_doc ndNone] def ndSessionNone : Nat := 0x01
@[inherit_doc ndNone] def ndNotClaimed : Nat := 0x02
@[inherit_doc ndNone] def ndReserved : Nat := 0x10
@[inherit_doc ndNone] def ndRange : Nat := 0x11
@[inherit_doc ndNone] def ndSignature : Nat := 0x12
@[inherit_doc ndNone] def ndRollback : Nat := 0x13
@[inherit_doc ndNone] def ndReadback : Nat := 0x14
@[inherit_doc ndNone] def ndSlot : Nat := 0x15
@[inherit_doc ndNone] def ndDigest : Nat := 0x16
@[inherit_doc ndNone] def ndState : Nat := 0x20
@[inherit_doc ndNone] def ndPresence : Nat := 0x21
@[inherit_doc ndNone] def ndBdieDigest : Nat := 0x22
@[inherit_doc ndNone] def ndEnableOff : Nat := 0x23
@[inherit_doc ndNone] def ndBOnly : Nat := 0x24
@[inherit_doc ndNone] def ndLocked : Nat := 0x25
@[inherit_doc ndNone] def ndLimit : Nat := 0x30
@[inherit_doc ndNone] def ndLaneFault : Nat := 0x31
@[inherit_doc ndNone] def ndDma : Nat := 0x40

/-- Feature bits (R391). -/
def nfGenerations : Nat := 0
@[inherit_doc nfGenerations] def nfEnvRequest : Nat := 1
@[inherit_doc nfGenerations] def nfTiming : Nat := 2
@[inherit_doc nfGenerations] def nfLedgerMulti : Nat := 3
@[inherit_doc nfGenerations] def nfOtpUsr : Nat := 4
@[inherit_doc nfGenerations] def nfBarrier : Nat := 5
@[inherit_doc nfGenerations] def nfRouteMsix : Nat := 7

/-- The lowest version of each feature, by bit. -/
def featureFrom : List Nat := [0x100, 0x101, 0x102, 0x103, 0x104, 0x200, 0x200, 0x201]

/-- The supported versions, highest first (R390). -/
def ncpVersions : List Nat := [0x201, 0x200, 0x104, 0x103, 0x102, 0x101, 0x100]

/-! ### The catalogue -/

/-- How an opcode uses the data buffer: not at all, or with at least so many bytes. -/
inductive DataUse where
  | none
  | some (need : Nat)
deriving DecidableEq, Repr

/-- One row of the opcode catalogue: OPCODE, whether it is marked W, the feature it needs, the class and the greatest INDEX
of its object, the PARAMS bytes it uses as offset and length, and whether it reads or writes DRAM (R467). -/
structure OpSpec where
  op : Nat
  w : Bool := false
  feat : Option Nat := none
  cls : Nat := 0
  low : Nat := 0
  high : Nat := 0
  used : List (Nat × Nat) := []
  dram : Bool := false
deriving DecidableEq, Repr

/-- The opcodes of the catalogue. -/
def opNop : OpSpec := { op := 0x0000 }
@[inherit_doc opNop] def opOpen : OpSpec := { op := 0x0001, used := [(0, 10), (12, 8)] }
@[inherit_doc opNop] def opClose : OpSpec := { op := 0x0002 }
@[inherit_doc opNop] def opDeviceReset : OpSpec := { op := 0x0003, used := [(0, 4)] }
@[inherit_doc opNop] def opDeviceInfo : OpSpec := { op := 0x0101 }
@[inherit_doc opNop] def opStateRead : OpSpec := { op := 0x0102 }
@[inherit_doc opNop] def opStageWrite : OpSpec := { op := 0x0201, w := true, cls := 7, used := [(0, 8)], dram := true }
@[inherit_doc opNop] def opCfgVerify : OpSpec := { op := 0x0202, cls := 7, used := [(0, 12)], dram := true }
@[inherit_doc opNop] def opCfgInstall : OpSpec := { op := 0x0203, w := true, cls := 7, used := [(0, 12)], dram := true }
@[inherit_doc opNop] def opCfgCommission : OpSpec := { op := 0x0204, w := true, cls := 8, high := 31, used := [(0, 32)] }
@[inherit_doc opNop] def opCfgSlots : OpSpec := { op := 0x0205 }
@[inherit_doc opNop] def opTrialRun : OpSpec := { op := 0x0206, w := true, cls := 7 }
@[inherit_doc opNop] def opOtpRead : OpSpec := { op := 0x0207, feat := some nfOtpUsr, cls := 10, low := 7, high := 7 }
@[inherit_doc opNop] def opOtpWrite : OpSpec :=
  { op := 0x0208, w := true, feat := some nfOtpUsr, cls := 10, low := 7, high := 7, used := [(0, 8)] }
@[inherit_doc opNop] def opOtpFinalise : OpSpec :=
  { op := 0x0209, w := true, feat := some nfOtpUsr, cls := 10, low := 7, high := 7, used := [(0, 32)] }
@[inherit_doc opNop] def opLaneService : OpSpec := { op := 0x0301, w := true, cls := 3, high := 15, used := [(0, 1)] }
@[inherit_doc opNop] def opLaneStatus : OpSpec := { op := 0x0302, cls := 3, high := 15 }
@[inherit_doc opNop] def opEnvSelect : OpSpec :=
  { op := 0x0303, w := true, feat := some nfEnvRequest, cls := 4, high := 15, used := [(0, 1)] }
@[inherit_doc opNop] def opEnvStatus : OpSpec := { op := 0x0304, cls := 4, high := 15 }
@[inherit_doc opNop] def opZoneStatus : OpSpec := { op := 0x0305, used := [(0, 2)] }
@[inherit_doc opNop] def opChkSelftest : OpSpec := { op := 0x0306, w := true, cls := 11, high := 15 }
@[inherit_doc opNop] def opSafetyStatus : OpSpec := { op := 0x0401, used := [(0, 3)] }
@[inherit_doc opNop] def opSafetyTiming : OpSpec := { op := 0x0402, feat := some nfTiming, used := [(0, 2)] }
@[inherit_doc opNop] def opExchangeStatus : OpSpec := { op := 0x0403 }
@[inherit_doc opNop] def opDqSet : OpSpec := { op := 0x0501, w := true, cls := 1, high := 15, used := [(0, 2)] }
@[inherit_doc opNop] def opCloSet : OpSpec := { op := 0x0502, w := true, cls := 2, high := 3, used := [(0, 6)] }
@[inherit_doc opNop] def opIoRead : OpSpec := { op := 0x0503 }
@[inherit_doc opNop] def opLedgerStatus : OpSpec := { op := 0x0701, cls := 5 }
@[inherit_doc opNop] def opLedgerRead : OpSpec := { op := 0x0702, cls := 5, used := [(0, 12)], dram := true }
@[inherit_doc opNop] def opLedgerAck : OpSpec := { op := 0x0703, w := true, cls := 5, used := [(0, 12)] }
@[inherit_doc opNop] def opFwVerify : OpSpec := { op := 0x0801, cls := 7, used := [(0, 12)], dram := true }
@[inherit_doc opNop] def opFwInstall : OpSpec := { op := 0x0802, w := true, cls := 9, used := [(0, 12)], dram := true }
@[inherit_doc opNop] def opFwStatus : OpSpec := { op := 0x0803, cls := 9 }
@[inherit_doc opNop] def opAttestIdentity : OpSpec := { op := 0x0901 }
@[inherit_doc opNop] def opAttestReport : OpSpec := { op := 0x0902, used := [(0, 32)] }
@[inherit_doc opNop] def opLogStatus : OpSpec := { op := 0x0A01 }
@[inherit_doc opNop] def opLogRead : OpSpec := { op := 0x0A02, used := [(0, 8)], dram := true }
@[inherit_doc opNop] def opEvtRoute : OpSpec :=
  { op := 0x0A03, w := true, feat := some nfRouteMsix, cls := 6, high := 127, used := [(0, 1)] }
@[inherit_doc opNop] def opAccessViol : OpSpec := { op := 0x0A04 }

/-- Every opcode of the catalogue. -/
def ncpOpcodes : List OpSpec :=
  [opNop, opOpen, opClose, opDeviceReset, opDeviceInfo, opStateRead, opStageWrite, opCfgVerify, opCfgInstall, opCfgCommission,
    opCfgSlots, opTrialRun, opOtpRead, opOtpWrite, opOtpFinalise, opLaneService, opLaneStatus, opEnvSelect, opEnvStatus,
    opZoneStatus, opChkSelftest, opSafetyStatus, opSafetyTiming, opExchangeStatus, opDqSet, opCloSet, opIoRead, opLedgerStatus,
    opLedgerRead, opLedgerAck, opFwVerify, opFwInstall, opFwStatus, opAttestIdentity, opAttestReport, opLogStatus, opLogRead,
    opEvtRoute, opAccessViol]

/-! ### Packets (R387, R397) -/

/-- Fields of a packet. -/
def NcpCmd.opcode (c : NcpCmd) : Nat := leAt c.packet 0 2
@[inherit_doc NcpCmd.opcode] def NcpCmd.tag (c : NcpCmd) : Nat := leAt c.packet 2 2
@[inherit_doc NcpCmd.opcode] def NcpCmd.flags (c : NcpCmd) : Nat := leAt c.packet 4 2
@[inherit_doc NcpCmd.opcode] def NcpCmd.session (c : NcpCmd) : Nat := leAt c.packet 8 2
@[inherit_doc NcpCmd.opcode] def NcpCmd.expGen (c : NcpCmd) : Nat := leAt c.packet 12 4
@[inherit_doc NcpCmd.opcode] def NcpCmd.dptr (c : NcpCmd) : Nat := leAt c.packet 16 8
@[inherit_doc NcpCmd.opcode] def NcpCmd.dlen (c : NcpCmd) : Nat := leAt c.packet 24 4
@[inherit_doc NcpCmd.opcode] def NcpCmd.object (c : NcpCmd) : Nat := leAt c.packet 28 4

/-- The number in `n` bytes of PARAMS from byte `off`. -/
def NcpCmd.p (c : NcpCmd) (off n : Nat) : Nat := leAt c.packet (32 + off) n

/-- CLASS and INDEX of the object. -/
def NcpCmd.cls (c : NcpCmd) : Nat := c.object / 2 ^ 24
@[inherit_doc NcpCmd.cls] def NcpCmd.index (c : NcpCmd) : Nat := c.object % 2 ^ 16

/-- FLAGS.GENCHK and FLAGS.BARRIER. -/
def NcpCmd.genChk (c : NcpCmd) : Bool := nbit c.flags 0
@[inherit_doc NcpCmd.genChk] def NcpCmd.barrier (c : NcpCmd) : Bool := nbit c.flags 1

/-- The command tick: units of 10 µs of the doorbell's time (R399). -/
def NcpCmd.tick (c : NcpCmd) : Nat := c.stamp / 1000

/-- The greatest INDEX of each class that names objects (R397). -/
def objectHigh : List (Nat × Nat × Nat) :=
  [(1, 0, 15), (2, 0, 3), (3, 0, 15), (4, 0, 15), (5, 0, 0), (6, 0, 127), (7, 0, 0), (8, 0, 31), (9, 0, 0), (10, 7, 7), (11, 0, 15)]

/-- OBJECT names an object. -/
def namesObject (obj : Nat) : Bool :=
  obj / 2 ^ 16 % 256 == 0 && objectHigh.any fun r => obj / 2 ^ 24 == r.1 && decide (r.2.1 ≤ obj % 2 ^ 16 ∧ obj % 2 ^ 16 ≤ r.2.2)

/-- PARAMS bytes that an opcode does not use are 0. -/
def paramsClean (s : OpSpec) (c : NcpCmd) : Bool :=
  (List.range 32).all fun k => (s.used.any fun u => decide (u.1 ≤ k ∧ k < u.1 + u.2)) || c.p k 1 == 0

/-- The reserved fields of a packet are 0. -/
def reservedClean (s : OpSpec) (c : NcpCmd) : Bool :=
  c.flags / 4 == 0 && leAt c.packet 6 2 == 0 && leAt c.packet 10 2 == 0 && c.object / 2 ^ 16 % 256 == 0 && paramsClean s c

/-! ### Sessions and generations (R390 to R394, R398) -/

/-- The open session with a handle. -/
def Hw.sessionOf (h : Hw) (id : Nat) : Option Session := h.ncp.sessions.find? fun s => s.id == id

/-- NOP and OPEN_SESSION need no session. -/
def OpSpec.exempt (s : OpSpec) : Bool := s.op == 0 || s.op == 1

/-- The features that hold for a command. -/
def Hw.featsOf (h : Hw) (c : NcpCmd) : Nat := ((h.sessionOf c.session).map (·.feats)).getD 0

/-- A feature holds for a command. -/
def Hw.feat (h : Hw) (c : NcpCmd) (k : Nat) : Bool := nbit (h.featsOf c) k

/-- The generation of an object: 1 until it changes (R398). -/
def Hw.gen (h : Hw) (obj : Nat) : Nat := Store.get (fun _ => 1) h.ncp.gens obj

/-- The key of an object: 65536·class + index. -/
def NcpCmd.objKey (c : NcpCmd) : Nat := 65536 * c.cls + c.index

/-- A change increments the generation, wrapping to 1. -/
def Hw.bumpGen (h : Hw) (obj : Nat) : Hw :=
  let g := h.gen obj
  { h with ncp := { h.ncp with gens := Store.put (fun _ => 1) h.ncp.gens obj (if g = 0xFFFFFFFF then 1 else g + 1) } }

/-- The GEN field of a reply. -/
def Hw.replyGen (h : Hw) (feats : Nat) (c : NcpCmd) : Nat :=
  if namesObject c.object && nbit feats nfGenerations then h.gen c.objKey else 0

/-! ### Replies (R388) -/

/-- The 28 bytes of a reply; `res` is padded to 8 bytes. -/
def replyBytes (c : NcpCmd) (status detail gen rlen : Nat) (res : List Byte) : List Byte :=
  bytesLE 2 c.tag ++ bytesLE 2 status ++ bytesLE 2 c.opcode ++ bytesLE 2 detail ++ bytesLE 4 gen ++ bytesLE 4 c.tick ++
    bytesLE 4 rlen ++ (res ++ List.replicate 8 0).take 8

/-- The log data of a command (R409). -/
def ncpLogData (q : Nat) (c : NcpCmd) (status gen : Nat) : List Byte :=
  bytesLE 2 c.session ++ bytesLE 1 q ++ bytesLE 1 0 ++ bytesLE 2 c.tag ++ bytesLE 2 status ++ bytesLE 4 c.object ++ bytesLE 4 gen ++
    bytesLE 4 c.tick ++ bytesAt c.packet 32 12

/-- Command `i` of queue `q` is answered: a change increments its object's generation, what R408 names is logged, and the
CQ entry is written (R382, R388, R398). `feats` are the features of its session. -/
def Hw.ncpReply (h : Hw) (q i feats : Nat) (s : OpSpec) (c : NcpCmd) (status detail rlen : Nat) (res : List Byte) : Hw :=
  let done := decide (status ≤ nsPending)
  let h := h.when (s.w && done) (·.bumpGen c.objKey)
  let gen := h.replyGen feats c
  let logs := (s.w && done) || status == nsSafety || status == nsLifecycle
  let h := h.when logs (·.log 3 c.opcode 0 (ncpLogData q c status gen))
  h.cqWrite q i (replyBytes c status detail gen rlen res)

/-! ### The checks (R389, R391, R393, R396) -/

/-- What an opcode checks itself: the least data length it needs if it takes or returns data, whether it fails the version
negotiation, and the DETAIL of the first BAD_PARAM, DENIED_LIFECYCLE, DENIED_SAFETY and BUSY condition that holds. -/
structure Checks where
  data : DataUse := .none
  version : Bool := false
  param : Option Nat := none
  life : Option Nat := none
  safety : Option Nat := none
  busy : Option Nat := none
deriving DecidableEq, Repr

/-- The first detail whose condition holds. -/
def firstDetail : List (Bool × Nat) → Option Nat
  | [] => none
  | (b, d) :: cs => if b then some d else firstDetail cs

/-- VERSION (R390, R393). -/
def Hw.versionError (h : Hw) (q : Nat) (s : OpSpec) (c : NcpCmd) (chk : Checks) : Option Nat :=
  if chk.version then some ndNone
  else if s.exempt then none
  else
    match h.sessionOf c.session with
    | none => some ndSessionNone
    | some x => if q = 0 || nbit x.qmask q then none else some ndNotClaimed

/-- BAD_LENGTH (R389). -/
def badLength (c : NcpCmd) : DataUse → Bool
  | .none => c.dlen != 0
  | .some need => decide (c.dlen < need ∨ 16777216 < c.dlen)

/-- The BAD_PARAM conditions that every packet is checked for. -/
def Hw.packetError (h : Hw) (s : OpSpec) (c : NcpCmd) : Option Nat :=
  firstDetail
    [(!reservedClean s c, ndReserved),
     ((c.genChk && !h.feat c nfGenerations) || (c.barrier && !h.feat c nfBarrier), ndReserved),
     (s.exempt && c.session != 0, ndRange),
     (c.dptr % 4 != 0 || (c.dlen == 0 && c.dptr != 0), ndRange),
     (c.cls != s.cls || decide (c.index < s.low) || decide (s.high < c.index), ndRange)]

/-- Why a command is refused: the first STATUS that applies, with its DETAIL. -/
def Hw.ncpRefusal (h : Hw) (q : Nat) (s : OpSpec) (c : NcpCmd) (chk : Checks) : Option (Nat × Nat) :=
  match h.versionError q s c chk with
  | some d => some (nsVersion, d)
  | none =>
    if (s.feat.map fun k => !h.feat c k).getD false then some (nsBadOpcode, ndNone)
    else if badLength c chk.data then some (nsBadLength, ndNone)
    else
      match h.packetError s c <|> chk.param with
      | some d => some (nsBadParam, d)
      | none =>
        match chk.life with
        | some d => some (nsLifecycle, d)
        | none =>
          if c.genChk && h.gen c.objKey != c.expGen then some (nsConflict, ndNone)
          else if s.w && h.dev == devSafeHold then some (nsSafety, ndState)
          else
            match chk.safety with
            | some d => some (nsSafety, d)
            | none => chk.busy.map fun d => (nsBusy, d)

/-! ### Execution (R386, R396, R399) -/

/-- A command stands before another in the order of R399: tick, then queue, then SQ order. -/
def before (t q i : Nat) (t' q' i' : Nat) : Bool := decide (t < t' ∨ (t = t' ∧ (q < q' ∨ (q = q' ∧ i < i'))))

/-- A queue whose commands are carried out. -/
def Hw.qServed (h : Hw) (q : Nat) : Bool := h.qState q == qsActive || h.qState q == qsShutting

/-- The barrier of a command holds. -/
def Hw.isBarrier (h : Hw) (c : NcpCmd) : Bool := c.barrier && h.feat c nfBarrier

/-- It is the turn of command `i` of queue `q`: no earlier command names its object, and no barrier keeps it (R399). -/
def Hw.ncpTurn (h : Hw) (q i : Nat) (c : NcpCmd) : Bool :=
  let others := (List.range 16).all fun q' => !h.qServed q' ||
    ((List.range (h.queue q').cmds.length).all fun i' =>
      match (h.queue q').cmds[i']? with
      | none => true
      | some d => c.object == 0 || d.object != c.object || !before d.tick q' i' c.tick q i)
  let earlier := (h.queue q).cmds.take i
  others && (!h.isBarrier c || i == 0) && earlier.all fun d => !h.isBarrier d

/-- Command `i` of queue `q`, if it has the opcode and the service cores can execute it now. -/
def Hw.ncpCmd (h : Hw) (q i : Nat) (s : OpSpec) : Option NcpCmd :=
  match (h.queue q).cmds[i]? with
  | none => none
  | some c => if h.boot.svcUp && decide (q < 16) && h.qServed q && c.opcode == s.op && h.ncpTurn q i c then some c else none

/-- What a command that is carried out leaves: the hardware, the status, the data for the host or the count of bytes taken
from it, and RESULT. -/
structure Done where
  hw : Hw
  status : Nat := nsOk
  detail : Nat := ndNone
  data : List Byte := []
  taken : Nat := 0
  res : List Byte := []
deriving DecidableEq, Repr

/-- Data for the host goes to its buffer before the CQ entry (R382, R389). -/
def Hw.hostData (h : Hw) (c : NcpCmd) (bs : List Byte) : Hw := if bs.isEmpty then h else h.emit (.hostWrite c.dptr bs)

/-- A command that was carried out is answered. -/
def Hw.ncpDone (h : Hw) (q i : Nat) (s : OpSpec) (c : NcpCmd) (o : Done) : Hw :=
  (o.hw.hostData c o.data).ncpReply q i (h.featsOf c) s c o.status o.detail (o.data.length + o.taken) o.res

/-- The RESULT of OPEN_SESSION without a common version: the lowest and highest supported (R390). -/
def versionResult (s : OpSpec) (status : Nat) : List Byte :=
  if s.op = 1 ∧ status = nsVersion then bytesLE 2 0x100 ++ bytesLE 2 0x201 else []

/-- Refuse a command. -/
def Hw.ncpRefuse (h : Hw) (q i : Nat) (s : OpSpec) (c : NcpCmd) (r : Nat × Nat) : Hw :=
  h.ncpReply q i (h.featsOf c) s c r.1 r.2 0 (versionResult s r.1)

/-- DRAM is trained, so that commands can use it. -/
def Hw.dramUp (h : Hw) : Bool := h.on F.DDR_STAT_TRAINED 0

/-- The errors that a command meets in its transfers: DRAM that never trained, and an uncorrectable DRAM error, which is
recorded; each ends it with INTERNAL (R47, R389, R467). -/
def Hw.ncpFail (h : Hw) (q i : Nat) (s : OpSpec) (c : NcpCmd) (io : NcpIo) : Option Hw :=
  if s.dram && !h.dramUp then some (h.ncpReply q i (h.featsOf c) s c nsInternal ndNone 0 [])
  else match io.dramErr with
  | some off => some ((h.ddrUe off (some idDma) false).ncpReply q i (h.featsOf c) s c nsInternal ndNone 0 [])
  | none =>
    if io.dmaErr && c.dlen != 0 then some (h.ncpReply q i (h.featsOf c) s c nsInternal ndDma 0 []) else none

/-- The corrected errors that the reads of DRAM of a command meet (R47). -/
def Hw.ncpCe (h : Hw) (s : OpSpec) (io : NcpIo) : Hw := h.when s.dram (·.ddrCe io.dramCe)

/-- Execute command `i` of queue `q`: refuse it, end it with a transfer error, or carry it out and answer. -/
def Hw.ncpRun (h : Hw) (q i : Nat) (io : NcpIo) (s : OpSpec) (chk : NcpCmd → Checks) (act : NcpCmd → Done) : Hw :=
  match h.ncpCmd q i s with
  | none => h
  | some c =>
    match h.ncpRefusal q s c (chk c) with
    | some r => h.ncpRefuse q i s c r
    | none =>
      match h.ncpFail q i s c io with
      | some h' => h'
      | none => (h.ncpDone q i s c (act c)).ncpCe s io

/-- The command that an execution carries out, if it is neither refused nor ended by an error. -/
def Hw.ncpAccepts (h : Hw) (q i : Nat) (io : NcpIo) (s : OpSpec) (chk : NcpCmd → Checks) : Option NcpCmd :=
  match h.ncpCmd q i s with
  | none => none
  | some c => if (h.ncpRefusal q s c (chk c)).isSome || (h.ncpFail q i s c io).isSome then none else some c

/-- Mark command `i` of queue `q` as started, with the sequence number of its request. -/
def Hw.ncpStarted (h : Hw) (q i seq : Nat) : Hw :=
  h.updQueue q fun x => { x with cmds := x.cmds.modify i fun c => { c with started := true, seq := seq } }

/-- Execute a command that waits for a unit: at its first turn it is refused or started, and later `finish` answers it once
the unit is ready. -/
def Hw.ncpWait (h : Hw) (q i : Nat) (io : NcpIo) (s : OpSpec) (chk : NcpCmd → Checks) (start : NcpCmd → Hw)
    (finish : NcpCmd → Option Done) : Hw :=
  match h.ncpCmd q i s with
  | none => h
  | some c =>
    if c.started then
      match finish c with
      | none => h
      | some o => h.ncpDone q i s c o
    else
      match h.ncpRefusal q s c (chk c) with
      | some r => h.ncpRefuse q i s c r
      | none =>
        match h.ncpFail q i s c io with
        | some h' => h'
        | none => start c

/-- SQ_FETCH: the packet is fetched; one with an OPCODE outside the catalogue is refused at once (R401). Queues are not served
while the service cores stay in reset (R439): the entry then waits. -/
def Hw.ncpFetch (h : Hw) (packet : List Byte) : Hw :=
  match (if h.boot.svcUp then h.qGrant else none) with
  | none => h
  | some q =>
    let h := h.sqFetch packet
    let i := (h.queue q).cmds.length - 1
    match (h.queue q).cmds[i]? with
    | none => h
    | some c =>
      if ncpOpcodes.any fun s => s.op == c.opcode then h
      else
        let s : OpSpec := { op := c.opcode }
        match h.versionError q s c {} with
        | some d => h.ncpRefuse q i s c (nsVersion, d)
        | none => h.ncpRefuse q i s c (nsBadOpcode, ndNone)

end Sys2Proof.Machine
end

