-- ==== Sys2Proof/Machine/NcpCmds.lean ====
section
/-! DEFINITION. The commands of the NCP opcode catalogue: sessions, information, configuration, exposure, safety status, I/O,
ledger, firmware, attestation and diagnostics (R390 to R407). -/

namespace Sys2Proof.Machine

/-- The bytes of register words as a read shows them, without clearing (R43). -/
def Hw.regBytes (h : Hw) (rs : List (Reg × Nat)) : List Byte := rs.flatMap fun r => bytesLE 4 (h.readWord r.1 r.2).toNat

/-- The words 0 to `k` − 1 of a register. -/
def regWords (r : Reg) (k : Nat) : List (Reg × Nat) := (List.range k).map fun n => (r, n)

/-- A command that returns `data` with DLEN at least `need`. -/
def returns (need : Nat) : Checks := { data := .some need }

/-! ### Session, 0x00xx -/

/-- NOP. -/
def Hw.ncpNop (h : Hw) (q i : Nat) : Hw := h.ncpRun q i {} opNop (fun _ => {}) fun _ => { hw := h }

/-- The version that OPEN_SESSION agrees on (R390). -/
def agreedVersion (lo hi : Nat) : Option Nat := ncpVersions.find? fun v => decide (lo ≤ v ∧ v ≤ hi)

/-- The FEATURES word of a version and the host's WANT (R391). -/
def featuresOf (ver want : Nat) : Nat := nmask 8 fun k => decide (featureFrom.getD k 0 ≤ ver) && nbit want k

/-- A session of major version 1. -/
def Session.major1 (s : Session) : Bool := decide (s.ver < 0x200)

/-- The checks of OPEN_SESSION (R390, R392). -/
def Hw.openChecks (h : Hw) (q : Nat) (c : NcpCmd) : Checks :=
  let v := agreedVersion (c.p 0 2) (c.p 2 2)
  let mask := c.p 8 2
  let major1 := decide (v.getD 0 < 0x200)
  let open_ := h.ncp.sessions
  { version := v.isNone
    param := firstDetail
      [(q != 0, ndNone), (nbit mask 0 || (major1 && decide (1 < ones 16 mask)), ndRange)]
    busy := firstDetail
      [(if major1 then !open_.isEmpty else open_.any (·.major1) || decide (4 ≤ open_.length), ndLimit),
       (open_.any fun s => Nat.land s.qmask mask != 0, ndNone)] }

/-- OPEN_SESSION. -/
def Hw.ncpOpen (h : Hw) (q i : Nat) : Hw :=
  h.ncpRun q i {} opOpen (h.openChecks q) fun c =>
    let v := (agreedVersion (c.p 0 2) (c.p 2 2)).getD 0
    let s : Session := { id := h.ncp.nextId, ver := v, feats := featuresOf v (c.p 4 4), qmask := c.p 8 2 }
    let next := if h.ncp.nextId = 0xFFFF then 1 else h.ncp.nextId + 1
    { hw := { h with ncp := { h.ncp with sessions := h.ncp.sessions ++ [s], nextId := next } }
      res := bytesLE 2 s.ver ++ bytesLE 2 s.id ++ bytesLE 4 s.feats }

/-- CLOSE_SESSION (R394). -/
def Hw.ncpClose (h : Hw) (q i : Nat) : Hw :=
  h.ncpRun q i {} opClose
    (fun c =>
      let mask := ((h.sessionOf c.session).map (·.qmask)).getD 0
      { param := firstDetail [(q != 0, ndNone)]
        busy := firstDetail [((List.range 16).any fun k => nbit mask k && !(h.queue k).cmds.isEmpty, ndNone)] })
    fun c => { hw := { h with ncp := { h.ncp with sessions := h.ncp.sessions.filter fun s => s.id != c.session } } }

/-- The checks of DEVICE_RESET. -/
def resetChecks (q : Nat) (c : NcpCmd) : Checks :=
  { param := firstDetail [(q != 0, ndNone), (bytesAt c.packet 32 4 != [0x21, 0x54, 0x53, 0x52], ndRange)] }

/-- DEVICE_RESET: the reply is written before the WARM reset (R406). -/
def Hw.ncpReset (h : Hw) (q i : Nat) : Hw :=
  let h' := h.ncpRun q i {} opDeviceReset (resetChecks q) fun _ => { hw := h }
  if (h.ncpAccepts q i {} opDeviceReset (resetChecks q)).isSome then h'.requestReset else h'

/-! ### Information, 0x01xx -/

/-- DEVICE_INFO. -/
def Hw.ncpInfo (h : Hw) (q i : Nat) (io : NcpIo) : Hw :=
  h.ncpRun q i io opDeviceInfo (fun _ => returns 96) fun _ =>
    { hw := h
      data := h.regBytes ([(.GLB_ID, 0), (.GLB_FAMILY, 0), (.GLB_ROMVER, 0), (.GLB_FWVER, 0), (.GLB_IFVER, 0), (.GLB_LIFE, 0),
        (.GLB_STATE, 0), (.GLB_SERIAL, 0), (.GLB_SERIAL, 1)] ++ regWords .GLB_CFGDIG 8) ++ List.replicate 28 0 }

/-- STATE_READ. -/
def Hw.ncpState (h : Hw) (q i : Nat) : Hw :=
  h.ncpRun q i {} opStateRead (fun _ => {}) fun _ => { hw := h, res := h.regBytes [(.GLB_STATE, 0), (.GLB_LIFE, 0)] }

/-! ### Configuration and commissioning, 0x02xx -/

/-- Size of the staging area. -/
def stagingSize : Nat := 2 ^ 28

/-- OFFSET breaks its rules for `len` bytes. -/
def badOffset (c : NcpCmd) (len : Nat) : Bool := c.p 0 8 % 64 != 0 || decide (stagingSize < c.p 0 8 + len)

/-- STAGE_WRITE. -/
def Hw.ncpStage (h : Hw) (q i : Nat) (io : NcpIo) : Hw :=
  h.ncpRun q i io opStageWrite
    (fun c => { data := .some 0, param := firstDetail [(badOffset c c.dlen, ndRange)] })
    fun c => { hw := h.putDram (stagingBase + c.p 0 8) ((io.data ++ List.replicate c.dlen 0).take c.dlen), taken := c.dlen }

/-- The staged bytes that OFFSET and LENGTH name. -/
def Hw.staged (h : Hw) (c : NcpCmd) : List Byte := h.dramBytes (stagingBase + c.p 0 8) (c.p 8 4)

/-- The DETAIL of a package that fails its verification (R455). -/
def PkgFail.detail : PkgFail → Nat
  | .shape => ndRange
  | .target => ndRange
  | .signer => ndSignature
  | .signature => ndSignature
  | .body => ndSignature
  | .rollback => ndRollback

/-- The checks of a staged package of a kind; one that cannot be read, of a DRAM in error or untrained, is not judged. -/
def Hw.pkgChecks (h : Hw) (io : NcpIo) (need : DataUse) (kind : NcpCmd → PkgKind) (c : NcpCmd) : Checks :=
  { data := need
    param := if badOffset c (c.p 8 4) then some ndRange
      else if io.dramErr.isSome || !h.dramUp then none
      else (h.verifyPkg (kind c) (h.staged c)).map PkgFail.detail }

/-- CFG_VERIFY. -/
def Hw.ncpCfgVerify (h : Hw) (q i : Nat) (io : NcpIo) : Hw :=
  h.ncpRun q i io opCfgVerify (h.pkgChecks io (.some 32) fun _ => .config) fun c => { hw := h, data := pkgBodyDig (h.staged c) }

/-- The checks of CFG_INSTALL. -/
def Hw.cfgInstallChecks (h : Hw) (io : NcpIo) : NcpCmd → Checks := h.pkgChecks io .none fun _ => .config

/-- CFG_INSTALL in the hardware: the package is streamed to the B-die (R457). -/
def Hw.ncpCfgInstall (h : Hw) (q i : Nat) (io : NcpIo) : Hw :=
  h.ncpRun q i io opCfgInstall (h.cfgInstallChecks io) fun c => { hw := h.bInstall (pkgBody (h.staged c)) }

/-- CFG_INSTALL in the boot flash: the package replaces the installed one and its trial mark (R446). -/
def NonVol.cfgInstall (v : NonVol) (h : Hw) (q i : Nat) (io : NcpIo) : NonVol :=
  match h.ncpAccepts q i io opCfgInstall (h.cfgInstallChecks io) with
  | none => v
  | some c => let b := h.staged c; { v with flash := { v.flash with cfg := b.take (pkgLen b), trial := false } }

/-- The message of a commissioning signature (R458). -/
def Hw.commissionMessage (h : Hw) (slot : Nat) (dig : List Byte) : List Byte :=
  tagBytes tagCommission ++ bytesLE 1 slot ++ dig ++ bytesLE 8 h.serial ++ bytesLE 1 h.life

/-- The commissioning signature verifies under the signer of the installed package, an integrator key (R403, R458). -/
def Hw.commissionSigned (h : Hw) (v : NonVol) (slot : Nat) (dig sig : List Byte) : Bool :=
  let f := v.flash.cfg
  pkgSlotOk .config f && h.keyInSlot (pkgKeySlot f) (pkgSigner f) && ed448Verify (pkgSigner f) (h.commissionMessage slot dig) sig

/-- The checks of CFG_COMMISSION in the order of R403. -/
def Hw.commissionChecks (h : Hw) (v : NonVol) (io : NcpIo) (c : NcpCmd) : Checks :=
  let dig := bytesAt c.packet 32 32
  { data := .some 114
    param := firstDetail
      [(lowestBlank v.now h.life != some c.index, ndSlot),
       (!io.dmaErr && !h.commissionSigned v c.index dig (io.data.take 114), ndSignature),
       (dig != pkgBodyDig v.flash.cfg, ndDigest)]
    life := firstDetail [(h.life != lcDevelopment && h.life != lcField, ndNone)]
    safety := firstDetail
      [(h.dev != devUnconfigured && h.dev != devTrial, ndState),
       (!h.boot.commLow, ndPresence),
       (!h.on F.XLK_STAT_XLKC_UP 0 || !h.b.digValid || h.b.digest != dig, ndBdieDigest)]
    busy := firstDetail [(h.on F.OTP_STAT_BUSY 0, ndNone)] }

/-- The OTP command word of an operation and a target. -/
def otpWord (op target : Nat) : Word := BitVec.ofNat 32 (op + 256 * target)

/-- How a burn that the service cores started ended, as STATUS and DETAIL. -/
def otpStatus (code : Nat) : Nat × Nat :=
  if code = orOk then (nsOk, ndNone)
  else if code = orNotBlank then (nsBadParam, ndSlot)
  else if code = orPresence then (nsSafety, ndPresence)
  else if code = orBMismatch ∨ code = orBTimeout then (nsSafety, ndBdieDigest)
  else if code = orDenied ∨ code = orLocked then (nsLifecycle, ndNone)
  else (nsInternal, ndNone)

/-- The answer to a command whose burn has ended. -/
def Hw.otpAnswer (h : Hw) (taken : Nat) : Option Done :=
  if h.on F.OTP_STAT_BUSY 0 then none
  else
    let r := otpStatus (h.get F.OTP_RESULT_CODE 0)
    some { hw := h, status := r.1, detail := r.2, taken := taken }

/-- CFG_COMMISSION: the checks of R403, then OTP COMMISSION; the reply follows its end. -/
def Hw.ncpCommission (h : Hw) (v : NonVol) (q i : Nat) (io : NcpIo) (commLow : Bool) : Hw :=
  let h := h.updBoot fun b => { b with commLow := commLow }
  h.ncpWait q i io opCfgCommission (h.commissionChecks v io)
    (fun c => (otpCmdWrite v (otpWord opCommission (0x20 + c.index)) (h.setBytes .OTP_CDIG 0 (bytesAt c.packet 32 32))).ncpStarted q i 0)
    fun _ => h.otpAnswer 114

/-- CFG_SLOTS_READ. -/
def Hw.ncpSlots (h : Hw) (v : NonVol) (q i : Nat) (io : NcpIo) : Hw :=
  h.ncpRun q i io opCfgSlots (fun _ => returns 1028) fun _ =>
    { hw := h
      data := bytesLE 4 (slotsUsed v.now h.life) ++ (List.range 32).flatMap fun s => (slotRegion s).bytes v.now }

/-- The checks of TRIAL_RUN (R405). -/
def Hw.trialChecks (h : Hw) (_ : NcpCmd) : Checks :=
  { life := firstDetail [(h.life != lcDevelopment, ndNone)]
    safety := firstDetail [(h.dev == devStartup || h.dev == devRun, ndState)] }

/-- TRIAL_RUN in the hardware. -/
def Hw.ncpTrial (h : Hw) (q i : Nat) : Hw := h.ncpRun q i {} opTrialRun h.trialChecks fun _ => { hw := h }

/-- TRIAL_RUN in the boot flash: the installed package takes the trial mark. -/
def NonVol.trialRun (v : NonVol) (h : Hw) (q i : Nat) : NonVol :=
  if (h.ncpAccepts q i {} opTrialRun h.trialChecks).isSome then { v with flash := { v.flash with trial := true } } else v

/-- The USR region. -/
def usrRegion : Region := ⟨7, 0x100, 0x80, 0x180, 0x049, 4⟩

/-- OTP_READ: the payload as it stands. -/
def Hw.ncpOtpRead (h : Hw) (v : NonVol) (q i : Nat) (io : NcpIo) : Hw :=
  h.ncpRun q i io opOtpRead (fun _ => returns 512) fun _ => { hw := h, data := usrRegion.bytes v.now }

/-- An operation is refused at its start. -/
def OtpOp.refused (o : OtpOp) : Bool := o.code == orDenied || o.code == orLocked

/-- OTP_USR_WRITE: the bits of VALUE are burned into USR word WORD; the reply follows the end of the burn. -/
def Hw.ncpUsrWrite (h : Hw) (v : NonVol) (q i : Nat) : Hw :=
  h.ncpWait q i {} opOtpWrite
    (fun c =>
      { param := firstDetail [(decide (127 < c.p 0 4), ndRange)]
        life := firstDetail [((h.planProgram v (0x100 + c.p 0 4) (c.p 4 4)).refused, ndNone)]
        busy := firstDetail [(h.on F.OTP_STAT_BUSY 0, ndNone)] })
    (fun c =>
      let h := (h.set F.OTP_ADDR_VALUE 0 (0x100 + c.p 0 4)).set F.OTP_WDATA_VALUE 0 (c.p 4 4)
      (otpCmdWrite v (otpWord opProgram 0) h).ncpStarted q i 0)
    fun _ => h.otpAnswer 0

/-- OTP_FINALISE of the USR region (R404): the reply follows the end of the burn. -/
def Hw.ncpFinalise (h : Hw) (v : NonVol) (q i : Nat) : Hw :=
  h.ncpWait q i {} opOtpFinalise
    (fun c =>
      let o := h.planFinalise v rgUsr
      { param := firstDetail [(bytesAt c.packet 32 32 != usrRegion.digest v.now, ndReadback), (o.code == orZero, ndNone)]
        life := firstDetail [(o.refused, ndNone)]
        busy := firstDetail [(h.on F.OTP_STAT_BUSY 0, ndNone)] })
    (fun _ => (otpCmdWrite v (otpWord opFinalise rgUsr) h).ncpStarted q i 0)
    fun _ => h.otpAnswer 0

/-! ### Exposure and envelope, 0x03xx -/

/-- LANE_SERVICE: firmware enables no lane in BOOT, UNCONFIGURED or SAFE_HOLD (R506). -/
def Hw.ncpLane (h : Hw) (q i : Nat) : Hw :=
  h.ncpRun q i {} opLaneService
    (fun c =>
      let fault := h.laneState c.index .ingress == laneFault || h.laneState c.index .egress == laneFault
      { param := firstDetail [(decide (1 < c.p 0 1), ndRange)]
        safety := firstDetail [(c.p 0 1 == 1 && (h.dev == devBoot || h.dev == devUnconfigured), ndState)]
        busy := firstDetail [(c.p 0 1 == 1 && fault, ndLaneFault)] })
    fun c =>
      let h := laneCtlWrite c.index (c.p 0 1) h
      { hw := h, status := if c.p 0 1 = 1 ∧ h.on F.LANE_STAT_PEND c.index = true then nsPending else nsOk }

/-- LANE_STATUS_READ. -/
def Hw.ncpLaneStatus (h : Hw) (q i : Nat) (io : NcpIo) : Hw :=
  h.ncpRun q i io opLaneStatus (fun _ => returns 64) fun c =>
    { hw := h
      data := h.regBytes ([Reg.LANE_STAT, .LANE_PEER_CAP, .LANE_SEQ, .LANE_LAYER, .LANE_SLOTCNT, .LANE_ERR, .LANE_FRMCNT,
        .LANE_EG_STAT, .LANE_EG_PEER_CAP, .LANE_EG_SEGCNT, .LANE_EG_ERR, .REL_STAT, .REL_RELCNT, .REL_LAT].map fun r => (r, c.index)) ++
        List.replicate 8 0 }

/-- The set that ENV_SELECT names can be requested for the group (R402 step 1). -/
def Hw.requestOk (h : Hw) (g set : Nat) : Bool :=
  match h.selectFn .a g with
  | none => false
  | some n => (h.fn .a n).modeRequest && decide (set < 16) && nbit (h.fn .a n).setMask set

/-- IN0 of the group's ENVELOPE_SELECT function in channel A. -/
def Hw.requestEnabled (h : Hw) (g : Nat) : Bool :=
  match h.selectFn .a g with
  | none => false
  | some n => h.inVal .a (h.fn .a n) 0 false

/-- The service core that uses a mailbox channel: the bound one, or else the first. -/
def svcOf (id : Nat) : Nat := if 6 ≤ id ∧ id < 10 then id else 6

/-- The service cores send an ENV_REQUEST on channel 30 once it is free (R369, R402 step 3). -/
def Hw.sendEnvRequest (h : Hw) (q i g set : Nat) : Hw :=
  if h.mbxFull 30 then h
  else
    let m := svcOf (h.get F.MBX_BIND_SEND 30)
    let seq := h.ncp.envSeq
    let h := { h with ncp := { h.ncp with envSeq := (seq + 1) % 2 ^ 32 } }
    let h := mbxMsgWrite m 30 0 (BitVec.ofNat 32 (1 + 256 * g + 4096 * set)) h
    let h := mbxMsgWrite m 30 1 (BitVec.ofNat 32 seq) h
    (mbxSendWrite m 30 2 h).ncpStarted q i seq

/-- The ENV_REPLY that stands on channel 31: its sequence number and its status. -/
def Hw.envReply (h : Hw) : Option (Nat × Nat) :=
  if h.mbxFull 31 then some ((h.word .MBX_MSG 249).toNat, (h.word .MBX_MSG 250).toNat) else none

/-- The service cores take the message on channel 31. -/
def Hw.takeEnvReply (h : Hw) : Hw := (mbxTakeRead (svcOf (h.get F.MBX_BIND_RECV 31)) 31 h).2

/-- A started ENV_SELECT that awaits the answer to request `r.1` keeps its status `r.2`. -/
def NcpCmd.answered (c : NcpCmd) (r : Nat × Nat) : NcpCmd :=
  if c.started && c.opcode == opEnvSelect.op && c.seq == r.1 && c.reply.isNone then { c with reply := some r.2 } else c

/-- The service cores take the answer on channel 31 and keep it for the command that awaits it; an answer that none awaits is
dropped (R402). -/
def Hw.keepEnvReply (h : Hw) : Hw :=
  match h.envReply with
  | none => h
  | some r => h.takeEnvReply.forUpTo 16 fun q h => h.updQueue q fun x => { x with cmds := x.cmds.map fun c => c.answered r }

/-- The end of an ENV_SELECT (R402 steps 3 and 4): with the B-die's answer an accepted selection is delivered to channel A;
`timeout` says that no answer came in time. -/
def Hw.envSelectEnd (h : Hw) (c : NcpCmd) (timeout : Bool) : Option Done :=
  match c.reply with
  | some status =>
    if status ≠ 0 then some { hw := h, status := nsSafety, detail := ndEnableOff }
    else
      match h.latchRequest .a c.index (c.p 0 1) with
      | some h => some { hw := h }
      | none => some { hw := h, status := nsSafety, detail := ndBOnly }
  | none => if timeout then some { hw := h, status := nsInternal } else none

/-- ENV_SELECT (R402). -/
def Hw.ncpEnvSelect (h : Hw) (q i : Nat) (timeout : Bool) : Hw :=
  let h := h.when (h.ncpCmd q i opEnvSelect).isSome (·.keepEnvReply)
  h.ncpWait q i {} opEnvSelect
    (fun c =>
      { param := firstDetail [(!h.requestOk c.index (c.p 0 1), ndRange)]
        safety := firstDetail [(!h.requestEnabled c.index, ndEnableOff)] })
    (fun c => h.sendEnvRequest q i c.index (c.p 0 1))
    fun c => h.envSelectEnd c timeout

/-- ENV_STATUS_READ. What the spec does not state, the selected set before the first selection and the state of a function that
does not exist, is a free value. -/
def Hw.ncpEnvStatus (h : Hw) (q i : Nat) : Hw :=
  h.ncpRun q i {} opEnvStatus (fun _ => {}) fun c =>
    let g := c.index
    let fnSt := match h.selectFn .a g with
      | some n => nfield (h.sfnStatWord n) 0 2
      | none => Config.freeValue (h.draws + 1) % 256
    let sel := match h.selectFn .a g with
      | none => 0
      | some _ => (h.selectionA g).getD (Config.freeValue h.draws % 256)
    { hw := h.draw.draw
      res := bytesLE 1 ((h.confirmedSet .a g).getD 0xFF) ++ bytesLE 1 sel ++
        bytesLE 1 (Store.get (fun _ => erNone) h.envRes g) ++ bytesLE 1 fnSt }

/-- ZONE_STATUS_READ. -/
def Hw.ncpZones (h : Hw) (q i : Nat) (io : NcpIo) : Hw :=
  h.ncpRun q i io opZoneStatus
    (fun c =>
      { data := .some (16 * c.p 1 1)
        param := firstDetail [(decide (63 < c.p 0 1 ∨ c.p 1 1 = 0 ∨ 64 < c.p 0 1 + c.p 1 1), ndRange)] })
    fun c =>
      { hw := h
        data := (List.range (c.p 1 1)).flatMap fun k =>
          let z := c.p 0 1 + k
          h.regBytes [(.ZONE_STAT, z), (.ZONE_PEAK, z), (.ZONE_CNT, z)] ++ bytesLE 4 (bit (h.owned (slotZone z) != 0)) }

/-- CHK_CEOFF with the bit of engine `m` set or cleared. -/
def Hw.ceoffBit (h : Hw) (m : Nat) (b : Bool) : Hw := ceoffWrite (nsetBit (h.get F.CHK_CEOFF_OFF 0) m b) h

/-- Taking engine `m` out of service would take a fifth out of ONLINE (R106). -/
def Hw.ceLimit (h : Hw) (m : Nat) : Bool :=
  decide (4 < ((List.range 16).filter fun k => h.notOnline k || h.bitOf F.CHK_CEOFF_OFF 0 k || k == m).length)

/-- The answer to CHK_SELFTEST. -/
def Hw.selftestAnswer (h : Hw) (m : Nat) : Done := { hw := h, res := bytesLE 1 (h.ce m).state.code }

/-- CHK_SELFTEST (R104): the CEOFF bit is set, and cleared once the engine is offline; the reply follows when it is ONLINE
again or FAILED. -/
def Hw.ncpSelftest (h : Hw) (q i : Nat) : Hw :=
  match h.ncpCmd q i opChkSelftest with
  | none => h
  | some c =>
    let m := c.index
    if c.started && (h.ce m).state == .offline && h.bitOf F.CHK_CEOFF_OFF 0 m then h.ceoffBit m false
    else
      h.ncpWait q i {} opChkSelftest
        (fun c => { busy := firstDetail [(h.ceLimit c.index, ndLimit)] })
        (fun c => (h.ceoffBit c.index true).ncpStarted q i 0)
        fun c =>
          match (h.ce c.index).state with
          | .online => some (h.selftestAnswer c.index)
          | .failed => some ((h.ceoffBit c.index false).selftestAnswer c.index)
          | _ => none

/-! ### Safety status and timing, 0x04xx -/

/-- SAFETY_STATUS_READ. -/
def Hw.ncpSafety (h : Hw) (q i : Nat) (io : NcpIo) : Hw :=
  h.ncpRun q i io opSafetyStatus
    (fun c =>
      { data := .some (8 * c.p 1 2), param := firstDetail [(decide (c.p 1 2 = 0 ∨ 256 < c.p 0 1 + c.p 1 2), ndRange)] })
    fun c => { hw := h, data := (List.range (c.p 1 2)).flatMap fun k => h.regBytes [(.SFN_STAT, c.p 0 1 + k), (.SFN_CFG, c.p 0 1 + k)] }

/-- SAFETY_TIMING_READ (R300). -/
def Hw.ncpTiming (h : Hw) (q i : Nat) (io : NcpIo) : Hw :=
  h.ncpRun q i io opSafetyTiming
    (fun c =>
      { data := .some (32 * c.p 1 1)
        param := firstDetail [(decide (c.p 1 1 = 0 ∨ 64 < c.p 1 1 ∨ 256 < c.p 0 1 + c.p 1 1), ndRange)] })
    fun c =>
      let fns := ((List.range (c.p 1 1)).map (c.p 0 1 + ·)).filter fun n => (h.fn .a n).type != 0
      { hw := h, data := fns.flatMap h.timingRecord }

/-- EXCHANGE_STATUS_READ. -/
def Hw.ncpExchange (h : Hw) (q i : Nat) (io : NcpIo) : Hw :=
  h.ncpRun q i io opExchangeStatus (fun _ => returns 32) fun _ =>
    { hw := h
      data := h.regBytes [(.SFN_XSTAT, 0), (.SFN_CYCLE, 0)] ++ bytesLE 4 (h.get F.SFN_RST_STUCK 0) ++
        h.regBytes ((.POD_PAIR, 0) :: regWords .POD_STAT 4)
      res := h.regBytes [(.SFN_XMISS, 0), (.SFN_OVRCNT, 0)] }

/-! ### Standard I/O, 0x05xx -/

/-- DQ_SET (R267): CLR before EN. -/
def Hw.ncpDq (h : Hw) (q i : Nat) : Hw :=
  h.ncpRun q i {} opDqSet
    (fun c =>
      { param := firstDetail [(decide (1 < c.p 0 1 ∨ 1 < c.p 1 1) || h.dqInput c.index, ndRange)]
        safety := firstDetail [(c.p 0 1 == 1 && !h.outputsLive, ndState)] })
    fun c =>
      let n := c.index
      let hot := h.on F.DQ_FLT_HOT_REF n
      let h1 := (h.setB F.DQ_FLT_HOT_REF n false).dqCtlWrite n (BitVec.ofNat 32 (c.p 0 1 + 2 * c.p 1 1))
      let refused := h1.on F.DQ_FLT_HOT_REF n
      let h2 := if refused then h.setB F.DQ_FLT_HOT_REF n true else h1.setB F.DQ_FLT_HOT_REF n hot
      { hw := h2
        status := if refused then nsHot else if c.p 0 1 = 1 ∧ h2.on F.DQ_STAT_PEND n = true then nsPending else nsOk
        res := h2.regBytes [(.DQ_STAT, n)] }

/-- CLO_SET (R290): UA, then EN with CLR. -/
def Hw.ncpClo (h : Hw) (q i : Nat) : Hw :=
  h.ncpRun q i {} opCloSet
    (fun c =>
      { param := firstDetail [(decide (24000 < c.p 0 4 ∨ 1 < c.p 4 1 ∨ 1 < c.p 5 1), ndRange)]
        safety := firstDetail [(c.p 4 1 == 1 && !h.outputsLive, ndState)] })
    fun c =>
      let n := c.index
      let h := (h.writeFields .CLO_SET n false (BitVec.ofNat 32 (c.p 0 4))).cloCtlWrite n (BitVec.ofNat 32 (c.p 4 1 + 2 * c.p 5 1))
      { hw := h
        status := if c.p 4 1 = 1 ∧ h.on F.CLO_STAT_PEND n = true then nsPending else nsOk
        res := h.regBytes [(.CLO_STAT, n)] }

/-- IO_READ. -/
def Hw.ncpIo (h : Hw) (q i : Nat) (io : NcpIo) : Hw :=
  h.ncpRun q i io opIoRead (fun _ => returns 512) fun _ =>
    { hw := h
      data := h.regBytes (regWords .DI_STAT 48 ++ regWords .DQ_STAT 16 ++ regWords .SO_STAT 16 ++ regWords .CLI_PV 8 ++
        regWords .CLO_STAT 4 ++ [(.SUP_STAT, 0), (.SUP_VOLT, 0), (.SUP_STAT, 1), (.SUP_VOLT, 1)]) ++ List.replicate 128 0 }

/-! ### Ledger, 0x07xx (R407) -/

/-- LEDGER_STATUS. -/
def Hw.ncpLedgerStatus (h : Hw) (q i : Nat) (io : NcpIo) : Hw :=
  h.ncpRun q i io opLedgerStatus (fun _ => returns 40) fun _ =>
    { hw := h
      data := bytesLE 8 h.rdSeq ++ bytesLE 8 h.clSeq ++ bytesLE 8 h.wrSeq ++
        h.regBytes [(.LDG_STAT, 0), (.LDG_LOST, 0), (.LDG_CFG, 0), (.LDG_ENGMASK, 0)] }

/-- COUNT of a ledger command breaks its rule. -/
def Hw.badCount (h : Hw) (c : NcpCmd) : Bool :=
  if h.feat c nfLedgerMulti then decide (c.p 8 4 < 1 ∨ 64 < c.p 8 4) else c.p 8 4 != 1

/-- The 131,584 bytes of a ledger entry: header, then records. -/
def Hw.entryBytes (h : Hw) (lseq : Nat) : List Byte := h.dramBytes (headerAt lseq) 512 ++ h.dramBytes (recordsAt lseq) 131072

/-- LEDGER_READ. -/
def Hw.ncpLedgerRead (h : Hw) (q i : Nat) (io : NcpIo) : Hw :=
  h.ncpRun q i io opLedgerRead
    (fun c =>
      { data := .some (131584 * c.p 8 4)
        param := firstDetail [(h.badCount c || decide (c.p 0 8 < h.rdSeq), ndRange)]
        busy := firstDetail [(h.dramUp && decide (h.clSeq < c.p 0 8 + c.p 8 4), ndNone)] })
    fun c => { hw := h, data := (List.range (c.p 8 4)).flatMap fun k => h.entryBytes (c.p 0 8 + k) }

/-- LEDGER_ACK. -/
def Hw.ncpLedgerAck (h : Hw) (q i : Nat) : Hw :=
  h.ncpRun q i {} opLedgerAck
    (fun c => { param := firstDetail [(h.badCount c || c.p 0 8 != h.rdSeq || decide (h.clSeq < c.p 0 8 + c.p 8 4), ndRange)] })
    fun c => { hw := h.ackSeq (c.p 0 8 + c.p 8 4) }

/-! ### Firmware, 0x08xx -/

/-- The kind of a staged firmware or lifecycle package. -/
def Hw.fwKind (h : Hw) (c : NcpCmd) : PkgKind := if leAt (h.staged c) 5 1 = 3 then .lifecycle else .firmware

/-- FW_VERIFY. -/
def Hw.ncpFwVerify (h : Hw) (q i : Nat) (io : NcpIo) : Hw :=
  h.ncpRun q i io opFwVerify (h.pkgChecks io .none h.fwKind) fun c => { hw := h, res := bytesLE 4 (pkgVersion (h.staged c)) }

/-- FW_INSTALL in the hardware. -/
def Hw.ncpFwInstall (h : Hw) (q i : Nat) (io : NcpIo) : Hw :=
  h.ncpRun q i io opFwInstall (h.pkgChecks io .none h.fwKind) fun _ => { hw := h }

/-- FW_INSTALL in the boot flash: the area that does not hold the running firmware, or the lifecycle package for the next
start (R448, R456). -/
def NonVol.fwInstall (v : NonVol) (h : Hw) (q i : Nat) (io : NcpIo) : NonVol :=
  match h.ncpAccepts q i io opFwInstall (h.pkgChecks io .none h.fwKind) with
  | none => v
  | some c =>
    let b := (h.staged c).take (pkgLen (h.staged c))
    let f := v.flash
    match h.fwKind c with
    | .lifecycle => { v with flash := { f with life := b } }
    | _ => { v with flash := if h.boot.area = 0 then { f with fw1 := b } else { f with fw0 := b } }

/-- FW_STATUS: the installed version is that of the firmware that the next start would choose. -/
def Hw.ncpFwStatus (h : Hw) (v : NonVol) (q i : Nat) : Hw :=
  h.ncpRun q i {} opFwStatus (fun _ => {}) fun _ =>
    let inst := ((h.chosenFw v).map fun a => pkgVersion (v.flash.fw a)).getD 0
    { hw := h, res := h.regBytes [(.GLB_FWVER, 0)] ++ bytesLE 4 inst }

/-! ### Attestation, 0x09xx -/

/-- A command that needs the identity key without one ends with INTERNAL. -/
def Hw.withKey (h : Hw) (d : List Byte) : Done := if h.idKey.isEmpty then { hw := h, status := nsInternal } else { hw := h, data := d }

/-- ATTEST_IDENTITY. -/
def Hw.ncpIdentity (h : Hw) (q i : Nat) (io : NcpIo) : Hw :=
  h.ncpRun q i io opAttestIdentity (fun _ => returns 61) fun _ =>
    h.withKey (ed448Public h.idKey ++ h.regBytes [(.GLB_LIFE, 0)])

/-- Bytes 0 to 191 of the attestation report (R459). -/
def Hw.attestBody (h : Hw) (nonce : List Byte) : List Byte :=
  let failed := (List.range 8).any fun k => h.get F.OTP_REGION_STATE k == rsFailed
  let flags := bit failed + 2 * bit (h.on F.OTP_STAT_MARGINAL 0) + 4 * bit (h.on F.SEC_STAT_BREACH 0) + 8 * bit h.boot.unlocked
  [0x41, 0x4B, 0x41, 0x54, 0x01] ++ bytesLE 1 (h.get F.SEC_STAT_LCB 0) ++ bytesLE 2 (h.word .GLB_STATE 0).toNat ++
    bytesLE 8 h.serial ++ h.regBytes [(.GLB_ID, 0), (.GLB_ROMVER, 0), (.GLB_FWVER, 0)] ++ bytesLE 1 h.rbkCount ++ bytesLE 1 flags ++
    bytesLE 2 0 ++ nonce ++ h.getBytes .GLB_CFGDIG 8 ++ h.boot.fwDigest ++ h.getBytes .LDG_HDIG 8 ++ bytesLE 8 h.clSeq ++
    bytesLE 8 h.time ++ bytesLE 4 (h.get F.OTP_CFGDUSED_VALUE 0) ++ List.replicate 12 0

/-- The 320-byte report with its signature. -/
def Hw.attestReport (h : Hw) (nonce : List Byte) : List Byte :=
  let b := h.attestBody nonce
  b ++ ed448Sign h.idKey (tagBytes tagAttest ++ b) ++ List.replicate 14 0

/-- ATTEST_REPORT. -/
def Hw.ncpAttest (h : Hw) (q i : Nat) (io : NcpIo) : Hw :=
  h.ncpRun q i io opAttestReport (fun _ => returns 320) fun c => h.withKey (h.attestReport (bytesAt c.packet 32 32))

/-! ### Diagnostics and log, 0x0Axx -/

/-- Records that the event-log ring holds. -/
def logRing : Nat := 8388608

/-- Records that can be read. -/
def Hw.logHeld (h : Hw) : Nat := min h.logNext logRing

/-- The DRAM offset of log record `k` (the DRAM map). -/
def logAt (k : Nat) : Nat := 0x180000000 + 64 * (k % logRing)

/-- LOG_STATUS; with no record written, the numbers are free values. -/
def Hw.ncpLogStatus (h : Hw) (q i : Nat) : Hw :=
  h.ncpRun q i {} opLogStatus (fun _ => {}) fun _ =>
    if h.logNext = 0 then
      { hw := h.draw.draw, res := bytesLE 4 (Config.freeValue h.draws) ++ bytesLE 4 (Config.freeValue (h.draws + 1)) }
    else { hw := h, res := bytesLE 4 (h.logNext - h.logHeld) ++ bytesLE 4 (h.logNext - 1) }

/-- How far record number `first` stands behind the newest record (numbers wrap at 2^32). -/
def Hw.logBack (h : Hw) (first : Nat) : Nat := ((h.logNext - 1) % 2 ^ 32 + 2 ^ 32 - first) % 2 ^ 32

/-- LOG_READ. -/
def Hw.ncpLogRead (h : Hw) (q i : Nat) (io : NcpIo) : Hw :=
  h.ncpRun q i io opLogRead
    (fun c =>
      { data := .some (64 * c.p 4 4)
        param := firstDetail
          [(decide (c.p 4 4 = 0 ∨ 4096 < c.p 4 4) || (h.dramUp && decide (h.logNext = 0 ∨ h.logHeld ≤ h.logBack (c.p 0 4))), ndRange)] })
    fun c =>
      let back := h.logBack (c.p 0 4)
      let k0 := h.logNext - 1 - back
      { hw := h, data := (List.range (min (c.p 4 4) (back + 1))).flatMap fun k => h.dramBytes (logAt (k0 + k)) 64 }

/-- EVT_ROUTE_SET. -/
def Hw.ncpRoute (h : Hw) (q i : Nat) : Hw :=
  h.ncpRun q i {} opEvtRoute
    (fun c =>
      let kind := h.get F.EVT_ROUTE_KIND c.index
      { param := firstDetail [(decide (15 < c.p 0 1 ∧ c.p 0 1 ≠ 0xFF), ndRange)]
        safety := firstDetail [(h.on F.EVT_ROUTE_LOCK c.index || kind == 1 || kind == 2, ndLocked)] })
    fun c =>
      let w := if c.p 0 1 = 0xFF then 0 else F.EVT_ROUTE_INDEX.put (F.EVT_ROUTE_KIND.put 0 routeMsix) (c.p 0 1)
      { hw := evtRouteWrite c.index w h }

/-- ACCESS_VIOL_READ. -/
def Hw.ncpViol (h : Hw) (q i : Nat) : Hw :=
  h.ncpRun q i {} opAccessViol (fun _ => {}) fun _ => { hw := h, res := h.regBytes [(.GLB_AVIOL, 0), (.GLB_AVADDR, 0)] }

/-! ### The event log (R408, R409) -/

/-- The flag register and the state register of an event and its instance. -/
def eventRegs (tpSrc : Nat → Nat) (e k : Nat) : (Reg × Nat) × (Reg × Nat) :=
  if e < 16 then ((.LANE_ERR, k), (.LANE_STAT, k))
  else if e < 32 then ((.REL_ERR, k), (.REL_STAT, k))
  else if e < 40 then ((.CHK_ERR, 0), (.CHK_STAT, 0))
  else if e < 48 then ((.SFN_XSTAT, 0), (.GLB_STATE, 0))
  else if e < 50 then ((.DI_STAT, k), (.DI_TPLAST, k))
  else if e < 52 then (if k < 256 then ((.TP_FLT, k), (.TP_STAT, k)) else ((.DI_STAT, k - 256), (.TP_STAT, tpSrc (k - 256))))
  else if e < 54 then ((.SO_FLT, k), (.SO_STAT, k))
  else if e < 56 then ((.DQ_FLT, k), (.DQ_STAT, k))
  else if e < 60 then ((.SUP_ERR, k), (.SUP_STAT, k))
  else if e = 60 then ((.CLI_FLT, k), (.CLI_STAT, k))
  else if e = 61 then ((.CLO_FLT, k), (.CLO_STAT, k))
  else if e < 64 then ((.XLK_BFLINK, 0), (.XLK_ERR, 0))
  else if e < 96 then ((.TMR_STAT, k), (.TMR_CNT, k))
  else if e < 104 then ((.CRC_STAT, k), (.CRC_RESULT, k))
  else if e < 112 then ((.MBX_FULL, 0), (.MBX_TAKEN, 0))
  else if e < 120 then ((.QUE_ERR, k), (.QUE_STAT, k))
  else if e < 124 then ((.POD_MMINFO, k), (.POD_STAT, k))
  else if e = 124 then ((.OTP_STAT, 0), (.OTP_MARGW, 0))
  else if e = 125 then ((.SEC_EVT, 0), (.SEC_STAT, 0))
  else if e = 126 then ((.DDR_EVT, 0), (.DDR_STAT, 0))
  else ((.CLK_EVT, 0), (.CLK_STAT, 0))

/-- The 32 data bytes of a record: those of an event are read when the record is written. -/
def Hw.logData (h : Hw) (x : LogItem) : List Byte :=
  if x.cls = 1 then
    let r := eventRegs (h.get F.DI_CFG_TPSRC) x.code x.inst
    h.regBytes [r.1, r.2] ++ (if x.code = 16 then h.regBytes [(.LDG_EVT, 0)] else List.replicate 4 0) ++
      bytesLE 1 (x.inst % 256) ++ List.replicate 19 0
  else (x.data ++ List.replicate 32 0).take 32

/-- The 64 bytes of a log record. -/
def Hw.logRecord (h : Hw) (x : LogItem) : List Byte :=
  let b := bytesLE 4 h.logNext ++ bytesLE 1 x.cls ++ [0] ++ bytesLE 2 x.code ++ bytesLE 8 x.time ++ h.regBytes [(.GLB_STATE, 0)] ++
    bytesLE 2 (h.get F.CLK_WARMCNT_COUNT 0) ++ bytesLE 2 (min h.logLost 0xFFFF) ++ h.logData x ++ [0, 0, 0, 0]
  b ++ bytesLE 4 (crcOf crc32Params b)

/-- The service cores can write an event-log record: they run, and DRAM is trained (R408). -/
def Hw.logWrites (h : Hw) (lost : Bool) : Bool := h.boot.svcUp && !lost && h.on F.DDR_STAT_TRAINED 0

/-- LOG_RECORD_WRITE in the boot flash: the header of the boot-record area follows the copies (R410). -/
def NonVol.logWritten (v : NonVol) (h : Hw) (lost : Bool) : NonVol := if h.logWrites lost then v.recordsCopied h.logQ else v

/-- LOG_RECORD_WRITE: the service cores write the record of the oldest occurrence that waits, or, when that was not possible
within 10 ms, count it as lost (R408). -/
def Hw.logWrite (h : Hw) (lost : Bool) : Hw :=
  match h.logQ with
  | [] => h
  | x :: rest =>
    if !h.boot.svcUp then h
    else if lost || !h.on F.DDR_STAT_TRAINED 0 then
      if lost then { h with logQ := rest, logLost := h.logLost + 1 } else h
    else
      let h1 := h.putDram (logAt h.logNext) (h.logRecord x)
      { h1 with logQ := rest, logNext := h.logNext + 1, logLost := 0 }

end Sys2Proof.Machine
end

