-- ==== Sys2Proof/Machine/ExecAnalog.lean ====
section
/-! DEFINITION. The meanings of the commands of current-loop inputs and outputs. -/

namespace Sys2Proof.Machine

/-- CLI_VALUE_FORM: Channel `c` forms the value of CLI `n` from the converter codes of the last 1 ms (R281). -/
def execCliValueForm (c : Chan) (n : Fin 8) (codes : List Nat) (s : State) : Host.Outcome State Fault Refusal :=
  s.apply fun h => h.cliForm c n codes

/-- CLI_PATH_DISCREPANCY: The paths of CLI `n` have differed by more than 0.1 mA for 100 ms (R285). -/
def execCliDiscrepancy (n : Fin 8) (s : State) : Host.Outcome State Fault Refusal :=
  s.apply fun h => h.cliDiscrepancy n

/-- CLO_UPDATE: The 1 ms update of CLO `n` with its measured current in µA and its headroom in mV (R288). -/
def execCloUpdate (n : Fin 4) (meas : Nat) (headroom : Nat) (s : State) : Host.Outcome State Fault Refusal :=
  s.apply fun h => h.cloUpdate n meas headroom

/-- CLO_OPEN_FAULT: The current of CLO `n` has been below 0.5 mA for 20 ms (R288). -/
def execCloOpenFault (n : Fin 4) (s : State) : Host.Outcome State Fault Refusal :=
  s.apply fun h => h.cloOpenFault n

/-- CLO_COMPLIANCE_FAULT: The headroom of CLO `n` has been below 1.0 V for 50 ms (R289). -/
def execCloComplianceFault (n : Fin 4) (s : State) : Host.Outcome State Fault Refusal :=
  s.apply fun h => h.cloComplianceFault n

/-- CLO_READBACK_FAULT: The measured current of CLO `n` has deviated by more than 0.2 mA for 50 ms (R288). -/
def execCloReadbackFault (n : Fin 4) (s : State) : Host.Outcome State Fault Refusal :=
  s.apply fun h => h.cloReadbackFault n

/-- CLO_ENABLE: Master `m` writes `v` with EN = 1 to CLO_CTL of CLO `n` (R290). -/
def execCloEnable (m : Master) (n : Fin 4) (v : Word) (s : State) : Host.Outcome State Fault Refusal :=
  s.applyBus fun h nv => h.regWrite nv m .CLO_CTL n (v ||| 1)

/-- CLO_DISABLE: Master `m` writes `v` with EN = 0 to CLO_CTL of CLO `n` (R290). -/
def execCloDisable (m : Master) (n : Fin 4) (v : Word) (s : State) : Host.Outcome State Fault Refusal :=
  s.applyBus fun h nv => h.regWrite nv m .CLO_CTL n (v &&& ~~~1)

/-- CLO_FLT_CLR: Master `m` writes `v` with FLT_CLR = 1 to CLO_CTL of CLO `n` (R290). -/
def execCloFltClr (m : Master) (n : Fin 4) (v : Word) (s : State) : Host.Outcome State Fault Refusal :=
  s.applyBus fun h nv => h.regWrite nv m .CLO_CTL n (v ||| 2)

/-- CLO_RAMP_COMPLETE: The ramp-down of CLO `n` ends (R290). -/
def execCloRampComplete (n : Fin 4) (s : State) : Host.Outcome State Fault Refusal :=
  s.apply fun h => h.cloRampComplete n

end Sys2Proof.Machine
end

