-- ==== Sys2Proof/Machine/ExecBus.lean ====
section
/-! DEFINITION. The meanings of the commands of bus accesses. -/

namespace Sys2Proof.Machine

/-- REGISTER_WRITE: Master `m` writes the `size` low bytes of `v` at address `a` (R10, R11). -/
def execRegisterWrite (m : Master) (a : Nat) (size : Nat) (v : Nat) (s : State) : Host.Outcome State Fault Refusal :=
  s.applyBus fun h nv => h.busWrite nv m a size v

/-- UNLISTED_MASTER_ACCESS: Master `m` reads address `a`, or writes `v` there (`write`), without being listed for the
register (R14). -/
def execUnlistedAccess (m : Master) (a : Nat) (write : Bool) (v : Word) (s : State) : Host.Outcome State Fault Refusal :=
  s.applyBus fun h nv => if write then h.busWrite nv m a 4 v.toNat else h.busRead m a 4 .clean

/-- BAR0_UNMAPPED_ACCESS: Host software reads BAR0 offset `off`, or writes `v` there (`write`), outside every mapped range
(R33). -/
def execBar0Access (off : Nat) (write : Bool) (v : Word) (s : State) : Host.Outcome State Fault Refusal :=
  s.applyBus fun h nv => if write then h.busWrite nv idHost off 4 v.toNat else h.busRead idHost off 4 .clean

/-- RC_FIELD_READ: Master `m` reads at address `a`; `rd`: the size, and what a read of DRAM meets (R11, R42, R43, R47). -/
def execRcFieldRead (m : Master) (a : Nat) (rd : BusRead) (s : State) : Host.Outcome State Fault Refusal :=
  s.apply fun h => h.busRead m a rd.size rd.hit

/-- GLB_NOCLR_WRITE: Master `m` writes `v` to GLB_NOCLR (R43). -/
def execNoClrWrite (m : Master) (v : Word) (s : State) : Host.Outcome State Fault Refusal :=
  s.applyBus fun h nv => h.regWrite nv m .GLB_NOCLR 0 v

/-- LOCK_BIT_SET: Master `m` writes `v`, with a lock or CFGLK bit at 1, at address `a` (R503). -/
def execLockBitSet (m : Master) (a : Nat) (v : Word) (s : State) : Host.Outcome State Fault Refusal :=
  s.applyBus fun h nv => h.busWrite nv m a 4 v.toNat

end Sys2Proof.Machine
end

