-- ==== Sys2Proof/Machine/ExecClock.lean ====
section
/-! DEFINITION. The meanings of the commands of clocks, supplies and temperatures. -/

namespace Sys2Proof.Machine

/-- REFCLK_LOSS: REFCLK is lost, or PLL_MAIN loses lock (`pll`) (R477). -/
def execRefclkLoss (pll : Bool) (s : State) : Host.Outcome State Fault Refusal :=
  s.applyHold fun h _ => h.refclkLoss pll

/-- PLL_SER_LOSS: The PLL_SER of a quad loses lock (R477). -/
def execPllSerLoss (quad : Fin 4) (s : State) : Host.Outcome State Fault Refusal :=
  s.apply fun h => h.pllSerLoss quad

/-- PLL_DDR_LOSS: PLL_DDR loses lock (R477). -/
def execPllDdrLoss (s : State) : Host.Outcome State Fault Refusal :=
  s.apply fun h => h.pllDdrLoss

/-- PLL_DDR_RELOCK: PLL_DDR locks again (R477). -/
def execPllDdrRelock (s : State) : Host.Outcome State Fault Refusal :=
  s.apply fun h => h.pllDdrRelock

/-- XB_LOSS: XB fails, or the B-die's PLL (`pll`) (R477). -/
def execXbLoss (pll : Bool) (s : State) : Host.Outcome State Fault Refusal :=
  s.always fun h => h.xbLoss pll

/-- CLOCK_CHECK_WINDOW: A 1 ms window ends with `a` TIMEBASE ticks and `b` B_CLK cycles counted (R479). -/
def execClockWindow (a : Nat) (b : Nat) (s : State) : Host.Outcome State Fault Refusal :=
  s.applyHold fun h _ => h.clockWindow a b

/-- CLK_GATE_WRITE: Master `m` writes `v` to CLK_GATE (R480). -/
def execClkGateWrite (m : Master) (v : Word) (s : State) : Host.Outcome State Fault Refusal :=
  s.applyBus fun h nv => h.regWrite nv m .CLK_GATE 0 v

/-- VSYS_WARN: VSYS, or VSYS_B (`sideB`), measures `mv` and has been below 10.8 V for 1 ms (R481). -/
def execVsysWarn (sideB : Bool) (mv : Fin 65536) (s : State) : Host.Outcome State Fault Refusal :=
  s.apply fun h => h.vsysWarn sideB mv

/-- THERMAL_WARN: Temperature sensor `k` reads `t` sixteenths of a degree Celsius (R483). -/
def execThermalWarn (k : Fin 7) (t : Int) (s : State) : Host.Outcome State Fault Refusal :=
  s.apply fun h => h.thermalWarn k t

/-- THERMAL_WARN_REARM: The seven sensors read `ts`, 5 K below WARN (R483). -/
def execThermalRearm (ts : List Int) (s : State) : Host.Outcome State Fault Refusal :=
  s.apply fun h => h.thermalRearm ts

end Sys2Proof.Machine
end

