-- ==== Sys2Proof/Machine/ExecEnv.lean ====
section
/-! DEFINITION. The meanings of the commands of envelope loads. -/

namespace Sys2Proof.Machine

/-- ENV_LOAD_START: Master `m` writes `v` with START = 1 to CHK_ENV_CTL (R122). -/
def execEnvLoadStart (m : Master) (v : Word) (s : State) : Host.Outcome State Fault Refusal :=
  s.applyBus fun h nv => h.regWrite nv m .CHK_ENV_CTL 0 (v ||| 1)

/-- ENV_IMAGE_CHECKED: The loader finishes checking the image; `met`: the uncorrectable errors that its reads of the image
meet (R121, R124). -/
def execEnvImageChecked (met : ImageErrs) (s : State) : Host.Outcome State Fault Refusal :=
  s.apply fun h => h.envChecked met

/-- ENV_WRITE_DONE: The loader has written zone records and ceilings (R122). -/
def execEnvWriteDone (s : State) : Host.Outcome State Fault Refusal :=
  s.apply fun h => h.dosed (·.envWritten)

/-- ENV_DIGEST_DONE: The loader has computed the envelope digest (R123). -/
def execEnvDigestDone (s : State) : Host.Outcome State Fault Refusal :=
  s.apply fun h => h.dosed (·.envDigestDone)

/-- ENV_VERIFY_REPLY: The B-die's answer to an envelope digest arrives (R122). -/
def execEnvVerifyReply (s : State) : Host.Outcome State Fault Refusal :=
  s.apply fun h => h.envVerifyReply

/-- ENV_VERIFY_TIMEOUT: The B-die has not answered within 1 ms (R122). -/
def execEnvVerifyTimeout (s : State) : Host.Outcome State Fault Refusal :=
  s.apply fun h => h.envVerifyTimeout

/-- ENV_LOAD_RETRY: 1 s after a failed load of group `g`, channel A repeats it (R220). -/
def execEnvLoadRetry (g : Fin 16) (s : State) : Host.Outcome State Fault Refusal :=
  s.apply fun h => h.envRetry g

/-- BDIE_ENVELOPE_DIGEST_CHECK: The B-die receives an envelope digest and compares it (R122). -/
def execBEnvCheck (s : State) : Host.Outcome State Fault Refusal :=
  s.apply fun h => h.bEnvCheck

end Sys2Proof.Machine
end

