-- ==== Sys2Proof/Machine/ExecField.lean ====
section
/-! DEFINITION. The meanings of the commands of field links, digital inputs and test pulses. -/

namespace Sys2Proof.Machine

/-- FIELD_LINK_FRAME: Channel `c` receives a link frame of field die `d` (R22). -/
def execFieldLinkFrame (c : Chan) (d : Fin 2) (fr : FieldFrame) (s : State) : Host.Outcome State Fault Refusal :=
  s.apply fun h => h.fieldFrame c d fr

/-- FIELD_LINK_TIMEOUT: Channel `c` has had no valid frame of field die `d` for 100 µs (R22). -/
def execFieldLinkTimeout (c : Chan) (d : Fin 2) (s : State) : Host.Outcome State Fault Refusal :=
  s.apply fun h => h.fieldTimeout c d

/-- FIELD_LINK_RECOVERED: 100 consecutive valid frames of field die `d` end the error in channel `c` (R22). -/
def execFieldLinkRecovered (c : Chan) (d : Fin 2) (s : State) : Host.Outcome State Fault Refusal :=
  s.apply fun h => h.linkRecovered c d

/-- FIELD_DIE_COMMAND_FRAME: Field die `d` receives a command frame of channel `c` (R261). -/
def execCommandFrame (c : Chan) (d : Fin 2) (fr : CommandFrame) (s : State) : Host.Outcome State Fault Refusal :=
  s.apply fun h => h.commandFrame c d fr

/-- FIELD_DIE_LINK_ERROR: Field die `d` judges the link of channel `c` in error (R507). -/
def execDieLinkError (c : Chan) (d : Fin 2) (s : State) : Host.Outcome State Fault Refusal :=
  s.apply fun h => h.dieLinkError c d

/-- TPG_RUN: Master `m` writes `v` with RUN = 1 to TPG_CTL (R241). -/
def execTpgRun (m : Master) (v : Word) (s : State) : Host.Outcome State Fault Refusal :=
  s.applyBus fun h nv => h.regWrite nv m .TPG_CTL 0 (F.TPG_CTL_RUN.put v 1)

/-- TP_PERIOD_START: A test-pulse period starts (R241). -/
def execTpPeriodStart (s : State) : Host.Outcome State Fault Refusal :=
  s.apply fun h => h.tpPeriodStart

/-- TP_DETECTION: Slot 15 ends and channel `c` forms its findings (R244). -/
def execTpDetection (c : Chan) (s : State) : Host.Outcome State Fault Refusal :=
  s.apply fun h => h.tpDetection c

/-- TP_NOSYNC: Field die `d` has had no period marker for 2·P (R242). -/
def execTpNoSync (d : Fin 2) (s : State) : Host.Outcome State Fault Refusal :=
  s.apply fun h => h.tpNoSync d

/-- TP_OVERLOAD: Test-pulse source `j` has stood at its current limit for 5 ms (R238). -/
def execTpOverload (j : Fin 16) (s : State) : Host.Outcome State Fault Refusal :=
  s.apply fun h => h.tpOverload j

/-- TP_OVERLOAD_RETRY: Source `j` retries 1 s after its overload (R238). -/
def execTpOverloadRetry (j : Fin 16) (s : State) : Host.Outcome State Fault Refusal :=
  s.apply fun h => h.tpOverloadRetry j

/-- TEST_PULSE_BEGIN: The slot of source `j` begins (R240). -/
def execTestPulseBegin (j : Fin 16) (s : State) : Host.Outcome State Fault Refusal :=
  s.apply fun h => h.pulseBegin j

/-- TEST_PULSE_END: The pulse of source `j` ends (R240). -/
def execTestPulseEnd (j : Fin 16) (s : State) : Host.Outcome State Fault Refusal :=
  s.apply fun h => h.pulseEnd j

end Sys2Proof.Machine
end

