-- ==== Sys2Proof/Machine/ExecLane.lean ====
section
/-! DEFINITION. The meanings of the commands of slice lanes. -/

namespace Sys2Proof.Machine

/-- LANE_ENABLE: Master `m` writes `v` with EN = 1 to LANE_CTL of lane `n` (R79). -/
def execLaneEnable (m : Master) (n : Fin 16) (v : Word) (s : State) : Host.Outcome State Fault Refusal :=
  s.applyBus fun h nv => h.regWrite nv m .LANE_CTL n (v ||| 1)

/-- LANE_DISABLE: Master `m` writes `v` with EN = 0 to LANE_CTL of lane `n` (R79). -/
def execLaneDisable (m : Master) (n : Fin 16) (v : Word) (s : State) : Host.Outcome State Fault Refusal :=
  s.applyBus fun h nv => h.regWrite nv m .LANE_CTL n (v &&& ~~~1)

/-- LANE_RESET: Master `m` writes `v` with LRST = 1 to LANE_CTL of lane `n` (R82). -/
def execLaneReset (m : Master) (n : Fin 16) (v : Word) (s : State) : Host.Outcome State Fault Refusal :=
  s.applyBus fun h nv => h.regWrite nv m .LANE_CTL n (v ||| 2)

/-- LANE_BLOCK_LOCK_ACQUIRED: A receiver of lane `n` acquires block lock (R49). -/
def execBlockLockAcquired (n : Fin 16) (d : Dir) (s : State) : Host.Outcome State Fault Refusal :=
  s.apply fun h => h.when (h.quadOn n) fun h => (h.lockAcquired n d).setB F.CLK_STAT_SER_LOCK 0 true

/-- LANE_BLOCK_LOCK_LOST: A receiver of lane `n` loses block lock (R49). -/
def execBlockLockLost (n : Fin 16) (d : Dir) (s : State) : Host.Outcome State Fault Refusal :=
  s.apply fun h => h.lockLost n d

/-- CONTROL_BLOCK_UNKNOWN: A control block of unknown type arrives on lane `n`, `gap` blocks after the last invalid one (R49,
R51). -/
def execControlUnknown (n : Fin 16) (d : Dir) (gap : Nat) (s : State) : Host.Outcome State Fault Refusal :=
  s.apply fun h => h.unknownBlock n d gap

/-- TS_SEQUENCE_RECEIVED: 16 consecutive TS blocks have arrived on lane `n` (R54). -/
def execTsSequence (n : Fin 16) (d : Dir) (s : State) : Host.Outcome State Fault Refusal :=
  s.apply fun h => h.tsReceived n d

/-- CAP_RECEIVED: The peer's CAP arrives on lane `n` with its role code (R52). -/
def execCapReceived (n : Fin 16) (d : Dir) (cap : CapWord) (role : Fin 256) (s : State) : Host.Outcome State Fault Refusal :=
  s.apply fun h => h.capReceived n d cap role

/-- CAPACK_RECEIVED: The peer's CAPACK arrives on lane `n` (R54). -/
def execCapAckReceived (n : Fin 16) (d : Dir) (cap : CapWord) (s : State) : Host.Outcome State Fault Refusal :=
  s.apply fun h => h.capAckReceived n d cap

/-- TRAINING_ATTEMPT_TIMEOUT: A training attempt of lane `n` has not reached t4 within 5 ms (R55). -/
def execTrainingTimeout (n : Fin 16) (d : Dir) (s : State) : Host.Outcome State Fault Refusal :=
  s.apply fun h => h.trainingTimeout n d

/-- LINKDOWN_RECEIVED: The peer's LINKDOWN arrives on lane `n` (R79). -/
def execLinkDown (n : Fin 16) (d : Dir) (s : State) : Host.Outcome State Fault Refusal :=
  s.apply fun h => h.linkDownReceived n d

/-- INGRESS_FRAME: A frame arrives between SOF and EOF on lane `n` (R60, R72). -/
def execIngressFrame (n : Fin 16) (rx : RxFrame) (s : State) : Host.Outcome State Fault Refusal :=
  s.apply fun h => h.ingressFrame n rx.bytes rx.early

/-- LANE_ERRLIM_FAULT: The frame errors of lane `n` in 1 s exceed ERRLIM (R65). -/
def execLaneErrlim (n : Fin 16) (s : State) : Host.Outcome State Fault Refusal :=
  s.apply fun h => h.errlimFault n

/-- SEGMENT_SUBMIT: The oldest accepted frame of lane `n` is submitted if a pool entry and a reorder entry are free (R66). -/
def execSegmentSubmit (n : Fin 16) (s : State) : Host.Outcome State Fault Refusal :=
  s.apply fun h => h.segmentSubmit n

/-- SLOT_START: The slot timer of engine `n` expires (R108). -/
def execSlotStart (n : Fin 16) (s : State) : Host.Outcome State Fault Refusal :=
  s.apply fun h => h.slotStart n

/-- EGRESS_CREDIT_RECEIVED: The driver board of lane `n` grants `k` credits (R77). -/
def execEgressCredit (n : Fin 16) (k : Nat) (s : State) : Host.Outcome State Fault Refusal :=
  s.apply fun h => h.egressCredit n k

/-- EGRESS_FRAME_SEND: The next released segment of lane `n` is sent if a credit is held (R74). -/
def execEgressSend (n : Fin 16) (s : State) : Host.Outcome State Fault Refusal :=
  s.apply fun h => h.egressSend n

/-- EGRESS_CREDIT_STALL: A released segment of lane `n` has waited longer than STALL for a credit (R77). -/
def execEgressStall (n : Fin 16) (s : State) : Host.Outcome State Fault Refusal :=
  s.apply fun h => h.egressStall n

/-- LANE_DRAIN_COMPLETE: The drain of lane `n` ends (R80). -/
def execDrainComplete (n : Fin 16) (s : State) : Host.Outcome State Fault Refusal :=
  s.apply fun h => h.drainComplete n

end Sys2Proof.Machine
end

