-- ==== Sys2Proof/Machine/ExecLedger.lean ====
section
/-! DEFINITION. The meanings of the commands of the exposure ledger. -/

namespace Sys2Proof.Machine

/-- LEDGER_CLOSE_TIMEOUT: Open entry `lseq` has had no recorded segment for CLOSE_TO ms (R163). -/
def execLedgerTimeout (lseq : Nat) (s : State) : Host.Outcome State Fault Refusal :=
  s.apply fun h => h.ledgerTimeout lseq

/-- LEDGER_HEADER_WRITTEN: The header of the oldest entry is written; `met`: the errors that reading its records meets (R47,
R164). -/
def execLedgerHeader (met : DramMet) (s : State) : Host.Outcome State Fault Refusal :=
  s.apply fun h => h.headerWritten met

/-- LEDGER_CHECKPOINT_SIGNED: The checkpoint signature completes (R167). -/
def execCheckpointSigned (s : State) : Host.Outcome State Fault Refusal :=
  s.apply fun h => h.ledgerSigned

/-- LDG_CTL_EN_WRITE: Master `m` writes `v` to LDG_CTL (R167). -/
def execLdgCtlWrite (m : Master) (v : Word) (s : State) : Host.Outcome State Fault Refusal :=
  s.applyBus fun h nv => h.regWrite nv m .LDG_CTL 0 v

/-- LDG_RDSEQ_LO_WRITE: Master `m` writes `v` to LDG_RDSEQ_LO (R173). -/
def execLdgRdSeqLo (m : Master) (v : Word) (s : State) : Host.Outcome State Fault Refusal :=
  s.applyBus fun h nv => h.regWrite nv m .LDG_RDSEQ_LO 0 v

/-- LDG_RDSEQ_HI_WRITE: Master `m` writes `v` to LDG_RDSEQ_HI (R171). -/
def execLdgRdSeqHi (m : Master) (v : Word) (s : State) : Host.Outcome State Fault Refusal :=
  s.applyBus fun h nv => h.regWrite nv m .LDG_RDSEQ_HI 0 v

end Sys2Proof.Machine
end

