-- ==== Sys2Proof/Machine/ExecMsg.lean ====
section
/-! DEFINITION. The meanings of the commands of mailboxes, semaphores, events and queues. -/

namespace Sys2Proof.Machine

/-- MBX_BIND_WRITE: Master `m` writes `v` to MBX_BIND of channel `ch` (R361). -/
def execMbxBindWrite (m : Master) (ch : Fin 32) (v : Word) (s : State) : Host.Outcome State Fault Refusal :=
  s.applyBus fun h nv => h.regWrite nv m .MBX_BIND ch v

/-- MBX_MSG_WRITE: Master `m` writes message word `k` of channel `ch` (R365). -/
def execMbxMsgWrite (m : Master) (ch : Fin 32) (k : Fin 8) (v : Word) (s : State) : Host.Outcome State Fault Refusal :=
  s.applyBus fun h nv => h.regWrite nv m .MBX_MSG (8 * ch + k) v

/-- MBX_SEND: Master `m` writes `v` to MBX_SEND of channel `ch` (R364). -/
def execMbxSend (m : Master) (ch : Fin 32) (v : Word) (s : State) : Host.Outcome State Fault Refusal :=
  s.applyBus fun h nv => h.regWrite nv m .MBX_SEND ch v

/-- MBX_TAKE: Master `m` reads MBX_TAKE of channel `ch` (R366). -/
def execMbxTake (m : Master) (ch : Fin 32) (s : State) : Host.Outcome State Fault Refusal :=
  s.apply fun h => h.regRead m .MBX_TAKE ch

/-- SEMAPHORE_ACQUIRE: Master `m` reads MBX_SEM`n` (R371). -/
def execSemAcquire (m : Master) (n : Fin 32) (s : State) : Host.Outcome State Fault Refusal :=
  s.apply fun h => h.regRead m .MBX_SEM n

/-- SEMAPHORE_RELEASE: Master `m` writes `v` with REL = 1 to MBX_SEM`n` (R373). -/
def execSemRelease (m : Master) (n : Fin 32) (v : Word) (s : State) : Host.Outcome State Fault Refusal :=
  s.applyBus fun h nv => h.regWrite nv m .MBX_SEM n (v ||| 65536)

/-- EVENT_FIRE: Event source `e` fires (R375). -/
def execEventFire (e : Fin 128) (s : State) : Host.Outcome State Fault Refusal :=
  s.apply fun h => h.raise e

/-- MSIX_SEND: The next MSI-X message is sent; `off`: PCI Express has the function masked or MSI-X disabled (R376). -/
def execMsixSend (off : Bool) (s : State) : Host.Outcome State Fault Refusal :=
  s.apply fun h => h.msixSend off

/-- EVT_ROUTE_WRITE: Master `m` writes `v` to EVT_ROUTE of event `e` (R377). -/
def execEvtRouteWrite (m : Master) (e : Fin 128) (v : Word) (s : State) : Host.Outcome State Fault Refusal :=
  s.applyBus fun h nv => h.regWrite nv m .EVT_ROUTE e v

/-- EVT_PEND_CLEAR: Master `m` writes `v` to word `w` of EVT_PEND (R377). -/
def execEvtPendClear (m : Master) (w : Fin 4) (v : Word) (s : State) : Host.Outcome State Fault Refusal :=
  s.applyBus fun h nv => h.regWrite nv m .EVT_PEND w v

/-- SQ_DOORBELL: Master `m` writes the SQ tail `v` of queue `q` (R379). -/
def execSqDoorbellRow (m : Master) (q : Fin 16) (v : Word) (s : State) : Host.Outcome State Fault Refusal :=
  s.applyBus fun h _ => h.doorbell m q true v

/-- CQ_DOORBELL: Master `m` writes the CQ head `v` of queue `q` (R379). -/
def execCqDoorbellRow (m : Master) (q : Fin 16) (v : Word) (s : State) : Host.Outcome State Fault Refusal :=
  s.applyBus fun h _ => h.doorbell m q false v

/-- SQ_FETCH: The DMA engine fetches `packet` from the SQ of the queue that takes the grant (R380). -/
def execSqFetch (packet : List Byte) (s : State) : Host.Outcome State Fault Refusal :=
  s.apply fun h => h.ncpFetch packet

/-- QUEUE_ENABLE: Master `m` writes `v` with EN = 1 to QUE_CTL of queue `q` (R383). -/
def execQueueEnable (m : Master) (q : Fin 16) (v : Word) (s : State) : Host.Outcome State Fault Refusal :=
  s.applyBus fun h nv => h.regWrite nv m .QUE_CTL q (v ||| 1)

/-- QUEUE_DISABLE: Master `m` writes `v` with EN = 0 to QUE_CTL of queue `q` (R383). -/
def execQueueDisable (m : Master) (q : Fin 16) (v : Word) (s : State) : Host.Outcome State Fault Refusal :=
  s.applyBus fun h nv => h.regWrite nv m .QUE_CTL q (v &&& ~~~1)

/-- QUEUE_DRAINED: Queue `q` shutting down holds no command any more (R383). -/
def execQueueDrained (q : Fin 16) (s : State) : Host.Outcome State Fault Refusal :=
  s.apply fun h => h.qDrained q

/-- QUEUE_TRANSFER_ERROR: A fetch, or a CQ write (`write`), of queue `q` meets an error completion (R384). -/
def execQueueTransferError (q : Fin 16) (write : Bool) (s : State) : Host.Outcome State Fault Refusal :=
  s.apply fun h => h.qError q write

end Sys2Proof.Machine
end

