-- ==== Sys2Proof/Machine/ExecNcp.lean ====
section
/-! DEFINITION. The meanings of the commands of the Naliz Command Protocol, the event log and the PCI Express link. -/

namespace Sys2Proof.Machine

/-- NOP: NCP NOP (R386). Command `k` of the outstanding commands of queue `q`. -/
def execNop (q : Fin 16) (k : Nat) (s : State) : Host.Outcome State Fault Refusal :=
  s.apply fun h => h.ncpNop q k

/-- OPEN_SESSION: OPEN_SESSION (R390). Command `k` of the outstanding commands of queue `q`. -/
def execOpenSession (q : Fin 16) (k : Nat) (s : State) : Host.Outcome State Fault Refusal :=
  s.apply fun h => h.ncpOpen q k

/-- CLOSE_SESSION: CLOSE_SESSION (R394). Command `k` of the outstanding commands of queue `q`. -/
def execCloseSession (q : Fin 16) (k : Nat) (s : State) : Host.Outcome State Fault Refusal :=
  s.apply fun h => h.ncpClose q k

/-- DEVICE_RESET: DEVICE_RESET (R406). Command `k` of the outstanding commands of queue `q`. -/
def execDeviceReset (q : Fin 16) (k : Nat) (s : State) : Host.Outcome State Fault Refusal :=
  s.apply fun h => h.ncpReset q k

/-- DEVICE_INFO: DEVICE_INFO. Command `k` of the outstanding commands of queue `q`. -/
def execDeviceInfo (q : Fin 16) (k : Nat) (io : NcpIo) (s : State) : Host.Outcome State Fault Refusal :=
  s.apply fun h => h.ncpInfo q k io

/-- STATE_READ: STATE_READ. Command `k` of the outstanding commands of queue `q`. -/
def execStateRead (q : Fin 16) (k : Nat) (s : State) : Host.Outcome State Fault Refusal :=
  s.apply fun h => h.ncpState q k

/-- STAGE_WRITE: STAGE_WRITE with the host data in `io` (R389). Command `k` of the outstanding commands of queue `q`. -/
def execStageWrite (q : Fin 16) (k : Nat) (io : NcpIo) (s : State) : Host.Outcome State Fault Refusal :=
  s.apply fun h => h.ncpStage q k io

/-- CFG_VERIFY: CFG_VERIFY (R455). Command `k` of the outstanding commands of queue `q`. -/
def execCfgVerify (q : Fin 16) (k : Nat) (io : NcpIo) (s : State) : Host.Outcome State Fault Refusal :=
  s.apply fun h => h.ncpCfgVerify q k io

/-- CFG_INSTALL: CFG_INSTALL (R457). Command `k` of the outstanding commands of queue `q`. -/
def execCfgInstall (q : Fin 16) (k : Nat) (io : NcpIo) (s : State) : Host.Outcome State Fault Refusal :=
  s.applyNv fun h nv => (h.ncpCfgInstall q k io, nv.cfgInstall h q k io)

/-- CFG_COMMISSION: CFG_COMMISSION with the signature in `io` and COMM_N low or not (R403). Command `k` of the outstanding
commands of queue `q`. -/
def execCfgCommission (q : Fin 16) (k : Nat) (io : NcpIo) (commLow : Bool) (s : State) : Host.Outcome State Fault Refusal :=
  s.applyBus fun h nv => h.ncpCommission nv q k io commLow

/-- CFG_SLOTS_READ: CFG_SLOTS_READ (R403). Command `k` of the outstanding commands of queue `q`. -/
def execCfgSlotsRead (q : Fin 16) (k : Nat) (io : NcpIo) (s : State) : Host.Outcome State Fault Refusal :=
  s.applyBus fun h nv => h.ncpSlots nv q k io

/-- TRIAL_RUN: TRIAL_RUN (R405). Command `k` of the outstanding commands of queue `q`. -/
def execTrialRun (q : Fin 16) (k : Nat) (s : State) : Host.Outcome State Fault Refusal :=
  s.applyNv fun h nv => (h.ncpTrial q k, nv.trialRun h q k)

/-- OTP_READ: OTP_READ (R404). Command `k` of the outstanding commands of queue `q`. -/
def execOtpRead (q : Fin 16) (k : Nat) (io : NcpIo) (s : State) : Host.Outcome State Fault Refusal :=
  s.applyBus fun h nv => h.ncpOtpRead nv q k io

/-- OTP_USR_WRITE: OTP_USR_WRITE (R440). Command `k` of the outstanding commands of queue `q`. -/
def execOtpUsrWrite (q : Fin 16) (k : Nat) (s : State) : Host.Outcome State Fault Refusal :=
  s.applyBus fun h nv => h.ncpUsrWrite nv q k

/-- OTP_FINALISE: OTP_FINALISE (R404). Command `k` of the outstanding commands of queue `q`. -/
def execOtpFinalise (q : Fin 16) (k : Nat) (s : State) : Host.Outcome State Fault Refusal :=
  s.applyBus fun h nv => h.ncpFinalise nv q k

/-- LANE_SERVICE: LANE_SERVICE (R401). Command `k` of the outstanding commands of queue `q`. -/
def execLaneService (q : Fin 16) (k : Nat) (s : State) : Host.Outcome State Fault Refusal :=
  s.apply fun h => h.ncpLane q k

/-- LANE_STATUS_READ: LANE_STATUS_READ. Command `k` of the outstanding commands of queue `q`. -/
def execLaneStatusRead (q : Fin 16) (k : Nat) (io : NcpIo) (s : State) : Host.Outcome State Fault Refusal :=
  s.apply fun h => h.ncpLaneStatus q k io

/-- ENV_SELECT: ENV_SELECT; `timeout`: no ENV_REPLY within 2·T_C + 20 µs (R402). Command `k` of the outstanding commands of
queue `q`. -/
def execEnvSelect (q : Fin 16) (k : Nat) (timeout : Bool) (s : State) : Host.Outcome State Fault Refusal :=
  s.apply fun h => h.ncpEnvSelect q k timeout

/-- ENV_STATUS_READ: ENV_STATUS_READ. Command `k` of the outstanding commands of queue `q`. -/
def execEnvStatusRead (q : Fin 16) (k : Nat) (s : State) : Host.Outcome State Fault Refusal :=
  s.apply fun h => h.ncpEnvStatus q k

/-- ZONE_STATUS_READ: ZONE_STATUS_READ. Command `k` of the outstanding commands of queue `q`. -/
def execZoneStatusRead (q : Fin 16) (k : Nat) (io : NcpIo) (s : State) : Host.Outcome State Fault Refusal :=
  s.apply fun h => h.ncpZones q k io

/-- CHK_SELFTEST: CHK_SELFTEST (R104). Command `k` of the outstanding commands of queue `q`. -/
def execChkSelftest (q : Fin 16) (k : Nat) (s : State) : Host.Outcome State Fault Refusal :=
  s.apply fun h => h.ncpSelftest q k

/-- SAFETY_STATUS_READ: SAFETY_STATUS_READ. Command `k` of the outstanding commands of queue `q`. -/
def execSafetyStatusRead (q : Fin 16) (k : Nat) (io : NcpIo) (s : State) : Host.Outcome State Fault Refusal :=
  s.apply fun h => h.ncpSafety q k io

/-- SAFETY_TIMING_READ: SAFETY_TIMING_READ (R300). Command `k` of the outstanding commands of queue `q`. -/
def execSafetyTimingRead (q : Fin 16) (k : Nat) (io : NcpIo) (s : State) : Host.Outcome State Fault Refusal :=
  s.apply fun h => h.ncpTiming q k io

/-- EXCHANGE_STATUS_READ: EXCHANGE_STATUS_READ. Command `k` of the outstanding commands of queue `q`. -/
def execExchangeStatusRead (q : Fin 16) (k : Nat) (io : NcpIo) (s : State) : Host.Outcome State Fault Refusal :=
  s.apply fun h => h.ncpExchange q k io

/-- DQ_SET: DQ_SET (R267). Command `k` of the outstanding commands of queue `q`. -/
def execDqSet (q : Fin 16) (k : Nat) (s : State) : Host.Outcome State Fault Refusal :=
  s.apply fun h => h.ncpDq q k

/-- CLO_SET: CLO_SET (R290). Command `k` of the outstanding commands of queue `q`. -/
def execCloSet (q : Fin 16) (k : Nat) (s : State) : Host.Outcome State Fault Refusal :=
  s.apply fun h => h.ncpClo q k

/-- IO_READ: IO_READ. Command `k` of the outstanding commands of queue `q`. -/
def execIoRead (q : Fin 16) (k : Nat) (io : NcpIo) (s : State) : Host.Outcome State Fault Refusal :=
  s.apply fun h => h.ncpIo q k io

/-- LEDGER_STATUS: LEDGER_STATUS (R407). Command `k` of the outstanding commands of queue `q`. -/
def execLedgerStatus (q : Fin 16) (k : Nat) (io : NcpIo) (s : State) : Host.Outcome State Fault Refusal :=
  s.apply fun h => h.ncpLedgerStatus q k io

/-- LEDGER_READ: LEDGER_READ (R407). Command `k` of the outstanding commands of queue `q`. -/
def execLedgerRead (q : Fin 16) (k : Nat) (io : NcpIo) (s : State) : Host.Outcome State Fault Refusal :=
  s.apply fun h => h.ncpLedgerRead q k io

/-- LEDGER_ACK: LEDGER_ACK (R171, R407). Command `k` of the outstanding commands of queue `q`. -/
def execLedgerAck (q : Fin 16) (k : Nat) (s : State) : Host.Outcome State Fault Refusal :=
  s.apply fun h => h.ncpLedgerAck q k

/-- FW_VERIFY: FW_VERIFY (R455). Command `k` of the outstanding commands of queue `q`. -/
def execFwVerify (q : Fin 16) (k : Nat) (io : NcpIo) (s : State) : Host.Outcome State Fault Refusal :=
  s.apply fun h => h.ncpFwVerify q k io

/-- FW_INSTALL: FW_INSTALL (R456). Command `k` of the outstanding commands of queue `q`. -/
def execFwInstall (q : Fin 16) (k : Nat) (io : NcpIo) (s : State) : Host.Outcome State Fault Refusal :=
  s.applyNv fun h nv => (h.ncpFwInstall q k io, nv.fwInstall h q k io)

/-- FW_STATUS: FW_STATUS. Command `k` of the outstanding commands of queue `q`. -/
def execFwStatus (q : Fin 16) (k : Nat) (s : State) : Host.Outcome State Fault Refusal :=
  s.applyBus fun h nv => h.ncpFwStatus nv q k

/-- ATTEST_IDENTITY: ATTEST_IDENTITY (R451). Command `k` of the outstanding commands of queue `q`. -/
def execAttestIdentity (q : Fin 16) (k : Nat) (io : NcpIo) (s : State) : Host.Outcome State Fault Refusal :=
  s.apply fun h => h.ncpIdentity q k io

/-- ATTEST_REPORT: ATTEST_REPORT (R459). Command `k` of the outstanding commands of queue `q`. -/
def execAttestReport (q : Fin 16) (k : Nat) (io : NcpIo) (s : State) : Host.Outcome State Fault Refusal :=
  s.apply fun h => h.ncpAttest q k io

/-- LOG_STATUS: LOG_STATUS (R408). Command `k` of the outstanding commands of queue `q`. -/
def execLogStatus (q : Fin 16) (k : Nat) (s : State) : Host.Outcome State Fault Refusal :=
  s.apply fun h => h.ncpLogStatus q k

/-- LOG_READ: LOG_READ (R409). Command `k` of the outstanding commands of queue `q`. -/
def execLogRead (q : Fin 16) (k : Nat) (io : NcpIo) (s : State) : Host.Outcome State Fault Refusal :=
  s.apply fun h => h.ncpLogRead q k io

/-- EVT_ROUTE_SET: EVT_ROUTE_SET (R377). Command `k` of the outstanding commands of queue `q`. -/
def execEvtRouteSet (q : Fin 16) (k : Nat) (s : State) : Host.Outcome State Fault Refusal :=
  s.apply fun h => h.ncpRoute q k

/-- ACCESS_VIOL_READ: ACCESS_VIOL_READ. Command `k` of the outstanding commands of queue `q`. -/
def execAccessViolRead (q : Fin 16) (k : Nat) (s : State) : Host.Outcome State Fault Refusal :=
  s.apply fun h => h.ncpViol q k

/-- LOG_RECORD_WRITE: The service cores write the next event-log record, or could not write it within 10 ms (`lost`) (R408). -/
def execLogRecordWrite (lost : Bool) (s : State) : Host.Outcome State Fault Refusal :=
  s.applyNv fun h nv => (h.logWrite lost, nv.logWritten h lost)

/-- PCIE_LINK_LOSS: The PCI Express link is lost (R394). -/
def execPcieLinkLoss (s : State) : Host.Outcome State Fault Refusal :=
  s.always fun h => h.linkLost

/-- PERST: PERST_N resets the PCI Express endpoint (R475). -/
def execPerst (s : State) : Host.Outcome State Fault Refusal :=
  s.always fun h => h.perst

/-- PCIE_LINK_UP: The PCI Express link comes up (R475). -/
def execPcieLinkUp (s : State) : Host.Outcome State Fault Refusal :=
  s.always fun h => h.updBoot fun b => { b with pcieUp := true }

end Sys2Proof.Machine
end

