-- ==== Sys2Proof/Machine/ExecNps.lean ====
section
/-! DEFINITION. The meanings of the commands of the peer link. -/

namespace Sys2Proof.Machine

/-- NPS_CONNECTION_BOUNDARY: A connection boundary of peer `p` (R415). -/
def execNpsBoundary (p : Fin 16) (s : State) : Host.Outcome State Fault Refusal :=
  s.apply fun h => h.npsBoundary p

/-- NPS_FRAME_SEND: The A-die completes and sends the frame of peer `p`; `late`: its fields came too late (R415). -/
def execNpsFrameSend (p : Fin 16) (late : Bool) (s : State) : Host.Outcome State Fault Refusal :=
  s.apply fun h => h.npsSend p late

/-- NPS_FRAME_FORWARD: The A-die forwards the received Ethernet frame `bytes` to the B-die (R419). -/
def execNpsForward (bytes : List Byte) (s : State) : Host.Outcome State Fault Refusal :=
  s.apply fun h => h.npsForward bytes

/-- NPS_CONN_RECEIVED: Channel `c` takes a CONN (R427) of peer `p`: the Ethernet frame `bytes` in channel A, the next
forwarded one in channel B. -/
def execNpsConnReceived (c : Chan) (p : Fin 16) (bytes : List Byte) (s : State) : Host.Outcome State Fault Refusal :=
  s.apply fun h => h.npsConn c p bytes

/-- NPS_CONNACK_RECEIVED: Channel `c` takes a CONNACK (R426) of peer `p`: the Ethernet frame `bytes` in channel A, the next
forwarded one in channel B. -/
def execNpsConnackReceived (c : Chan) (p : Fin 16) (bytes : List Byte) (s : State) : Host.Outcome State Fault Refusal :=
  s.apply fun h => h.npsConnack c p bytes

/-- NPS_DATA_RECEIVED: Channel `c` takes a DATA frame (R420) of peer `p`: the Ethernet frame `bytes` in channel A, the next
forwarded one in channel B. -/
def execNpsDataReceived (c : Chan) (p : Fin 16) (bytes : List Byte) (s : State) : Host.Outcome State Fault Refusal :=
  s.apply fun h => h.npsData c p bytes

/-- NPS_CLOSE_RECEIVED: Channel `c` takes a CLOSE (R426) of peer `p`: the Ethernet frame `bytes` in channel A, the next
forwarded one in channel B. -/
def execNpsCloseReceived (c : Chan) (p : Fin 16) (bytes : List Byte) (s : State) : Host.Outcome State Fault Refusal :=
  s.apply fun h => h.npsClose c p bytes

/-- NPS_WATCHDOG_EXPIRY: The watchdog of peer `p` expires in channel `c` (R424). -/
def execNpsWatchdog (c : Chan) (p : Fin 16) (s : State) : Host.Outcome State Fault Refusal :=
  s.apply fun h => h.npsWatchdog c p

end Sys2Proof.Machine
end

