-- ==== Sys2Proof/Machine/ExecOtp.lean ====
section
/-! DEFINITION. The meanings of the commands of the fuse array. -/

namespace Sys2Proof.Machine

/-- OTP_CMD_PROGRAM: Master `m` writes `v` with OP = PROGRAM (R441) to OTP_CMD. -/
def execOtpProgram (m : Master) (v : Word) (s : State) : Host.Outcome State Fault Refusal :=
  s.applyBus fun h nv => h.regWrite nv m .OTP_CMD 0 (withOp v 1)

/-- OTP_CMD_FINALISE: Master `m` writes `v` with OP = FINALISE (R442) to OTP_CMD. -/
def execOtpCmdFinalise (m : Master) (v : Word) (s : State) : Host.Outcome State Fault Refusal :=
  s.applyBus fun h nv => h.regWrite nv m .OTP_CMD 0 (withOp v 2)

/-- OTP_CMD_RESCAN: Master `m` writes `v` with OP = RESCAN (R436) to OTP_CMD. -/
def execOtpRescan (m : Master) (v : Word) (s : State) : Host.Outcome State Fault Refusal :=
  s.applyBus fun h nv => h.regWrite nv m .OTP_CMD 0 (withOp v 3)

/-- OTP_CMD_KEYGEN: Master `m` writes `v` with OP = KEYGEN (R450) to OTP_CMD. -/
def execOtpKeygen (m : Master) (v : Word) (s : State) : Host.Outcome State Fault Refusal :=
  s.applyBus fun h nv => h.regWrite nv m .OTP_CMD 0 (withOp v 4)

/-- OTP_CMD_LC_ADVANCE: Master `m` writes `v` with OP = LC_ADVANCE (R447) to OTP_CMD. -/
def execOtpLcAdvance (m : Master) (v : Word) (s : State) : Host.Outcome State Fault Refusal :=
  s.applyBus fun h nv => h.regWrite nv m .OTP_CMD 0 (withOp v 5)

/-- OTP_CMD_RBK_ADVANCE: Master `m` writes `v` with OP = RBK_ADVANCE (R440) to OTP_CMD. -/
def execOtpRbkAdvance (m : Master) (v : Word) (s : State) : Host.Outcome State Fault Refusal :=
  s.applyBus fun h nv => h.regWrite nv m .OTP_CMD 0 (withOp v 6)

/-- OTP_CMD_COMMISSION: Master `m` writes `v` with OP = COMMISSION to OTP_CMD, with COMM_N low or not (R445). -/
def execOtpCommission (m : Master) (v : Word) (commLow : Bool) (s : State) : Host.Outcome State Fault Refusal :=
  s.applyBus fun h nv => (h.updBoot fun b => { b with commLow := commLow }).regWrite nv m .OTP_CMD 0 (withOp v 7)

/-- OTP_OPERATION_DONE: The running OTP operation ends; `devs`: the copies that stay unburned, or what a RESCAN reads
otherwise (R440, R441). -/
def execOtpDone (devs : List Deviation) (s : State) : Host.Outcome State Fault Refusal :=
  s.applyNv fun h nv => ((h.otpDone nv devs).afterOtp, nv.otpDone h devs)

/-- OTP_HOLDREL: Master `m` writes `v` with HOLDREL = 1 to OTP_CTL (R439). -/
def execOtpHoldRel (m : Master) (v : Word) (s : State) : Host.Outcome State Fault Refusal :=
  s.applyBus fun h nv => h.regWrite nv m .OTP_CTL 0 (v ||| 2)

end Sys2Proof.Machine
end

