-- ==== Sys2Proof/Machine/ExecOutputs.lean ====
section
/-! DEFINITION. The meanings of the commands of safe and standard outputs. -/

namespace Sys2Proof.Machine

/-- SO_READBACK_FAULT: P_RB (`high`) or M_RB of SO pair `n` has differed for 1 ms (R256). -/
def execSoReadback (n : Fin 16) (high : Bool) (s : State) : Host.Outcome State Fault Refusal :=
  s.apply fun h => h.soReadback n high

/-- CHANNEL_READBACK_MISMATCH: The own switch of channel `c` in SO pair `n` has read back wrongly for 2 ms (R258). -/
def execChannelMismatch (c : Chan) (n : Fin 16) (s : State) : Host.Outcome State Fault Refusal :=
  s.apply fun h => h.channelMismatch c n

/-- SO_OFF_PULSE: The scheduled off-pulse of a switch of SO pair `n` begins (R259). -/
def execSoOffPulse (n : Fin 16) (high : Bool) (s : State) : Host.Outcome State Fault Refusal :=
  s.apply fun h => h.offPulse n high

/-- SO_OFF_PULSE_END: The off-pulse ends; its last readback sample is `rb` (R260). -/
def execSoOffPulseEnd (n : Fin 16) (high : Bool) (rb : Bool) (s : State) : Host.Outcome State Fault Refusal :=
  s.apply fun h => h.offPulseEnd n high rb

/-- DEMAGNETISATION_COMPLETE: The demagnetisation of an output completes (R271). -/
def execDemagComplete (w : OutSw) (s : State) : Host.Outcome State Fault Refusal :=
  s.apply fun h => h.demagComplete w

/-- DEMAG_TIMEOUT: SO pair `n` has been in SHUTTING_DOWN for 200 ms (R261). -/
def execDemagTimeout (n : Fin 16) (s : State) : Host.Outcome State Fault Refusal :=
  s.apply fun h => h.demagTimeout n

/-- OUTPUT_OVERLOAD: A switch has stood at its current limit for 5 ms (R269). -/
def execOutputOverload (w : OutSw) (s : State) : Host.Outcome State Fault Refusal :=
  s.apply fun h => h.overload w

/-- OUTPUT_OVERTEMP: A switch reaches its temperature threshold (R270). -/
def execOutputOvertemp (w : OutSw) (s : State) : Host.Outcome State Fault Refusal :=
  s.apply fun h => h.overtemp w

/-- OUTPUT_COOLED: A hot switch falls below its restart threshold (R270). -/
def execOutputCooled (w : OutSw) (s : State) : Host.Outcome State Fault Refusal :=
  s.apply fun h => h.cooled w

/-- DQ_ENABLE: Master `m` writes `v` with EN = 1 to DQ_CTL of DQ `n` (R267). -/
def execDqEnable (m : Master) (n : Fin 16) (v : Word) (s : State) : Host.Outcome State Fault Refusal :=
  s.applyBus fun h nv => h.regWrite nv m .DQ_CTL n (v ||| 1)

/-- DQ_DISABLE: Master `m` writes `v` with EN = 0 to DQ_CTL of DQ `n` (R267). -/
def execDqDisable (m : Master) (n : Fin 16) (v : Word) (s : State) : Host.Outcome State Fault Refusal :=
  s.applyBus fun h nv => h.regWrite nv m .DQ_CTL n (v &&& ~~~1)

/-- DQ_FLT_CLR: Master `m` writes `v` with FLT_CLR = 1 to DQ_CTL of DQ `n` (R267). -/
def execDqFltClr (m : Master) (n : Fin 16) (v : Word) (s : State) : Host.Outcome State Fault Refusal :=
  s.applyBus fun h nv => h.regWrite nv m .DQ_CTL n (v ||| 2)

/-- DQ_READBACK_FAULT: The readback of DQ `n` has differed for 2 ms (R266). -/
def execDqReadback (n : Fin 16) (s : State) : Host.Outcome State Fault Refusal :=
  s.apply fun h => h.dqReadback n

end Sys2Proof.Machine
end

