-- ==== Sys2Proof/Machine/ExecPod.lean ====
section
/-! DEFINITION. The meanings of the commands of Pods. -/

namespace Sys2Proof.Machine

/-- POD_MISMATCH: Both comparators of Pod `p` report Differ at bundle bit `b` (R305). -/
def execPodMismatch (p : Fin 6) (b : Fin 256) (addr : Word) (s : State) : Host.Outcome State Fault Refusal :=
  s.apply fun h => h.podMismatch p b addr.toNat

/-- COMPARATOR_FAULT: One comparator of Pod `p` reports Differ (R305). -/
def execComparatorFault (p : Fin 6) (b : Fin 256) (addr : Word) (s : State) : Host.Outcome State Fault Refusal :=
  s.apply fun h => h.comparatorFault p b addr.toNat

/-- INJECTION_TEST: The comparators of Pod `p` answer `c0` and `c1` to the injected bit (R306). -/
def execInjectionTest (p : Fin 6) (c0 : Bool) (c1 : Bool) (s : State) : Host.Outcome State Fault Refusal :=
  s.apply fun h => h.injectionTest p c0 c1

/-- POD_RESET_DONE: The reset of Pod `p` ends (R319). -/
def execPodResetDone (p : Fin 6) (s : State) : Host.Outcome State Fault Refusal :=
  s.apply fun h => h.podResetDone p

/-- REJOIN_PASS_DONE: A copy pass of the rejoin of Pod `p` completes (R320). -/
def execRejoinPassDone (p : Fin 6) (s : State) : Host.Outcome State Fault Refusal :=
  s.apply fun h => h.rejoinPassDone p

/-- REJOIN_COMPLETE: The final copy of the rejoin of Pod `p` ends (R320). -/
def execRejoinComplete (p : Fin 6) (s : State) : Host.Outcome State Fault Refusal :=
  s.apply fun h => h.rejoinComplete p

/-- REJOIN_ABANDON: No stall has been possible for Pod `p` within 64 boundaries (R323). -/
def execRejoinAbandon (p : Fin 6) (s : State) : Host.Outcome State Fault Refusal :=
  s.apply fun h => h.rejoinAbandon p

/-- POD_REJOIN_RESTART: Master `m` writes `v` with REJOIN = 1 to POD_CTL of Pod `p` (R323). -/
def execRejoinRestart (m : Master) (p : Fin 6) (v : Word) (s : State) : Host.Outcome State Fault Refusal :=
  s.applyBus fun h nv => h.regWrite nv m .POD_CTL p (v ||| 1)

/-- POD_RELOAD_DONE: The image of Pod `p` has been read; `met`: the errors that its reading met (R47, R324). -/
def execPodReloadDone (p : Fin 6) (met : DramMet) (s : State) : Host.Outcome State Fault Refusal :=
  s.apply fun h => h.podReloaded p met

/-- DEBUG_ATTACH: A debugger attaches to Pod `p` in lockstep (R334, R461). -/
def execDebugAttach (p : Fin 6) (s : State) : Host.Outcome State Fault Refusal :=
  s.apply fun h => h.attach p

/-- SPLIT_DEBUG_ATTACH: A debugger attaches to a Pea of split Pod `p` (R337). -/
def execSplitDebugAttach (p : Fin 6) (s : State) : Host.Outcome State Fault Refusal :=
  s.apply fun h => h.splitAttach p

/-- DEBUG_PORT_REFUSAL: The debug port takes request `q` while DBG is not enabled (R31). -/
def execDebugPortRefusal (q : PortRequest) (s : State) : Host.Outcome State Fault Refusal :=
  s.apply fun h => h.portRefusal q

/-- DEBUG_DETACH: A debugger detaches from Pod `p` (R334). -/
def execDebugDetach (p : Fin 6) (s : State) : Host.Outcome State Fault Refusal :=
  s.apply fun h => h.debugDetach p

end Sys2Proof.Machine
end

