-- ==== Sys2Proof/Machine/ExecPool.lean ====
section
/-! DEFINITION. The meanings of the commands of the dose-check pool. -/

namespace Sys2Proof.Machine

/-- SEGMENT_DISPATCH: The scheduler grants a free check engine to the next candidate (R101). -/
def execSegmentDispatch (s : State) : Host.Outcome State Fault Refusal :=
  s.apply fun h => h.dosed (·.dispatch)

/-- SEGMENT_CHECK_COMPLETE: Check engine `k` completes its segment, having met the dose SRAM errors `e` (R86, R107). -/
def execCheckComplete (k : Fin 16) (e : EccHits) (s : State) : Host.Outcome State Fault Refusal :=
  s.apply fun h => h.dosed (·.checkComplete k e)

/-- EXCEED_BIN_END: A 62.5 ms exceedance bin ends (R93). -/
def execExceedBinEnd (s : State) : Host.Outcome State Fault Refusal :=
  s.apply fun h => h.binEnd

/-- SCOREBOARD_STALL: Segment `g` of engine `n` has been held by the scoreboard beyond CHK_HAZ_LIM (R103). -/
def execScoreboardStall (n : Fin 16) (g : Fin 32) (s : State) : Host.Outcome State Fault Refusal :=
  s.apply fun h => h.hazardStall n g

/-- CHK_CEOFF_WRITE: Master `m` writes `v` to CHK_CEOFF (R104). -/
def execCeoffWrite (m : Master) (v : Word) (s : State) : Host.Outcome State Fault Refusal :=
  s.applyBus fun h nv => h.regWrite nv m .CHK_CEOFF 0 v

/-- CHECK_ENGINE_SELFTEST_DONE: The self-test of the offline check engine `k` ends (R105). -/
def execSelftestDone (k : Fin 16) (pass : Bool) (s : State) : Host.Outcome State Fault Refusal :=
  s.apply fun h => h.dosed (·.selftestDone k pass)

/-- ZONE_MAP_LOAD: Master `m` writes `w.val` with ZMLOAD = 1 to CHK_CTL; `w.ce`: the corrected errors that the load meets
(R126). -/
def execZoneMapLoad (m : Master) (w : ZmapWrite) (s : State) : Host.Outcome State Fault Refusal :=
  s.applyBus fun h nv => h.zoneMapLoad nv m w

/-- CHK_ACTIVATE: Master `m` writes `v` with ACTIVATE = 1 to CHK_CTL (R113). -/
def execChkActivate (m : Master) (v : Word) (s : State) : Host.Outcome State Fault Refusal :=
  s.applyBus fun h nv => h.regWrite nv m .CHK_CTL 0 (v ||| 1)

/-- COLD_INIT_COMPLETE: Cold initialisation ends (R112). -/
def execColdInitComplete (s : State) : Host.Outcome State Fault Refusal :=
  s.apply fun h => h.dosed (·.coldInitComplete Config.randomByte)

/-- PEAK_EPOCH_END: A peak epoch ends (R114). -/
def execPeakEpochEnd (s : State) : Host.Outcome State Fault Refusal :=
  s.apply fun h => h.peakEpochEnd

end Sys2Proof.Machine
end

