-- ==== Sys2Proof/Machine/ExecRelease.lean ====
section
/-! DEFINITION. The meanings of the commands of the tile check, the release gate and owned outputs. -/

namespace Sys2Proof.Machine

/-- BDIE_FRAME_RECEIVED: The Tile Checker takes the next frame from XLK_D (R129). -/
def execBdieFrame (s : State) : Host.Outcome State Fault Refusal :=
  s.apply fun h => h.bFrameReceived

/-- B_SLOT_END: A B-slot of engine `n` ends (R133). -/
def execBSlotEnd (n : Fin 16) (s : State) : Host.Outcome State Fault Refusal :=
  s.apply fun h => h.bSlotEnd n

/-- VERDICT_RECEIVED: The release gate takes the next verdict (R138). -/
def execVerdictReceived (s : State) : Host.Outcome State Fault Refusal :=
  s.apply fun h => h.verdictReceived

/-- VERDICT_TIMEOUT: The verdict of the segment in pool entry `entry` of lane `n` has not come within VTO µs (R141). -/
def execVerdictTimeout (n : Fin 16) (entry : Fin 32) (s : State) : Host.Outcome State Fault Refusal :=
  s.apply fun h => h.verdictTimeout n entry

/-- SEGMENT_RELEASE: The release gate takes the oldest segment of lane `n`; `met`: the errors that it meets (R47, R140,
R164). -/
def execSegmentRelease (n : Fin 16) (met : ReleaseErrs) (s : State) : Host.Outcome State Fault Refusal :=
  s.apply fun h => h.segmentRelease n met

/-- RELEASE_REPORT_RECEIVED: The B-die takes the next release report (R148). -/
def execReleaseReport (s : State) : Host.Outcome State Fault Refusal :=
  s.apply fun h => h.reportReceived

/-- RELEASE_REPORT_MISSING: No report has come 100 µs after the verdict for pool entry `entry` of lane `n` (R148). -/
def execReportMissing (n : Fin 16) (entry : Fin 32) (s : State) : Host.Outcome State Fault Refusal :=
  s.apply fun h => h.reportMissing n entry

/-- ENGINE_FAULT_NOTICE: The A-die takes the next B-side engine-fault notice (R149). -/
def execEngineFaultNotice (s : State) : Host.Outcome State Fault Refusal :=
  s.apply fun h => h.faultNotice

/-- SEO_READBACK_FAULT: SEO_A or SEO_B (`sideB`) of engine `n` has read back toggling, or static, for 120 µs (R156). -/
def execSeoReadback (sideB : Bool) (n : Fin 16) (toggling : Bool) (s : State) : Host.Outcome State Fault Refusal :=
  s.apply fun h => h.seoReadback sideB n toggling

/-- SEO_FLT_CLR: Master `m` writes `v` with FLT_CLR = 1 to REL_SEO of engine `n` (R158). -/
def execSeoFltClr (m : Master) (n : Fin 16) (v : Word) (s : State) : Host.Outcome State Fault Refusal :=
  s.applyBus fun h nv => h.regWrite nv m .REL_SEO n (v ||| 2)

/-- OWNED_OUTPUT_WRITE: Master `m` writes `v` to a register of owned outputs (R313). -/
def execOwnedWrite (m : Master) (r : OwnedReg) (n : Fin 16) (v : Word) (s : State) : Host.Outcome State Fault Refusal :=
  s.applyBus fun h nv => h.regWrite nv m r.reg (r.word n) v

end Sys2Proof.Machine
end

