-- ==== Sys2Proof/Machine/ExecReset.lean ====
section
/-! DEFINITION. The meanings of the commands of resets. -/

namespace Sys2Proof.Machine

/-- POWER_ON_RESET: VSYS leaves its supervisor window, or returns (R464, R481); `cut`: how far a running OTP operation has
come. -/
def execPowerOnReset (v : Supply) (cut : OtpCut) (s : State) : Host.Outcome State Fault Refusal :=
  s.alwaysNv fun h nv => (h.por v, nv.porCut h v cut)

/-- NRST_IN_WARM_RESET: NRST_IN_N falls beyond the filter (R472). -/
def execNrstLow (cut : OtpCut) (s : State) : Host.Outcome State Fault Refusal :=
  s.alwaysNv fun h nv => h.nrst nv cut

/-- NRST_IN_RELEASE: NRST_IN_N rises (R472). -/
def execNrstRelease (s : State) : Host.Outcome State Fault Refusal :=
  s.always fun h => h.pinRelease

/-- RESET_REQUEST: Master `m` writes the keyed request to CLK_RSTREQ (R473). -/
def execResetRequest (m : Master) (s : State) : Host.Outcome State Fault Refusal :=
  s.applyBus fun h nv => h.regWrite nv m .CLK_RSTREQ 0 0x574D0001

/-- THERMAL_TRIP: The A-die, or the B-die (`sideB`), has stood at 130 °C for 1 ms (R484). -/
def execThermalTrip (sideB : Bool) (cut : OtpCut) (s : State) : Host.Outcome State Fault Refusal :=
  s.alwaysNv fun h nv => h.thermal nv sideB cut

/-- THERMAL_RELEASE: Every die reads below 115 °C (R484). -/
def execThermalRelease (s : State) : Host.Outcome State Fault Refusal :=
  s.always fun h => h.thermalRelease

/-- BDIE_SUPERVISOR_RESET: VSYS_B leaves its supervisor window, or returns (`ok`) (R482). -/
def execBdieSupervisor (ok : Bool) (s : State) : Host.Outcome State Fault Refusal :=
  s.always fun h => h.bSupervisor ok

end Sys2Proof.Machine
end

