-- ==== Sys2Proof/Machine/ExecSec.lean ====
section
/-! DEFINITION. The meanings of the commands of the security block. -/

namespace Sys2Proof.Machine

/-- SEC_HASH_MEM: Master `m` writes `v` with OP = HASH_MEM to SEC_CMD (R463). -/
def execSecHashMem (m : Master) (v : Word) (s : State) : Host.Outcome State Fault Refusal :=
  s.applyBus fun h nv => h.regWrite nv m .SEC_CMD 0 (withOp v 1)

/-- SEC_HASH_BUF: Master `m` writes `v` with OP = HASH_BUF to SEC_CMD (R463). -/
def execSecHashBuf (m : Master) (v : Word) (s : State) : Host.Outcome State Fault Refusal :=
  s.applyBus fun h nv => h.regWrite nv m .SEC_CMD 0 (withOp v 2)

/-- SEC_VERIFY: Master `m` writes `v` with OP = VERIFY to SEC_CMD (R463). -/
def execSecVerify (m : Master) (v : Word) (s : State) : Host.Outcome State Fault Refusal :=
  s.applyBus fun h nv => h.regWrite nv m .SEC_CMD 0 (withOp v 3)

/-- SEC_SIGN_ID: Master `m` writes `v` with OP = SIGN_ID to SEC_CMD (R463). -/
def execSecSignId (m : Master) (v : Word) (s : State) : Host.Outcome State Fault Refusal :=
  s.applyBus fun h nv => h.regWrite nv m .SEC_CMD 0 (withOp v 4)

/-- SEC_RANDOM: Master `m` writes `v` with OP = RANDOM to SEC_CMD (R463). -/
def execSecRandom (m : Master) (v : Word) (s : State) : Host.Outcome State Fault Refusal :=
  s.applyBus fun h nv => h.regWrite nv m .SEC_CMD 0 (withOp v 5)

/-- SEC_IDPUB: Master `m` writes `v` with OP = IDPUB to SEC_CMD (R463). -/
def execSecIdPub (m : Master) (v : Word) (s : State) : Host.Outcome State Fault Refusal :=
  s.applyBus fun h nv => h.regWrite nv m .SEC_CMD 0 (withOp v 6)

/-- SEC_HASH_ABORT: Master `m` writes `v` with OP = abort to SEC_CMD (R463). -/
def execSecHashAbort (m : Master) (v : Word) (s : State) : Host.Outcome State Fault Refusal :=
  s.applyBus fun h nv => h.regWrite nv m .SEC_CMD 0 (withOp v 15)

/-- SEC_OPERATION_DONE: The running SEC command ends; `bad`: the random source fails its health tests; `met`: the errors that
its reads of DRAM met (R47, R463). -/
def execSecDone (bad : Bool) (met : DramMet) (s : State) : Host.Outcome State Fault Refusal :=
  s.apply fun h => h.secFinished bad met

/-- RIND_BREACH: Mesh segments are found breached (R460). -/
def execRindBreach (mask : Fin 256) (s : State) : Host.Outcome State Fault Refusal :=
  s.alwaysHold fun h _ => h.rindBreach mask

/-- DEBUG_UNLOCK: A debug unlock arrives at DBGUNLK: public key, ROT slot and signature (R462). -/
def execDebugUnlock (key : List Byte) (slot : Nat) (sig : List Byte) (cut : OtpCut) (s : State) : Host.Outcome State Fault
    Refusal :=
  s.applyNv fun h nv => h.unlock nv key slot sig cut

end Sys2Proof.Machine
end

