-- ==== Sys2Proof/Machine/ExecSfn.lean ====
section
/-! DEFINITION. The meanings of the commands of safety functions and the exchange. -/

namespace Sys2Proof.Machine

/-- EVAL_CYCLE_BOUNDARY: A cycle of channel A ends; `late` has a bit for each function group that has not completed it (R176,
R179). -/
def execEvalBoundary (late : Nat) (s : State) : Host.Outcome State Fault Refusal :=
  s.apply fun h => h.evalBoundary late

/-- RESET_STUCK: The press of OPERATOR_RESET function `n` has lasted more than 3 s (R192). -/
def execResetStuck (n : Fin 256) (s : State) : Host.Outcome State Fault Refusal :=
  s.apply fun h => h.resetStuck n

/-- B_CYCLE_BOUNDARY: Channel B reaches its cycle boundary (R180). -/
def execBCycleBoundary (s : State) : Host.Outcome State Fault Refusal :=
  s.apply fun h => h.bBoundary

/-- EXCHANGE_FRAME_RECEIVED: Channel `c` receives the partner's exchange frame `us` µs after t1; `altered` is what arrives in
place of the frame that was sent (R183). -/
def execExchangeReceived (c : Chan) (us : Nat) (altered : Option (List Byte)) (s : State) : Host.Outcome State Fault Refusal
    :=
  s.apply fun h => h.exchangeReceived c us altered

/-- EXCHANGE_TIMEOUT: Channel `c` has had no valid partner frame by t1 + 30 µs (R182). -/
def execExchangeTimeout (c : Chan) (s : State) : Host.Outcome State Fault Refusal :=
  s.apply fun h => h.exchangeTimeout c

/-- SFN_START: Master `m` writes `v` with START = 1 to SFN_CTL (R176). -/
def execSfnStart (m : Master) (v : Word) (s : State) : Host.Outcome State Fault Refusal :=
  s.applyBus fun h nv => h.regWrite nv m .SFN_CTL 0 (F.SFN_CTL_START.put v 1)

/-- SFN_STAT_WRITE: Master `m` writes `v` to SFN_STAT of function `n` (R223). -/
def execSfnStatWrite (m : Master) (n : Fin 256) (v : Word) (s : State) : Host.Outcome State Fault Refusal :=
  s.applyBus fun h nv => h.regWrite nv m .SFN_STAT n v

/-- SO_FLT_CLR: Master `m` writes `v` with FLT_CLR = 1 to SO_CMD of pair `n` (R264). -/
def execSoFltClr (m : Master) (n : Fin 16) (v : Word) (s : State) : Host.Outcome State Fault Refusal :=
  s.applyBus fun h nv => h.regWrite nv m .SO_CMD n (v ||| 2)

/-- ENV_REQUEST: The B-die takes the message on channel 30 (R370). -/
def execEnvRequest (s : State) : Host.Outcome State Fault Refusal :=
  s.apply fun h => h.envRequest

end Sys2Proof.Machine
end

