-- ==== Sys2Proof/Machine/ExecStart.lean ====
section
/-! DEFINITION. The meanings of the commands of start-up. -/

namespace Sys2Proof.Machine

/-- PLL_LOCKED: REFCLK is stable and the PLLs lock; VSYS and VSYS_B measure `va` and `vb` mV (R464). -/
def execPllLocked (va : Fin 65536) (vb : Fin 65536) (s : State) : Host.Outcome State Fault Refusal :=
  s.apply fun h => h.pllLocked va vb

/-- FUSE_SENSING_DONE: Fuses are sensed: what copies read otherwise, SPLIT_EN, the random source's health and the breached
segments (R433). -/
def execFuseSensing (devs : List Deviation) (strap : Bool) (rng : Bool) (rind : Fin 256) (s : State) : Host.Outcome State
    Fault Refusal :=
  s.applyHold fun h nv => h.sensingDone nv devs strap rng rind

/-- BOOT_ROM_START: The boot ROM starts; the B-die reports cross-link version `ver` (R464). -/
def execBootRomStart (ver : Nat) (commLow : Bool) (s : State) : Host.Outcome State Fault Refusal :=
  s.applyNv fun h nv => (h.bootRomStart nv ver commLow, nv.bootRomStart h ver commLow)

/-- FIRMWARE_START: The boot ROM verifies the firmware areas and starts one (R456). -/
def execFirmwareStart (s : State) : Host.Outcome State Fault Refusal :=
  s.applyNv fun h nv => (h.firmwareStart nv, nv.firmwareStart h)

/-- DRAM_TRAINING_DONE: DRAM is trained, or every attempt has failed (R47). -/
def execDramTrained (ok : Bool) (s : State) : Host.Outcome State Fault Refusal :=
  s.apply fun h => h.dramTrained ok

/-- CONFIG_LOAD: The configuration package is verified and loaded; `c` is what its body says (R446). -/
def execConfigLoad (c : PkgConfig) (s : State) : Host.Outcome State Fault Refusal :=
  s.applyBus fun h nv => h.configLoad nv c

/-- CONFIG_SETUP_DONE: The configuration is set up with the register writes that the package lists (R464). -/
def execConfigSetup (writes : List (Nat × Word)) (s : State) : Host.Outcome State Fault Refusal :=
  s.applyBus fun h nv => h.configSetup nv writes

/-- STARTUP_TESTS: The start-up tests end; masks of the SO pairs whose P_RB or M_RB is wrong and of the sources that read 0
(R466). -/
def execStartupTests (failP : Nat) (failM : Nat) (tpLow : Nat) (s : State) : Host.Outcome State Fault Refusal :=
  s.apply fun h => h.startupTests failP failM tpLow

/-- SAFE_READY: The first exchange has been made (R221). -/
def execSafeReady (s : State) : Host.Outcome State Fault Refusal :=
  s.apply fun h => h.safeReady

/-- BDIE_SELFTEST_DONE: The B-die's self-test ends, with the version word of XLK_D (R24, R464). -/
def execBdieSelftest (res : BSelftest) (s : State) : Host.Outcome State Fault Refusal :=
  s.applyHold fun h _ => h.bSelftest res.ok res.ver

/-- BDIE_START_TIMEOUT: The time that the B-die has for its start is over (R467). -/
def execBdieStartTimeout (s : State) : Host.Outcome State Fault Refusal :=
  s.applyHold fun h _ => h.bStartTimeout

end Sys2Proof.Machine
end

