-- ==== Sys2Proof/Machine/ExecSupply.lean ====
section
/-! DEFINITION. The meanings of the commands of the field supply groups. -/

namespace Sys2Proof.Machine

/-- SUPPLY_WARN: VFn_IN of group `g` falls below the warning threshold (R274). -/
def execSupplyWarn (g : Fin 2) (s : State) : Host.Outcome State Fault Refusal :=
  s.apply fun h => h.supplyWarn g

/-- SUPPLY_BELOW_CUTOFF: VFn_IN of group `g` falls below cut-off (R274). -/
def execSupplyBelow (g : Fin 2) (s : State) : Host.Outcome State Fault Refusal :=
  s.apply fun h => h.supplyLow g

/-- SUP_CUT: The cut-off of group `g` is confirmed after 1 ms (R274). -/
def execSupCut (g : Fin 2) (s : State) : Host.Outcome State Fault Refusal :=
  s.apply fun h => h.supCut g

/-- SUPPLY_ABOVE_CUTOFF: VFn_IN of group `g` returns above cut-off before confirmation (R275). -/
def execSupplyAbove (g : Fin 2) (s : State) : Host.Outcome State Fault Refusal :=
  s.apply fun h => h.supplyAbove g

/-- SUPPLY_RECOVERING: VFn_IN of group `g` returns to the warning threshold (R274). -/
def execSupplyRecovering (g : Fin 2) (s : State) : Host.Outcome State Fault Refusal :=
  s.apply fun h => h.supplyRecovering g

/-- SUPPLY_VALID: VFn_IN of group `g` has stood at the warning threshold for 10 ms (R274). -/
def execSupplyValid (g : Fin 2) (s : State) : Host.Outcome State Fault Refusal :=
  s.apply fun h => h.supplyValidNow g

/-- READBACK_SUPPRESSION_END: Readback suppression of group `g` ends (R276). -/
def execSuppressionEnd (g : Fin 2) (s : State) : Host.Outcome State Fault Refusal :=
  s.apply fun h => h.suppressionEnd g

/-- UV_RESTORE: 100 ms have passed since group `g` was valid or restored (R274). -/
def execUvRestore (g : Fin 2) (s : State) : Host.Outcome State Fault Refusal :=
  s.apply fun h => h.uvRestore g

/-- GROUP_OVERCURRENT_TRIP: The current of group `g` has exceeded 7.0 A for 10 ms (R277). -/
def execGroupTrip (g : Fin 2) (s : State) : Host.Outcome State Fault Refusal :=
  s.apply fun h => h.groupTrip g

/-- GROUP_RESTORE: 1 s has passed since the trip of group `g` (R277). -/
def execGroupRestore (g : Fin 2) (s : State) : Host.Outcome State Fault Refusal :=
  s.apply fun h => h.groupRestore g

/-- VFOUT_OVERLOAD: VFn_OUT of group `g` has stood at its limit for 5 ms (R278). -/
def execVfoutOverload (g : Fin 2) (s : State) : Host.Outcome State Fault Refusal :=
  s.apply fun h => h.vfOverload g

/-- VFOUT_RETRY: VFn_OUT of group `g` retries 1 s after its overload (R278). -/
def execVfoutRetry (g : Fin 2) (s : State) : Host.Outcome State Fault Refusal :=
  s.apply fun h => h.vfRetry g

end Sys2Proof.Machine
end

