-- ==== Sys2Proof/Machine/ExecUnits.lean ====
section
/-! DEFINITION. The meanings of the commands of timers and check-value units. -/

namespace Sys2Proof.Machine

/-- TMR_ENABLE: Master `m` writes `v` to TMR_CTL of timer `n` (R341). -/
def execTmrEnable (m : Master) (n : Fin 32) (v : Word) (s : State) : Host.Outcome State Fault Refusal :=
  s.applyBus fun h nv => h.regWrite nv m .TMR_CTL n v

/-- TMR_PRELOAD_WRITE: Master `m` writes `v` to a preload register of timer `n` (R342). -/
def execTmrPreload (m : Master) (r : PreloadReg) (n : Fin 32) (v : Word) (s : State) : Host.Outcome State Fault Refusal :=
  s.applyBus fun h nv => h.regWrite nv m r.reg n v

/-- TMR_CAPCFG_WRITE: Master `m` writes `v` to TMR_CAPCFG of timer `n` (R346). -/
def execTmrCapcfg (m : Master) (n : Fin 32) (v : Word) (s : State) : Host.Outcome State Fault Refusal :=
  s.applyBus fun h nv => h.regWrite nv m .TMR_CAPCFG n v

/-- TMR_WRAP: The prescaler of timer `n` expires with the counter at its top (R340). -/
def execTmrWrap (n : Fin 32) (s : State) : Host.Outcome State Fault Refusal :=
  s.apply fun h => h.tmrWrap n

/-- TMR_CAPTURE: The next edge at the capture source of timer `n` in this clock reaches it: one of source `src`, rising or
falling, in a clock in which CNT changes or not (R344 to R348). -/
def execTmrCapture (n : Fin 32) (src : Fin 256) (rising : Bool) (sameClock : Bool) (s : State) : Host.Outcome State Fault
    Refusal :=
  s.apply fun h => h.captureEdge n src rising sameClock

/-- TMR_COMPARE_MATCH: The counter of timer `n` has changed and is compared (R347). -/
def execTmrCompareMatch (n : Fin 32) (s : State) : Host.Outcome State Fault Refusal :=
  s.apply fun h => h.tmrCompare n

/-- TMR_TICK: The prescaler of timer `n` expires with the counter below its top (R340). -/
def execTmrTick (n : Fin 32) (s : State) : Host.Outcome State Fault Refusal :=
  s.apply fun h => h.tmrTick n

/-- CRC_DATA_WRITE: Master `m` feeds 4, 2 or 1 bytes of `v` to check-value unit `n` (R353). -/
def execCrcDataWrite (m : Master) (w : CrcWidth) (n : Fin 8) (v : Word) (s : State) : Host.Outcome State Fault Refusal :=
  s.applyBus fun h nv => h.regWrite nv m w.reg n v

/-- CRC_INIT: Master `m` writes `v` with INIT = 1 to CRC_CTL of unit `n` (R354). -/
def execCrcInit (m : Master) (n : Fin 8) (v : Word) (s : State) : Host.Outcome State Fault Refusal :=
  s.applyBus fun h nv => h.regWrite nv m .CRC_CTL n (v ||| 1)

/-- CRC_GO: Master `m` writes `v` with GO = 1 to CRC_CTL of unit `n` (R355). -/
def execCrcGo (m : Master) (n : Fin 8) (v : Word) (s : State) : Host.Outcome State Fault Refusal :=
  s.applyBus fun h nv => h.regWrite nv m .CRC_CTL n (v ||| 2)

/-- CRC_ABORT: Master `m` writes `v` with ABORT = 1 to CRC_CTL of unit `n`, which has read `k` bytes (R356). -/
def execCrcAbort (m : Master) (n : Fin 8) (v : Word) (k : Nat) (s : State) : Host.Outcome State Fault Refusal :=
  s.applyBus fun h nv => (h.crcReach n k).regWrite nv m .CRC_CTL n (v ||| 4)

/-- CRC_MEMORY_DONE: Memory mode of unit `n` ends; `met`: the errors that its reads of DRAM met (R47, R355). -/
def execCrcMemoryDone (n : Fin 8) (met : CrcMet) (s : State) : Host.Outcome State Fault Refusal :=
  s.apply fun h => h.crcEnd n met

end Sys2Proof.Machine
end

