-- ==== Sys2Proof/Machine/ExecXlk.lean ====
section
/-! DEFINITION. The meanings of the commands of the cross links and DRAM. -/

namespace Sys2Proof.Machine

/-- XLK_STATUS_FRAME: A B-die status frame arrives (R44). -/
def execXlkStatusFrame (s : State) : Host.Outcome State Fault Refusal :=
  s.apply fun h => h.statusFrame

/-- XLK_MIRROR_TIMEOUT: No status frame for 100 µs (R44). -/
def execXlkMirrorTimeout (s : State) : Host.Outcome State Fault Refusal :=
  s.apply fun h => h.mirrorTimeout

/-- XLK_BLOCK_RECEIVED: The first block under way on link `l` fails its check `fails` times before it passes (R45). -/
def execXlkBlock (l : XlkLink) (fails : Nat) (s : State) : Host.Outcome State Fault Refusal :=
  s.apply fun h => h.blockReceived l fails

/-- XLK_TRAINING_LOSS: XLK_D (`linkD`) or XLK_C loses training (R45). -/
def execXlkTrainingLoss (linkD : Bool) (s : State) : Host.Outcome State Fault Refusal :=
  s.apply fun h => h.trainingLoss linkD

/-- XLK_RETRAIN_DONE: A cross link is trained again, with its version word (R24, R45). -/
def execXlkRetrainDone (up : LinkUp) (s : State) : Host.Outcome State Fault Refusal :=
  s.applyHold fun h _ => h.retrainDone up.linkD up.ver

/-- XLKC_SILENCE: XLK_C has had no valid traffic for 200 µs (R482). -/
def execXlkcSilence (s : State) : Host.Outcome State Fault Refusal :=
  s.apply fun h => h.xlkcSilence

/-- DDR_PATROL_SCRUB: The patrol scrubber corrects `ce` errors and finds uncorrectable ones at the DRAM offsets `ue` (R47). -/
def execPatrolScrub (ce : Nat) (ue : List Nat) (s : State) : Host.Outcome State Fault Refusal :=
  s.apply fun h => h.patrolScrub ce ue

/-- DDR_REFRATE_CHANGE: The DRAM devices report refresh-rate code `code` (R47). -/
def execRefrateChange (code : Fin 256) (s : State) : Host.Outcome State Fault Refusal :=
  s.apply fun h => h.refrateChange code

end Sys2Proof.Machine
end

