-- ==== Sys2Proof/Machine/Dispatch.lean ====
section
/-! DEFINITION. Which meaning each command has. -/

namespace Sys2Proof.Machine

def exec (i : Instr) (s : State) : Host.Outcome State Fault Refusal :=
  match i with
  | .registerWrite m a size v => Sys2Proof.Machine.execRegisterWrite m a size v s
  | .unlistedAccess m a write v => Sys2Proof.Machine.execUnlistedAccess m a write v s
  | .bar0Access off write v => Sys2Proof.Machine.execBar0Access off write v s
  | .rcFieldRead m a rd => Sys2Proof.Machine.execRcFieldRead m a rd s
  | .noClrWrite m v => Sys2Proof.Machine.execNoClrWrite m v s
  | .lockBitSet m a v => Sys2Proof.Machine.execLockBitSet m a v s
  | .fieldLinkFrame c d fr => Sys2Proof.Machine.execFieldLinkFrame c d fr s
  | .fieldLinkTimeout c d => Sys2Proof.Machine.execFieldLinkTimeout c d s
  | .fieldLinkRecovered c d => Sys2Proof.Machine.execFieldLinkRecovered c d s
  | .commandFrame c d fr => Sys2Proof.Machine.execCommandFrame c d fr s
  | .dieLinkError c d => Sys2Proof.Machine.execDieLinkError c d s
  | .xlkBlock l fails => Sys2Proof.Machine.execXlkBlock l fails s
  | .xlkTrainingLoss linkD => Sys2Proof.Machine.execXlkTrainingLoss linkD s
  | .xlkRetrainDone up => Sys2Proof.Machine.execXlkRetrainDone up s
  | .patrolScrub ce ue => Sys2Proof.Machine.execPatrolScrub ce ue s
  | .refrateChange code => Sys2Proof.Machine.execRefrateChange code s
  | .laneEnable m n v => Sys2Proof.Machine.execLaneEnable m n v s
  | .laneDisable m n v => Sys2Proof.Machine.execLaneDisable m n v s
  | .laneReset m n v => Sys2Proof.Machine.execLaneReset m n v s
  | .blockLockAcquired n d => Sys2Proof.Machine.execBlockLockAcquired n d s
  | .blockLockLost n d => Sys2Proof.Machine.execBlockLockLost n d s
  | .controlUnknown n d gap => Sys2Proof.Machine.execControlUnknown n d gap s
  | .tsSequence n d => Sys2Proof.Machine.execTsSequence n d s
  | .capReceived n d cap role => Sys2Proof.Machine.execCapReceived n d cap role s
  | .capAckReceived n d cap => Sys2Proof.Machine.execCapAckReceived n d cap s
  | .trainingTimeout n d => Sys2Proof.Machine.execTrainingTimeout n d s
  | .linkDown n d => Sys2Proof.Machine.execLinkDown n d s
  | .ingressFrame n rx => Sys2Proof.Machine.execIngressFrame n rx s
  | .laneErrlim n => Sys2Proof.Machine.execLaneErrlim n s
  | .segmentSubmit n => Sys2Proof.Machine.execSegmentSubmit n s
  | .slotStart n => Sys2Proof.Machine.execSlotStart n s
  | .egressCredit n k => Sys2Proof.Machine.execEgressCredit n k s
  | .egressSend n => Sys2Proof.Machine.execEgressSend n s
  | .egressStall n => Sys2Proof.Machine.execEgressStall n s
  | .drainComplete n => Sys2Proof.Machine.execDrainComplete n s
  | .checkComplete k e => Sys2Proof.Machine.execCheckComplete k e s
  | .scoreboardStall n g => Sys2Proof.Machine.execScoreboardStall n g s
  | .ceoffWrite m v => Sys2Proof.Machine.execCeoffWrite m v s
  | .selftestDone k pass => Sys2Proof.Machine.execSelftestDone k pass s
  | .zoneMapLoad m w => Sys2Proof.Machine.execZoneMapLoad m w s
  | .chkActivate m v => Sys2Proof.Machine.execChkActivate m v s
  | .envLoadStart m v => Sys2Proof.Machine.execEnvLoadStart m v s
  | .envImageChecked met => Sys2Proof.Machine.execEnvImageChecked met s
  | .envLoadRetry g => Sys2Proof.Machine.execEnvLoadRetry g s
  | .bSlotEnd n => Sys2Proof.Machine.execBSlotEnd n s
  | .verdictTimeout n entry => Sys2Proof.Machine.execVerdictTimeout n entry s
  | .segmentRelease n met => Sys2Proof.Machine.execSegmentRelease n met s
  | .reportMissing n entry => Sys2Proof.Machine.execReportMissing n entry s
  | .seoReadback sideB n toggling => Sys2Proof.Machine.execSeoReadback sideB n toggling s
  | .seoFltClr m n v => Sys2Proof.Machine.execSeoFltClr m n v s
  | .ownedWrite m r n v => Sys2Proof.Machine.execOwnedWrite m r n v s
  | .ledgerTimeout lseq => Sys2Proof.Machine.execLedgerTimeout lseq s
  | .ledgerHeader met => Sys2Proof.Machine.execLedgerHeader met s
  | .ldgCtlWrite m v => Sys2Proof.Machine.execLdgCtlWrite m v s
  | .ldgRdSeqLo m v => Sys2Proof.Machine.execLdgRdSeqLo m v s
  | .ldgRdSeqHi m v => Sys2Proof.Machine.execLdgRdSeqHi m v s
  | .evalBoundary late => Sys2Proof.Machine.execEvalBoundary late s
  | .resetStuck n => Sys2Proof.Machine.execResetStuck n s
  | .exchangeReceived c us altered => Sys2Proof.Machine.execExchangeReceived c us altered s
  | .exchangeTimeout c => Sys2Proof.Machine.execExchangeTimeout c s
  | .sfnStart m v => Sys2Proof.Machine.execSfnStart m v s
  | .sfnStatWrite m n v => Sys2Proof.Machine.execSfnStatWrite m n v s
  | .soFltClr m n v => Sys2Proof.Machine.execSoFltClr m n v s
  | .tpgRun m v => Sys2Proof.Machine.execTpgRun m v s
  | .tpDetection c => Sys2Proof.Machine.execTpDetection c s
  | .tpNoSync d => Sys2Proof.Machine.execTpNoSync d s
  | .tpOverload j => Sys2Proof.Machine.execTpOverload j s
  | .tpOverloadRetry j => Sys2Proof.Machine.execTpOverloadRetry j s
  | .testPulseBegin j => Sys2Proof.Machine.execTestPulseBegin j s
  | .testPulseEnd j => Sys2Proof.Machine.execTestPulseEnd j s
  | .soReadback n high => Sys2Proof.Machine.execSoReadback n high s
  | .channelMismatch c n => Sys2Proof.Machine.execChannelMismatch c n s
  | .soOffPulse n high => Sys2Proof.Machine.execSoOffPulse n high s
  | .soOffPulseEnd n high rb => Sys2Proof.Machine.execSoOffPulseEnd n high rb s
  | .demagComplete w => Sys2Proof.Machine.execDemagComplete w s
  | .demagTimeout n => Sys2Proof.Machine.execDemagTimeout n s
  | .outputOverload w => Sys2Proof.Machine.execOutputOverload w s
  | .outputOvertemp w => Sys2Proof.Machine.execOutputOvertemp w s
  | .outputCooled w => Sys2Proof.Machine.execOutputCooled w s
  | .dqEnable m n v => Sys2Proof.Machine.execDqEnable m n v s
  | .dqDisable m n v => Sys2Proof.Machine.execDqDisable m n v s
  | .dqFltClr m n v => Sys2Proof.Machine.execDqFltClr m n v s
  | .dqReadback n => Sys2Proof.Machine.execDqReadback n s
  | .supplyWarn g => Sys2Proof.Machine.execSupplyWarn g s
  | .supplyBelow g => Sys2Proof.Machine.execSupplyBelow g s
  | .supCut g => Sys2Proof.Machine.execSupCut g s
  | .supplyAbove g => Sys2Proof.Machine.execSupplyAbove g s
  | .supplyRecovering g => Sys2Proof.Machine.execSupplyRecovering g s
  | .supplyValid g => Sys2Proof.Machine.execSupplyValid g s
  | .suppressionEnd g => Sys2Proof.Machine.execSuppressionEnd g s
  | .uvRestore g => Sys2Proof.Machine.execUvRestore g s
  | .groupTrip g => Sys2Proof.Machine.execGroupTrip g s
  | .groupRestore g => Sys2Proof.Machine.execGroupRestore g s
  | .vfoutOverload g => Sys2Proof.Machine.execVfoutOverload g s
  | .vfoutRetry g => Sys2Proof.Machine.execVfoutRetry g s
  | .cliValueForm c n codes => Sys2Proof.Machine.execCliValueForm c n codes s
  | .cliDiscrepancy n => Sys2Proof.Machine.execCliDiscrepancy n s
  | .cloUpdate n meas headroom => Sys2Proof.Machine.execCloUpdate n meas headroom s
  | .cloOpenFault n => Sys2Proof.Machine.execCloOpenFault n s
  | .cloComplianceFault n => Sys2Proof.Machine.execCloComplianceFault n s
  | .cloReadbackFault n => Sys2Proof.Machine.execCloReadbackFault n s
  | .cloEnable m n v => Sys2Proof.Machine.execCloEnable m n v s
  | .cloDisable m n v => Sys2Proof.Machine.execCloDisable m n v s
  | .cloFltClr m n v => Sys2Proof.Machine.execCloFltClr m n v s
  | .cloRampComplete n => Sys2Proof.Machine.execCloRampComplete n s
  | .podMismatch p b addr => Sys2Proof.Machine.execPodMismatch p b addr s
  | .comparatorFault p b addr => Sys2Proof.Machine.execComparatorFault p b addr s
  | .injectionTest p c0 c1 => Sys2Proof.Machine.execInjectionTest p c0 c1 s
  | .podResetDone p => Sys2Proof.Machine.execPodResetDone p s
  | .rejoinPassDone p => Sys2Proof.Machine.execRejoinPassDone p s
  | .rejoinComplete p => Sys2Proof.Machine.execRejoinComplete p s
  | .rejoinAbandon p => Sys2Proof.Machine.execRejoinAbandon p s
  | .rejoinRestart m p v => Sys2Proof.Machine.execRejoinRestart m p v s
  | .podReloadDone p met => Sys2Proof.Machine.execPodReloadDone p met s
  | .debugAttach p => Sys2Proof.Machine.execDebugAttach p s
  | .splitDebugAttach p => Sys2Proof.Machine.execSplitDebugAttach p s
  | .debugPortRefusal q => Sys2Proof.Machine.execDebugPortRefusal q s
  | .debugDetach p => Sys2Proof.Machine.execDebugDetach p s
  | .tmrEnable m n v => Sys2Proof.Machine.execTmrEnable m n v s
  | .tmrPreload m r n v => Sys2Proof.Machine.execTmrPreload m r n v s
  | .tmrCapcfg m n v => Sys2Proof.Machine.execTmrCapcfg m n v s
  | .tmrWrap n => Sys2Proof.Machine.execTmrWrap n s
  | .tmrCapture n src rising sameClock => Sys2Proof.Machine.execTmrCapture n src rising sameClock s
  | .tmrCompareMatch n => Sys2Proof.Machine.execTmrCompareMatch n s
  | .tmrTick n => Sys2Proof.Machine.execTmrTick n s
  | .crcDataWrite m w n v => Sys2Proof.Machine.execCrcDataWrite m w n v s
  | .crcInit m n v => Sys2Proof.Machine.execCrcInit m n v s
  | .crcGo m n v => Sys2Proof.Machine.execCrcGo m n v s
  | .crcAbort m n v k => Sys2Proof.Machine.execCrcAbort m n v k s
  | .crcMemoryDone n met => Sys2Proof.Machine.execCrcMemoryDone n met s
  | .mbxBindWrite m ch v => Sys2Proof.Machine.execMbxBindWrite m ch v s
  | .mbxMsgWrite m ch k v => Sys2Proof.Machine.execMbxMsgWrite m ch k v s
  | .mbxSend m ch v => Sys2Proof.Machine.execMbxSend m ch v s
  | .mbxTake m ch => Sys2Proof.Machine.execMbxTake m ch s
  | .semAcquire m n => Sys2Proof.Machine.execSemAcquire m n s
  | .semRelease m n v => Sys2Proof.Machine.execSemRelease m n v s
  | .eventFire e => Sys2Proof.Machine.execEventFire e s
  | .msixSend off => Sys2Proof.Machine.execMsixSend off s
  | .evtRouteWrite m e v => Sys2Proof.Machine.execEvtRouteWrite m e v s
  | .evtPendClear m w v => Sys2Proof.Machine.execEvtPendClear m w v s
  | .sqDoorbellRow m q v => Sys2Proof.Machine.execSqDoorbellRow m q v s
  | .cqDoorbellRow m q v => Sys2Proof.Machine.execCqDoorbellRow m q v s
  | .sqFetch packet => Sys2Proof.Machine.execSqFetch packet s
  | .queueEnable m q v => Sys2Proof.Machine.execQueueEnable m q v s
  | .queueDisable m q v => Sys2Proof.Machine.execQueueDisable m q v s
  | .queueDrained q => Sys2Proof.Machine.execQueueDrained q s
  | .queueTransferError q write => Sys2Proof.Machine.execQueueTransferError q write s
  | .nop q k => Sys2Proof.Machine.execNop q k s
  | .openSession q k => Sys2Proof.Machine.execOpenSession q k s
  | .closeSession q k => Sys2Proof.Machine.execCloseSession q k s
  | .deviceReset q k => Sys2Proof.Machine.execDeviceReset q k s
  | .deviceInfo q k io => Sys2Proof.Machine.execDeviceInfo q k io s
  | .stateRead q k => Sys2Proof.Machine.execStateRead q k s
  | .stageWrite q k io => Sys2Proof.Machine.execStageWrite q k io s
  | .cfgVerify q k io => Sys2Proof.Machine.execCfgVerify q k io s
  | .cfgInstall q k io => Sys2Proof.Machine.execCfgInstall q k io s
  | .cfgCommission q k io commLow => Sys2Proof.Machine.execCfgCommission q k io commLow s
  | .cfgSlotsRead q k io => Sys2Proof.Machine.execCfgSlotsRead q k io s
  | .trialRun q k => Sys2Proof.Machine.execTrialRun q k s
  | .otpRead q k io => Sys2Proof.Machine.execOtpRead q k io s
  | .otpUsrWrite q k => Sys2Proof.Machine.execOtpUsrWrite q k s
  | .otpFinalise q k => Sys2Proof.Machine.execOtpFinalise q k s
  | .laneService q k => Sys2Proof.Machine.execLaneService q k s
  | .laneStatusRead q k io => Sys2Proof.Machine.execLaneStatusRead q k io s
  | .envSelect q k timeout => Sys2Proof.Machine.execEnvSelect q k timeout s
  | .envStatusRead q k => Sys2Proof.Machine.execEnvStatusRead q k s
  | .zoneStatusRead q k io => Sys2Proof.Machine.execZoneStatusRead q k io s
  | .chkSelftest q k => Sys2Proof.Machine.execChkSelftest q k s
  | .safetyStatusRead q k io => Sys2Proof.Machine.execSafetyStatusRead q k io s
  | .safetyTimingRead q k io => Sys2Proof.Machine.execSafetyTimingRead q k io s
  | .exchangeStatusRead q k io => Sys2Proof.Machine.execExchangeStatusRead q k io s
  | .dqSet q k => Sys2Proof.Machine.execDqSet q k s
  | .cloSet q k => Sys2Proof.Machine.execCloSet q k s
  | .ioRead q k io => Sys2Proof.Machine.execIoRead q k io s
  | .ledgerStatus q k io => Sys2Proof.Machine.execLedgerStatus q k io s
  | .ledgerRead q k io => Sys2Proof.Machine.execLedgerRead q k io s
  | .ledgerAck q k => Sys2Proof.Machine.execLedgerAck q k s
  | .fwVerify q k io => Sys2Proof.Machine.execFwVerify q k io s
  | .fwInstall q k io => Sys2Proof.Machine.execFwInstall q k io s
  | .fwStatus q k => Sys2Proof.Machine.execFwStatus q k s
  | .attestIdentity q k io => Sys2Proof.Machine.execAttestIdentity q k io s
  | .attestReport q k io => Sys2Proof.Machine.execAttestReport q k io s
  | .logStatus q k => Sys2Proof.Machine.execLogStatus q k s
  | .logRead q k io => Sys2Proof.Machine.execLogRead q k io s
  | .evtRouteSet q k => Sys2Proof.Machine.execEvtRouteSet q k s
  | .accessViolRead q k => Sys2Proof.Machine.execAccessViolRead q k s
  | .logRecordWrite lost => Sys2Proof.Machine.execLogRecordWrite lost s
  | .npsBoundary p => Sys2Proof.Machine.execNpsBoundary p s
  | .npsFrameSend p late => Sys2Proof.Machine.execNpsFrameSend p late s
  | .npsForward bytes => Sys2Proof.Machine.execNpsForward bytes s
  | .npsConnReceived c p bytes => Sys2Proof.Machine.execNpsConnReceived c p bytes s
  | .npsConnackReceived c p bytes => Sys2Proof.Machine.execNpsConnackReceived c p bytes s
  | .npsDataReceived c p bytes => Sys2Proof.Machine.execNpsDataReceived c p bytes s
  | .npsCloseReceived c p bytes => Sys2Proof.Machine.execNpsCloseReceived c p bytes s
  | .npsWatchdog c p => Sys2Proof.Machine.execNpsWatchdog c p s
  | .otpProgram m v => Sys2Proof.Machine.execOtpProgram m v s
  | .otpCmdFinalise m v => Sys2Proof.Machine.execOtpCmdFinalise m v s
  | .otpRescan m v => Sys2Proof.Machine.execOtpRescan m v s
  | .otpKeygen m v => Sys2Proof.Machine.execOtpKeygen m v s
  | .otpLcAdvance m v => Sys2Proof.Machine.execOtpLcAdvance m v s
  | .otpRbkAdvance m v => Sys2Proof.Machine.execOtpRbkAdvance m v s
  | .otpCommission m v commLow => Sys2Proof.Machine.execOtpCommission m v commLow s
  | .otpDone devs => Sys2Proof.Machine.execOtpDone devs s
  | .otpHoldRel m v => Sys2Proof.Machine.execOtpHoldRel m v s
  | .secHashMem m v => Sys2Proof.Machine.execSecHashMem m v s
  | .secHashBuf m v => Sys2Proof.Machine.execSecHashBuf m v s
  | .secVerify m v => Sys2Proof.Machine.execSecVerify m v s
  | .secSignId m v => Sys2Proof.Machine.execSecSignId m v s
  | .secRandom m v => Sys2Proof.Machine.execSecRandom m v s
  | .secIdPub m v => Sys2Proof.Machine.execSecIdPub m v s
  | .secHashAbort m v => Sys2Proof.Machine.execSecHashAbort m v s
  | .secDone bad met => Sys2Proof.Machine.execSecDone bad met s
  | .rindBreach mask => Sys2Proof.Machine.execRindBreach mask s
  | .debugUnlock key slot sig cut => Sys2Proof.Machine.execDebugUnlock key slot sig cut s
  | .powerOnReset v cut => Sys2Proof.Machine.execPowerOnReset v cut s
  | .nrstLow cut => Sys2Proof.Machine.execNrstLow cut s
  | .resetRequest m => Sys2Proof.Machine.execResetRequest m s
  | .thermalTrip sideB cut => Sys2Proof.Machine.execThermalTrip sideB cut s
  | .bdieSupervisor ok => Sys2Proof.Machine.execBdieSupervisor ok s
  | .pllLocked va vb => Sys2Proof.Machine.execPllLocked va vb s
  | .fuseSensing devs strap rng rind => Sys2Proof.Machine.execFuseSensing devs strap rng rind s
  | .bootRomStart ver commLow => Sys2Proof.Machine.execBootRomStart ver commLow s
  | .dramTrained ok => Sys2Proof.Machine.execDramTrained ok s
  | .configLoad c => Sys2Proof.Machine.execConfigLoad c s
  | .configSetup writes => Sys2Proof.Machine.execConfigSetup writes s
  | .startupTests failP failM tpLow => Sys2Proof.Machine.execStartupTests failP failM tpLow s
  | .bdieSelftest res => Sys2Proof.Machine.execBdieSelftest res s
  | .refclkLoss pll => Sys2Proof.Machine.execRefclkLoss pll s
  | .pllSerLoss quad => Sys2Proof.Machine.execPllSerLoss quad s
  | .xbLoss pll => Sys2Proof.Machine.execXbLoss pll s
  | .clockWindow a b => Sys2Proof.Machine.execClockWindow a b s
  | .clkGateWrite m v => Sys2Proof.Machine.execClkGateWrite m v s
  | .vsysWarn sideB mv => Sys2Proof.Machine.execVsysWarn sideB mv s
  | .thermalWarn k t => Sys2Proof.Machine.execThermalWarn k t s
  | .thermalRearm ts => Sys2Proof.Machine.execThermalRearm ts s
  | .xlkStatusFrame => Sys2Proof.Machine.execXlkStatusFrame s
  | .xlkMirrorTimeout => Sys2Proof.Machine.execXlkMirrorTimeout s
  | .xlkcSilence => Sys2Proof.Machine.execXlkcSilence s
  | .segmentDispatch => Sys2Proof.Machine.execSegmentDispatch s
  | .exceedBinEnd => Sys2Proof.Machine.execExceedBinEnd s
  | .coldInitComplete => Sys2Proof.Machine.execColdInitComplete s
  | .peakEpochEnd => Sys2Proof.Machine.execPeakEpochEnd s
  | .envWriteDone => Sys2Proof.Machine.execEnvWriteDone s
  | .envDigestDone => Sys2Proof.Machine.execEnvDigestDone s
  | .envVerifyReply => Sys2Proof.Machine.execEnvVerifyReply s
  | .envVerifyTimeout => Sys2Proof.Machine.execEnvVerifyTimeout s
  | .bEnvCheck => Sys2Proof.Machine.execBEnvCheck s
  | .bdieFrame => Sys2Proof.Machine.execBdieFrame s
  | .verdictReceived => Sys2Proof.Machine.execVerdictReceived s
  | .releaseReport => Sys2Proof.Machine.execReleaseReport s
  | .engineFaultNotice => Sys2Proof.Machine.execEngineFaultNotice s
  | .checkpointSigned => Sys2Proof.Machine.execCheckpointSigned s
  | .bCycleBoundary => Sys2Proof.Machine.execBCycleBoundary s
  | .envRequest => Sys2Proof.Machine.execEnvRequest s
  | .tpPeriodStart => Sys2Proof.Machine.execTpPeriodStart s
  | .pcieLinkLoss => Sys2Proof.Machine.execPcieLinkLoss s
  | .perst => Sys2Proof.Machine.execPerst s
  | .pcieLinkUp => Sys2Proof.Machine.execPcieLinkUp s
  | .nrstRelease => Sys2Proof.Machine.execNrstRelease s
  | .thermalRelease => Sys2Proof.Machine.execThermalRelease s
  | .firmwareStart => Sys2Proof.Machine.execFirmwareStart s
  | .safeReady => Sys2Proof.Machine.execSafeReady s
  | .bdieStartTimeout => Sys2Proof.Machine.execBdieStartTimeout s
  | .pllDdrLoss => Sys2Proof.Machine.execPllDdrLoss s
  | .pllDdrRelock => Sys2Proof.Machine.execPllDdrRelock s

end Sys2Proof.Machine
end

