-- ==== Sys2Proof/Machine/Step.lean ====
section
/-! DEFINITION. One step: the command at the front of the queue, or a tick of TIMEBASE where none waits. -/

namespace Sys2Proof.Machine

/-- A tick of the 10 ns TIMEBASE while no command waits (DESIGN CHOICE, log entry 1): a DOSE clock and the clock of
every timer end, and time passes. -/
def State.tick (s : State) : State :=
  if s.hw.boot.held then s else { s with hw := s.hw.tick }

/-- One step of the block. -/
def step (s : State) : Host.Outcome State Fault Refusal :=
  match s.pending with
  | [] => .next s.tick
  | c :: rest => exec c { s with pending := rest }

/-- `s` with the command that a word of the table spells at the front of its queue; no row of the table gives bits, so no
word spells a command. -/
def State.withFetchWord (s : State) (nbits w : Nat) : State :=
  match decodeTableWord nbits w with
  | some c => { s with pending := c :: s.pending }
  | none => s

end Sys2Proof.Machine
end

