-- ==== Sys2Proof/Machine/Lands.lean ====
section
/-! DEFINITION. The lands of the boot flash, of Ethernet, UART and JTAG (R488); the other land groups follow from the units behind
them: `Hw.emitLane`, `Hw.seoA`, `Hw.seoB`, `Hw.soSwitch`, `Hw.outputsLive`, `Hw.tpState`, `Hw.senses`, `Hw.measures` and `Hw.vfOn`. -/

namespace Sys2Proof.Machine

/-- The state of a group of lands: high impedance with its passive pull-down, pulled up weakly, driven low, idle, or driven. -/
inductive LandState where
  | highZ | pullUp | low | idle | driven
deriving DecidableEq, Repr

/-- The column RESET of R488: GLB_STATE.STATE is BOOT. -/
def Hw.inReset (h : Hw) : Bool := h.dev == devBoot

/-- The boot ROM has started (t4 of R464). -/
def Hw.pastRom (h : Hw) : Bool :=
  h.boot.phase != .por && h.boot.phase != .locked && h.boot.phase != .sensed

/-- The octal-SPI lands: driven by the boot ROM from t4 and by firmware, idle in SAFE_HOLD without firmware. -/
def Hw.ospiLands (h : Hw) : LandState :=
  if h.inReset then if h.pastRom then .driven else .highZ
  else if h.dev == devSafeHold && !h.boot.svcUp then .idle
  else .driven

/-- ETH_RST_N: low in reset, and in SAFE_HOLD while the service cores are in reset. -/
def Hw.ethRst (h : Hw) : LandState := if h.inReset || (h.dev == devSafeHold && !h.boot.svcUp) then .low else .driven

/-- The other Ethernet outputs. -/
def Hw.ethLands (h : Hw) : LandState := if h.inReset then .highZ else .driven

/-- UART_TX and JTAG_TDO. -/
def Hw.consoleLands (h : Hw) : LandState := if h.inReset then .pullUp else .driven

end Sys2Proof.Machine
end

