-- ==== Sys2Proof/WellFormed.lean ====
section
/-! DEFINITION. Which commands the surroundings can send: the checks on operands that their types do not make. -/

namespace Sys2Proof

open Sys2Proof.Machine

/-- A system address of 40 bits. -/
def addrOk (a : Nat) : Bool := decide (a < 2 ^ 40)

/-- A byte offset into the 7 GiB of DRAM. -/
def dramOffsetOk (off : Nat) : Bool := decide (off < 0x1C0000000)

/-- The DRAM offset of an error, where there is one. -/
def errOk : Option Nat → Bool
  | none => true
  | some off => dramOffsetOk off

/-- A transfer of 1, 2, 4 or 8 bytes, aligned to its size. -/
def transferOk (a size : Nat) : Bool := [1, 2, 4, 8].contains size && a % size == 0 && addrOk a

/-- An output that exists: 16 SO pairs, 16 DQs. -/
def OutSwOk : OutSw → Bool
  | .soP n | .soM n | .dq n => decide (n < 16)

/-- A capability word as a CAP block holds it: version and features in a byte each, the check-value identity in four (R52). -/
def capOk (c : CapWord) : Bool := decide (c.ver < 2 ^ 8 ∧ c.feat < 2 ^ 8 ∧ c.crcId < 2 ^ 32)

/-- The terminals of one field die: 24 digital inputs, 8 sources, pairs and DQs, and its supply readings. -/
def frameOk (f : FieldFrame) : Bool :=
  decide (f.di < 2 ^ 24 ∧ f.tpRb < 2 ^ 8 ∧ f.pRb < 2 ^ 8 ∧ f.mRb < 2 ^ 8 ∧ f.dqRb < 2 ^ 8 ∧
    f.vIn < 2 ^ 16 ∧ f.vOut < 2 ^ 16 ∧ f.iIn < 2 ^ 16 ∧ f.iOut < 2 ^ 16)

/-- A reading of a fuse copy: one of three, of one of 1,024 words. -/
def deviationOk (d : Deviation) : Bool := decide (d.copy < 3 ∧ d.word < 1024 ∧ d.normal < 2 ^ 32 ∧ d.tight < 2 ^ 32)

/-- What host and DRAM give a command that moves data. -/
def ioOk (io : NcpIo) : Bool := errOk io.dramErr

/-- What a package may say: 256 functions of known types, 16 lanes, and words of 32 bits. -/
def pkgOk (c : PkgConfig) : Bool :=
  c.fns.all (fun p => decide (p.1 < 256 ∧ p.2.fgrp < 16 ∧ p.2.pair < 3)) && c.lanes.all (fun p => decide (p.1 < 16)) &&
    c.peers.all (fun p => decide (p.1 < 16))

/-- The operands of a command are ones that the surroundings can give. -/
def Instr.wellFormed : Instr → Bool
  | .registerWrite _ a size v => transferOk a size && decide (v < 2 ^ (8 * size))
  | .unlistedAccess _ a _ _ => transferOk a 4
  | .bar0Access off _ _ => transferOk off 4 && decide (off < 0x2000000)
  | .rcFieldRead _ a rd => transferOk a rd.size
  | .lockBitSet _ a _ => transferOk a 4
  | .fieldLinkFrame _ _ fr => frameOk fr
  | .capReceived _ _ cap _ => capOk cap
  | .capAckReceived _ _ cap => capOk cap
  | .egressCredit _ k => decide (k < 256)
  | .xlkRetrainDone up => decide (up.ver < 2 ^ 16)
  | .patrolScrub _ ue => ue.all dramOffsetOk
  | .envImageChecked met => errOk met.checking && errOk met.loading
  | .segmentRelease _ met => met.records.all fun j => decide (j < 32)
  | .ledgerHeader met => met.ue.all fun k => decide (k < 131072)
  | .podReloadDone _ met => errOk met.ue
  | .crcMemoryDone _ met => errOk (met.ue.map (·.2))
  | .secDone _ met => errOk met.ue
  | .checkComplete _ e => e.ceil.all (fun i => decide (i < 2048)) && e.intg.all (fun i => decide (i < 2048))
  | .evalBoundary late => decide (late < 2 ^ 16)
  | .demagComplete w => OutSwOk w
  | .outputOverload w => OutSwOk w
  | .outputOvertemp w => OutSwOk w
  | .outputCooled w => OutSwOk w
  | .cliValueForm _ _ codes => !codes.isEmpty && codes.all (fun x => decide (x < 2 ^ 24))
  | .sqFetch packet => packet.length == 64
  | .deviceInfo _ _ io => ioOk io
  | .stageWrite _ _ io => ioOk io
  | .cfgVerify _ _ io => ioOk io
  | .cfgInstall _ _ io => ioOk io
  | .cfgCommission _ _ io _ => ioOk io
  | .cfgSlotsRead _ _ io => ioOk io
  | .otpRead _ _ io => ioOk io
  | .laneStatusRead _ _ io => ioOk io
  | .zoneStatusRead _ _ io => ioOk io
  | .safetyStatusRead _ _ io => ioOk io
  | .safetyTimingRead _ _ io => ioOk io
  | .exchangeStatusRead _ _ io => ioOk io
  | .ioRead _ _ io => ioOk io
  | .ledgerStatus _ _ io => ioOk io
  | .ledgerRead _ _ io => ioOk io
  | .fwVerify _ _ io => ioOk io
  | .fwInstall _ _ io => ioOk io
  | .attestIdentity _ _ io => ioOk io
  | .attestReport _ _ io => ioOk io
  | .logRead _ _ io => ioOk io
  | .otpDone devs => devs.all deviationOk
  | .fuseSensing devs _ _ _ => devs.all deviationOk
  | .debugUnlock key slot sig _ => key.length == 57 && decide (slot < 8) && sig.length == 114
  | .bootRomStart ver _ => decide (ver < 2 ^ 16)
  | .bdieSelftest res => decide (res.ver < 2 ^ 16)
  | .configLoad c => pkgOk c
  | .configSetup writes => writes.all fun w => transferOk w.1 4
  | .startupTests failP failM tpLow => decide (failP < 2 ^ 16 ∧ failM < 2 ^ 16 ∧ tpLow < 2 ^ 16)
  | .thermalRearm ts => ts.length == 7
  | _ => true

end Sys2Proof
end

