-- ==== Sys2Proof/Safety.lean ====
section
/-! DEFINITION. The terms that statements about the machine use: what a step leaves unchanged, when a module reacts, and
when a master's access is granted. -/

namespace Sys2Proof.Machine

/-- The state with other hardware: the non-volatile storage and the waiting commands stay. -/
def State.withHw (s : State) (h : Hw) : State := { s with hw := h }

/-- The module is not held in reset. -/
abbrev State.Awake (s : State) : Prop := s.hw.boot.held = false

/-- The stores of DRAM, the private memories, the integrators and the tile integrators are in their canonical form. -/
abbrev State.StoresOk (s : State) : Prop :=
  Store.wf (fun _ => 0) s.hw.dram = true ∧ Store.wf (fun _ => 0) s.hw.priv = true ∧
    Store.wf s.hw.pool.coldOf s.hw.pool.integrators = true ∧ Store.wf s.hw.b.coldOf s.hw.b.tiles = true

/-- The hardware `u` differs from `h` at most in the words listed in `ws`, in EVT_PEND and EVT_MERGECNT, and in the
occurrences that wait for an MSI-X message, a log record or a capture. -/
def Hw.OnlyWords (h u : Hw) (ws : List (Reg × Nat)) : Prop :=
  u = { h with regs := u.regs, msixQ := u.msixQ, logQ := u.logQ, pulses := u.pulses } ∧
    ∀ r n, (r, n) ∉ ws → r ≠ .EVT_PEND → r ≠ .EVT_MERGECNT → u.word r n = h.word r n

/-- The hardware `u` differs from `h` at most in the registers listed in `rs`, in EVT_PEND and EVT_MERGECNT, and in the
occurrences that wait for an MSI-X message, a log record or a capture. -/
def Hw.OnlyRegs (h u : Hw) (rs : List Reg) : Prop :=
  u = { h with regs := u.regs, msixQ := u.msixQ, logQ := u.logQ, pulses := u.pulses } ∧
    ∀ r n, r ∉ rs → r ≠ .EVT_PEND → r ≠ .EVT_MERGECNT → u.word r n = h.word r n

/-- Master `m` is granted a write of word `n` of register `r`: it is present and not a standby, the register's access
list names it, and neither a binding nor the split of its Pod keeps it out (R14, R314, R333, R351). -/
def Hw.granted (h : Hw) (m : Nat) (r : Reg) (n : Nat) : Bool :=
  !h.isStandby m && h.mayWrite m r && !(h.bindingOf r n).any (· != m) &&
    !(decide (m < 6) && h.podState m == podSplit && !splitMayWrite m (r.addr n))

/-- The commands that act on a module held in reset: the resets themselves, the ends of the holds, and what happens to the B-die's
clock and supply, to the PCI Express link and to the mesh. -/
def actsHeld : Instr → Bool
  | .powerOnReset _ _ | .nrstLow _ | .nrstRelease | .thermalTrip _ _ | .thermalRelease | .bdieSupervisor _ | .xbLoss _ | .pcieLinkLoss
  | .pcieLinkUp | .perst | .rindBreach _ => true
  | _ => false

/-- The commands that may change the fuse array or the boot flash: the end of a fuse operation, the boot ROM, firmware's start, a
record written into the event log, installations and the trial mark, resets that cut an operation, and what may end the start in SAFE_HOLD with a boot record. -/
def changesStorage : Instr → Bool
  | .otpDone _ | .bootRomStart _ _ | .firmwareStart | .cfgInstall _ _ _ | .trialRun _ _ | .fwInstall _ _ _ | .powerOnReset _ _
  | .nrstLow _ | .thermalTrip _ _ | .debugUnlock _ _ _ _ | .fuseSensing _ _ _ _ | .bdieSelftest _ | .bdieStartTimeout | .rindBreach _
  | .refclkLoss _ | .clockWindow _ _ | .xlkRetrainDone _ | .logRecordWrite _ => true
  | _ => false

/-- From `h` to `u`, command `k` of queue `q` got its one reply: its data, where it returns any, went to the host's buffer, its
CQ entry follows, the command has left the queue, and the queue has one outstanding command less (R382, R386, R388). -/
def Hw.Answered (h u : Hw) (q k : Nat) (c : NcpCmd) (status detail gen rlen : Nat) (data res : List Byte) : Prop :=
  u.out = h.out ++ (if data.isEmpty then [] else [.hostWrite c.dptr data]) ++
      [.hostWrite (h.cqAddr q) (h.cqEntry q (replyBytes c status detail gen rlen res))] ∧
    (u.queue q).cmds = (h.queue q).cmds.eraseIdx k ∧ u.get F.QUE_STAT_OUTST q = h.get F.QUE_STAT_OUTST q - 1

/-- From `h` to `u` nothing changed but what answering a command of queue `q` writes: its CQ pointer and count, the event
registers, the queues, and what was sent or waits to be logged, signalled or captured. -/
def Hw.OnlyAnswer (h u : Hw) (q : Nat) : Prop :=
  u = { h with regs := u.regs, out := u.out, queues := u.queues, msixQ := u.msixQ, logQ := u.logQ, pulses := u.pulses } ∧
    ∀ r n, (r, n) ∉ [(Reg.QUE_CQPTR, q), (.QUE_STAT, q)] → r ≠ .EVT_PEND → r ≠ .EVT_MERGECNT → u.word r n = h.word r n

end Sys2Proof.Machine
end

