-- ==== Sys2Proof/Certificates/Slice0/Obligations.lean ====
section
/-! DEFINITION. The statements for the provers, family by family. -/

open Sys2Proof Sys2Proof.Machine

/-- A step takes the command at the front of the queue: it is that command's effect on the state with the queue's rest.
-/
def Obligations.StepRunsFront : Prop := ∀ (s : State) (c : Instr) (rest : List Instr), s.pending = c :: rest →
  step s = exec c { s with pending := rest }

/-- The model's choice (log entry 1): with no command waiting a step is one tick of TIMEBASE, which leaves DRAM, the
lanes, the non-volatile storage and the queue as they are; a module held in reset does nothing. -/
def Obligations.IdleStep : Prop := ∀ s : State, s.pending = [] → ∃ t, step s = .next t ∧ t.pending = [] ∧ t.nv = s.nv ∧
  (s.hw.boot.held = true → t = s) ∧ (s.Awake → t.hw.time = s.hw.time + 1 ∧ t.hw.dram = s.hw.dram ∧ t.hw.lanes = s.hw.lanes)

/-- R17, R464: right after reset every register field has its reset value, and Pod 0 is PRIMARY and vote source; the
device is in BOOT; no memory, queue, session, operation or waiting command holds anything, so that the stores of DRAM, the private
memories, the integrators and the tiles are in their canonical form. What the spec gives no reset value for is the model's choice:
inner state that starts empty (log entry 2), the fuse array and the boot flash blank at first (DESIGN CHOICE, log entry 3). -/
def Obligations.ResetState : Prop :=
  let h := State.reset.hw
  (∀ r n, (r, n) ≠ (Reg.POD_STAT, 0) → h.word r n = r.resetWord) ∧ h.podState 0 = podPrimary ∧ h.on F.POD_STAT_VOTE 0 = true ∧
  h.dev = devBoot ∧ h.dram = [] ∧ h.priv = [] ∧ h.toA = [] ∧ h.toB = [] ∧ h.xlkD = [] ∧ h.ncp.sessions = [] ∧ h.otpOp = none ∧
  h.secOp = none ∧ h.out = [] ∧ h.time = 0 ∧ h.boot.held = false ∧ State.reset.pending = [] ∧
  (∀ n, h.lane n = {}) ∧ (∀ q, h.queue q = {}) ∧ (∀ n, n < 16 → h.seoA n = false ∧ h.seoB n = false) ∧
  State.reset.StoresOk ∧ Store.wf (fun _ => 0) State.reset.nv.fuses = true ∧ ∀ c w, State.reset.nv.copy c w = 0

/-- Every command runs: it never faults and is never refused, in any state and with any operands, and it leaves the
commands that wait as they are. -/
def Obligations.EveryCommandRuns : Prop := ∀ (c : Instr) (s : State), ∃ t, exec c s = .next t ∧ t.pending = s.pending

/-- R469, R472, R474, R475, R477, R481, R482, R484: a module held in reset reacts to nothing but resets, the ends of the
holds, the clock and supply of the B-die, the PCI Express link, and a breach of the mesh. That the other rows do nothing then is the
model's reading (DEDUCED, log entries 6 and 77). -/
def Obligations.HeldModuleIgnores : Prop := ∀ (c : Instr) (s : State), s.hw.boot.held = true → actsHeld c = false → exec c s = .next s

/-- R410, R430, R440, R441, R446, R456: what is kept without power changes only at the end of a fuse operation, in the
boot ROM, at firmware's start, when firmware has copied the boot records, by an installation or a trial mark, by a reset that cuts
a fuse operation, and where a start ends in SAFE_HOLD. -/
def Obligations.KeptStorage : Prop := ∀ (c : Instr) (s t : State), changesStorage c = false → exec c s = .next t → t.nv = s.nv

/-- R430, R441, R444, R447, R449, R473: no step clears a fuse. Whatever command is taken, every bit that a copy of a
word holds burned is burned in it afterwards. -/
def Obligations.FusesOnlyBurn : Prop := ∀ s t : State, step s = .next t →
  ∀ c w k, nbit (s.nv.copy c w) k = true → nbit (t.nv.copy c w) k = true

/-- The fuse array keeps its canonical form at every step: keys rise strictly and no entry holds 0. -/
def Obligations.FuseStoreForm : Prop := ∀ s t : State, Store.wf (fun _ => 0) s.nv.fuses = true → step s = .next t →
  Store.wf (fun _ => 0) t.nv.fuses = true

/-- DRAM, the private memories of the masters, the integrators of the pool and the tile integrators of the B-die keep the
canonical form of their stores at every step: keys rise strictly, and no entry holds what an unlisted key reads as. What an unlisted
integrator reads as follows from the cold values and the zone map; where a step leaves those as they are, the form stays. -/
def Obligations.StoreForms : Prop := ∀ s t : State, step s = .next t →
  (Store.wf (fun _ => 0) s.hw.dram = true → Store.wf (fun _ => 0) t.hw.dram = true) ∧
  (Store.wf (fun _ => 0) s.hw.priv = true → Store.wf (fun _ => 0) t.hw.priv = true) ∧
  (Store.sortedFrom none s.hw.pool.integrators = true → Store.sortedFrom none t.hw.pool.integrators = true) ∧
  (Store.sortedFrom none s.hw.b.tiles = true → Store.sortedFrom none t.hw.b.tiles = true) ∧
  ((∀ e, t.hw.pool.coldOf e = s.hw.pool.coldOf e) → Store.wf s.hw.pool.coldOf s.hw.pool.integrators = true →
    Store.wf t.hw.pool.coldOf t.hw.pool.integrators = true) ∧
  ((∀ k, t.hw.b.coldOf k = s.hw.b.coldOf k) → Store.wf s.hw.b.coldOf s.hw.b.tiles = true →
    Store.wf t.hw.b.coldOf t.hw.b.tiles = true)

/-- R44, R45, R47, R374, R379, R384, R477, R481: frames. These commands change no register but those named here and the
event registers, and nothing else of the hardware but what waits to be signalled, logged or captured. R412, R419, R426, R477 to
R484: no command of the peer link, of the clocks and monitors but the loss of a lane PLL, or of the cross links stores
anything in DRAM or in a private memory, or touches the commands that wait. -/
def Obligations.Frames : Prop :=
  (∀ s : State, s.Awake →
    let frame (c : Instr) (ws : List (Reg × Nat)) : Prop := ∃ u, exec c s = .next (s.withHw u) ∧ s.hw.OnlyWords u ws
    (∀ e : Fin 128, frame (.eventFire e) []) ∧ frame .xlkMirrorTimeout [(.XLK_STAT, 0), (.XLK_ERR, 0)] ∧
    (∀ d, frame (.xlkTrainingLoss d) [(.XLK_STAT, 0), (.XLK_ERR, 0)]) ∧
    (∀ (d : Bool) (ver : Nat), (if d then s.hw.b.verD else s.hw.b.verC).isSome → frame (.xlkRetrainDone ⟨d, ver⟩) [(.XLK_STAT, 0), (.GLB_ID, 0)]) ∧
    (∀ code, frame (.refrateChange code) [(.DDR_STAT, 0), (.DDR_EVT, 0)]) ∧
    frame .pllDdrLoss [(.CLK_STAT, 0), (.CLK_EVT, 0)] ∧ frame .pllDdrRelock [(.CLK_STAT, 0)] ∧
    (∀ mv, frame (.vsysWarn false mv) [(.CLK_STAT, 0), (.CLK_VMON, 0), (.CLK_EVT, 0)]) ∧
    (∀ (n : Fin 16) (k : Nat), frame (.egressCredit n k) [(.LANE_EG_STAT, n)]) ∧
    (∀ (q : Fin 16) (w : Bool), frame (.queueTransferError q w) [(.QUE_ERR, q), (.QUE_STAT, q)]) ∧
    (∀ (m : Master) (q : Fin 16) (v : Word), frame (.cqDoorbellRow m q v) [(.QUE_ERR, q), (.QUE_CQPTR, q)])) ∧
  (∀ (s t : State) (ch : Chan) (p : Fin 16) (bs : List Byte) (b : Bool) (a k : Nat) (l : XlkLink)
      (m : Master) (v : Word) (mv : Fin 65536) (sensor : Fin 7) (temp : Int) (temps : List Int) (code : Fin 256) (ue : List Nat),
    ∀ c ∈ [Instr.npsBoundary p, .npsFrameSend p b, .npsForward bs, .npsConnReceived ch p bs, .npsConnackReceived ch p bs,
        .npsDataReceived ch p bs, .npsCloseReceived ch p bs, .npsWatchdog ch p, .refclkLoss b, .pllDdrLoss, .pllDdrRelock, .xbLoss b,
        .clockWindow a k, .clkGateWrite m v, .vsysWarn b mv, .thermalWarn sensor temp, .thermalRearm temps, .xlkStatusFrame,
        .xlkMirrorTimeout, .xlkBlock l a, .xlkTrainingLoss b, .xlkRetrainDone ⟨b, a⟩, .xlkcSilence, .patrolScrub k ue, .refrateChange code],
      exec c s = .next t → t.hw.dram = s.hw.dram ∧ t.hw.priv = s.hw.priv ∧ t.pending = s.pending)

/-- R10: a register access of another width or alignment than a naturally aligned 32-bit one has no effect, and its read
returns 0; a 64-bit access of the host is two 32-bit accesses, lower address first. An access outside every range of the
address map is recorded whatever its width: R33 says so of an access, and that it holds of every master and width is the model's
reading (DEDUCED, log entries 10 and 95); that a standby's writes there are not recorded is log entry 11. -/
def Obligations.AccessWidth : Prop := ∀ (s : State) (m : Master) (a size v : Nat) (hit : DdrHit), s.Awake →
  s.hw.present m = true → s.hw.memPlace m a size = none →
  let h := s.hw
  (∀ r n, (h.word r n).toNat < 2 ^ 32) ∧
  ((size = 4 ∧ a % 4 ≠ 0) ∨ (size ≠ 4 ∧ ¬(m.val = 0x0A ∧ size = 8)) →
    if mapped a then
      exec (.registerWrite m a size v) s = .next s ∧ exec (.rcFieldRead m a ⟨size, hit⟩) s = .next (s.withHw (h.answer 0))
    else
      exec (.registerWrite m a size v) s = .next (s.withHw (if h.isStandby m then h else h.violation m a true)) ∧
        exec (.rcFieldRead m a ⟨size, hit⟩) s = .next (s.withHw ((h.violation m a false).answer 0))) ∧
  (m.val = 0x0A → size = 8 →
    exec (.registerWrite m a 8 v) s = .next (s.withHw
      ((h.writeMap s.nv m a (BitVec.ofNat 32 v)).writeMap s.nv m (a + 4) (BitVec.ofNat 32 (v / 2 ^ 32)))) ∧
    let lo := h.readMap m a
    let hi := lo.2.readMap m (a + 4)
    exec (.rcFieldRead m a ⟨8, hit⟩) s = .next (s.withHw (hi.2.answer (lo.1.toNat + 2 ^ 32 * hi.1.toNat))))

/-- R11, R15, R16: what a write leaves in each field of a register by its type: RW and, until its lock, RWL take an
accepted code and keep their value for a reserved one, W1C and W1S clear and set bits, and RO, RC and WO keep what they
hold; bits outside every field do not change. -/
def Obligations.FieldTypes : Prop := ∀ (r : Reg) (locked : Bool) (old v : Word),
  (∀ f ∈ r.info.fields,
    let o := nfield old.toNat f.lo f.w
    let x := nfield v.toNat f.lo f.w
    let takes : Bool := f.ok.isEmpty || f.ok.any fun p => decide (p.1 ≤ x ∧ x ≤ p.2)
    nfield (r.after locked old v).toNat f.lo f.w =
      match f.ty with
      | .rw => if takes then x else o
      | .rwl => if !locked && takes then x else o
      | .w1c => Nat.land o (2 ^ f.w - 1 - x)
      | .w1s => Nat.lor o x
      | .ro => o
      | .rc => o
      | .wo => o) ∧
  ∀ j, j < 32 → (∀ f ∈ r.info.fields, j < f.lo ∨ f.lo + f.w ≤ j) → (r.after locked old v).getLsbD j = old.getLsbD j

/-- R14, R20, R33, R41: an access by a master that is not listed, one of BDIE outside the registers, and one of host software outside
every range of the address map, reads 0, writes nothing, and is recorded: the first one with its master, direction and address,
each one in the count. That BDIE's access to a window or memory is recorded, like one to a register, is log entry 131 (DEDUCED). -/
def Obligations.AccessViolations : Prop := ∀ (s : State) (m : Master) (v : Word), s.Awake → s.hw.present m = true →
  let h := s.hw
  let recorded (g u : Hw) (a : Nat) (write : Bool) (x : Nat) : Prop := u.bus = x ∧
    u.get F.GLB_AVCNT_COUNT 0 = min (g.get F.GLB_AVCNT_COUNT 0 + 1) 65535 ∧ u.on F.GLB_AVIOL_VALID 0 = true ∧
    (if g.on F.GLB_AVIOL_VALID 0 then u.on F.GLB_AVIOL_OVF 0 = true ∧ u.word .GLB_AVADDR 0 = g.word .GLB_AVADDR 0 ∧
        u.get F.GLB_AVIOL_MASTER 0 = g.get F.GLB_AVIOL_MASTER 0
      else u.get F.GLB_AVIOL_MASTER 0 = m ∧ u.on F.GLB_AVIOL_WRITE 0 = write ∧ u.get F.GLB_AVADDR_ADDR 0 = a % 2 ^ 32) ∧
    u = { g with regs := u.regs, bus := u.bus, resp := u.resp } ∧ (write = false → u.resp = .data) ∧
    ∀ r n, r ≠ .GLB_AVCNT → r ≠ .GLB_AVIOL → r ≠ .GLB_AVADDR → u.word r n = g.word r n
  let special : List Reg := [.MBX_MSG, .MBX_SEND, .MBX_TAKE, .MBX_STAT, .MBX_SEM]
  (∀ a r n, h.memPlace m a 4 = none → a % 4 = 0 → decodeReg a = some (r, n) → r ∉ special →
    (h.mayRead m r = false → ∃ u, exec (.unlistedAccess m a false v) s = .next (s.withHw u) ∧ recorded h.tmrSettle u a false 0) ∧
    (h.mayWrite m r = false → h.isStandby m = false →
      ∃ u, exec (.unlistedAccess m a true v) s = .next (s.withHw u) ∧ recorded h.tmrSettle u a true h.bus)) ∧
  (∀ a, m.val = 0x0B → h.memPlace m a 4 = none → a % 4 = 0 → decodeReg a = none →
    (∃ u, exec (.unlistedAccess m a false v) s = .next (s.withHw u) ∧ recorded h u a false 0) ∧
    ∃ u, exec (.unlistedAccess m a true v) s = .next (s.withHw u) ∧ recorded h u a true h.bus) ∧
  (∀ off, m.val = 0x0A → off % 4 = 0 → mapped off = false → decodeReg off = none → h.windowWord off = none →
    ¬(msixTblBase ≤ off ∧ off < msixTblBase + 256) → off ≠ msixPbaBase →
    (∃ u, exec (.bar0Access off false v) s = .next (s.withHw u) ∧ recorded h u off false 0) ∧
    ∃ u, exec (.bar0Access off true v) s = .next (s.withHw u) ∧ recorded h u off true h.bus)

/-- R42, R43, and of each block R46, R85, R127, R172, R225, R250, R291, R429: a read of an RC field by a master whose bit in
GLB_NOCLR is 1, or of a class other than POD and SVC, returns the value and changes no register; a write to GLB_NOCLR changes only the bit of the writing master's own ID. -/
def Obligations.ReadsWithoutClearing : Prop := ∀ (s : State) (m : Master) (hit : DdrHit), s.Awake → s.hw.present m = true →
  let h := s.hw.tmrSettle
  (∀ a r n, s.hw.memPlace m a 4 = none → a % 4 = 0 → decodeReg a = some (r, n) → r ∉ [Reg.MBX_MSG, .MBX_SEND, .MBX_TAKE, .MBX_SEM] →
    h.mayRead m r = true → h.bitOf F.GLB_NOCLR_NOCLR 0 m = true ∨ 10 ≤ m.val →
    exec (.rcFieldRead m a ⟨4, hit⟩) s = .next (s.withHw (h.answer (h.readWord r n).toNat))) ∧
  (∀ v : Word, h.granted m .GLB_NOCLR 0 = true → ∃ u, exec (.noClrWrite m v) s = .next (s.withHw u) ∧
    h.OnlyWords u [(.GLB_NOCLR, 0)] ∧ ∀ j, j < 32 → u.bitOf F.GLB_NOCLR_NOCLR 0 j = if j = m.val then wbit v m else h.bitOf F.GLB_NOCLR_NOCLR 0 j)

/-- R11, R36, R42, R43, R47, R503: bus accesses that take effect. A word write at a register's address is a write of that
register; a write that sets a lock still takes effect for the fields that the lock holds, and a later one leaves them; a
read by a Pod or service core that may clear returns the value and clears its RC fields; service cores reach DRAM, Pods
do not; a corrected error that a read of DRAM meets is counted and the read returns the data, and an uncorrectable one
makes it end in an error completion and is counted and recorded with its address and the reader; that the data of the last
read then stand is the model's choice (DESIGN CHOICE, log entry 96). -/
def Obligations.BusAccesses : Prop := ∀ (s : State) (m : Master), s.Awake → s.hw.present m = true →
  let h := s.hw.tmrSettle
  (∀ a r n (v : Word), s.hw.memPlace m a 4 = none → a % 4 = 0 → decodeReg a = some (r, n) →
    r.addr n = a ∧ exec (.registerWrite m a 4 v.toNat) s = .next (s.withHw (s.hw.regWrite s.nv m r n v)) ∧
    exec (.lockBitSet m a v) s = exec (.registerWrite m a 4 v.toNat) s ∧
    (h.granted m r n = true → r = .TMR_BIND ∨ r = .CRC_BIND ∨ r = .SEC_BIND ∨ r = .NPS_GCTL ∨ r = .LANE_CFG ∨ r = .SFN_CFG ∨ r = .CLI_CFG →
      ∃ u, exec (.lockBitSet m a v) s = .next (s.withHw u) ∧ u.word r n = r.after (h.lockOf r n) (h.word r n) v ∧
        h.OnlyWords u [(r, n)]) ∧
    (r ∉ [Reg.MBX_MSG, .MBX_SEND, .MBX_TAKE, .MBX_SEM] → h.mayRead m r = true → m.val < 10 → h.bitOf F.GLB_NOCLR_NOCLR 0 m = false →
      h.isStandby m = false → ∃ u, exec (.rcFieldRead m a ⟨4, .clean⟩) s = .next (s.withHw u) ∧ u.bus = (h.readWord r n).toNat ∧ u.resp = .data ∧
        u.word r n = r.cleared (h.word r n) ∧ ∀ q k, (q, k) ≠ (r, n) → u.word q k = h.word q k)) ∧
  (∀ a size v, 6 ≤ m.val → m.val < 10 → s.hw.memPlace m a size = some (.dram (a - dramBase)) →
    ∃ u, exec (.registerWrite m a size v) s = .next (s.withHw u) ∧ u.dramBytes (a - dramBase) size = bytesLE size v ∧ u.regs = s.hw.regs ∧
      ∀ b, b < a - dramBase ∨ a - dramBase + size ≤ b → u.dramBytes b 1 = s.hw.dramBytes b 1) ∧
  (∀ a size, 6 ≤ m.val → m.val < 10 → s.hw.memPlace m a size = some (.dram (a - dramBase)) →
    exec (.rcFieldRead m a ⟨size, .clean⟩) s = .next (s.withHw (s.hw.answer (ofBytesLE (s.hw.dramBytes (a - dramBase) size)))) ∧
    (∃ u, exec (.rcFieldRead m a ⟨size, .corrected⟩) s = .next (s.withHw u) ∧ u.bus = ofBytesLE (s.hw.dramBytes (a - dramBase) size) ∧
      u.resp = .data ∧ u.on F.DDR_EVT_CE 0 = true ∧ u.get F.DDR_CECNT_COUNT 0 = min (s.hw.get F.DDR_CECNT_COUNT 0 + 1) (2 ^ 32 - 1)) ∧
    ∃ u, exec (.rcFieldRead m a ⟨size, .uncorrectable⟩) s = .next (s.withHw u) ∧ u.bus = s.hw.bus ∧ u.resp = .error ∧
      u.on F.DDR_EVT_UE 0 = true ∧ u.get F.DDR_UECNT_COUNT 0 = min (s.hw.get F.DDR_UECNT_COUNT 0 + 1) (2 ^ 32 - 1) ∧
      u.get F.DDR_UEADDR_LO_VALUE 0 + 2 ^ 32 * u.get F.DDR_UEADDR_HI_VALUE 0 = (a - dramBase) / 8 * 8 ∧
      u.get F.DDR_UEMST_VALUE 0 = m.val) ∧
  (∀ a size off, m.val < 6 → s.hw.memPlace m a size ≠ some (.dram off))

/-- R44, R45: the mirror. A status frame that arrives over a trained XLK_C from a running B-die writes the B-die's state,
lines, engine faults, zones, inputs, switches and analogue values into the mirror and makes it valid, and changes
nothing but registers, and nothing else updates the mirror (DEDUCED, log entry 17); a link that is not trained drops the frame; 100 µs without one makes it invalid and sets BSTAT_LATE. R45, R482: the cross links. A block that
fails its check is sent again and counted, at the fourth failure its message is lost and a DROP flag set; a link that
loses training is down with its flag, and up again once retrained with a running B-die, whose step GLB_ID.BSTEP shows once XLK_C
is up (R1); a link first trained since the B-die's start shows its version word, and one that does not match GLB_IFVER.XLK takes the
device to SAFE_HOLD with the cause XLK_VERSION (R24; that each link is checked once and BVER shows the last is log entry 117, DEDUCED); 200 µs of silence on XLK_C after the start take the device to SAFE_HOLD with the cause BDIE_START. R47: the DRAM controller. The scrubber, while it runs,
counts each corrected error, and counts an uncorrectable one and records its address with the scrub mark; a new
refresh-rate code of the devices is shown with its event. -/
def Obligations.CrossLinks : Prop :=
  (∀ s : State, s.Awake →
    let h := s.hw
    exec .xlkMirrorTimeout s = .next (s.withHw ((h.setB F.XLK_STAT_MIRROR_VALID 0 false).setB F.XLK_ERR_BSTAT_LATE 0 true)) ∧
    (h.b.runs = false → exec .xlkStatusFrame s = .next s) ∧
    (h.on F.XLK_STAT_XLKC_UP 0 = false → h.b.runs = true →
      exec .xlkStatusFrame s = .next (s.withHw (h.setB F.XLK_ERR_XLKC_DROP 0 true))) ∧
    (h.on F.XLK_STAT_XLKC_UP 0 = true → h.b.runs = true → ∃ u, exec .xlkStatusFrame s = .next (s.withHw u) ∧ u = { h with regs := u.regs } ∧
      u.on F.XLK_STAT_MIRROR_VALID 0 = true ∧ u.get F.XLK_STAT_BSTATE 0 = h.b.state % 16 ∧ u.on F.XLK_STAT_CFGOK 0 = h.b.cfgOk ∧
      u.on F.XLK_STAT_BRUN 0 = h.b.brun ∧ u.on F.XLK_STAT_DIGVALID 0 = h.b.digValid ∧ u.on F.XLK_STAT_SELFTEST_OK 0 = h.b.selftestOk ∧
      (∀ n < 16, u.bitOf F.XLK_BSEO_LO 0 n = h.seoB n ∧ u.bitOf F.XLK_BENGF_LO 0 n = decide ((h.bEng n).fault ≠ .none) ∧
        u.bitOf F.XLK_BENV_VALUE 0 n = (h.bEng n).envOk ∧ u.bitOf F.XLK_BTP_LO 0 n = (h.tp .b n).fault ∧
        u.bitOf F.XLK_BTP_HI 0 n = (h.tp .b n).rb ∧ u.bitOf F.XLK_BSO_HI 0 n = (h.so n).mRb ∧
        u.bitOf F.XLK_BNPSV_VALUE 0 n = (h.conn .b n).valid) ∧
      u.get F.XLK_BSO_LO 0 = h.fio.cmdM % 2 ^ 16 ∧ (∀ w < 2, u.get F.XLK_BZONE_OPEN w = nfield h.b.zones (32 * w) 32) ∧
      (∀ j < 48, u.bitOf F.XLK_BDI_FILT (j / 32) (j % 32) = (h.di .b j).filt) ∧
      (∀ n < 8, u.get F.XLK_SMEAS_VALUE n = unsigned32 (h.cli .b n).meas % 2 ^ 32 ∧ u.bitOf F.XLK_SCLI_VALID 0 n = (h.cli .b n).valid) ∧
      u.on F.XLK_BFLINK_F0 0 = (h.link .b 0).err ∧ u.on F.XLK_BFLINK_F1 0 = (h.link .b 1).err ∧
      u.get F.XLK_BRPTCNT_COUNT 0 = h.b.reports % 2 ^ 32 ∧ u.on F.XLK_BHEALTH_THERM 0 = h.b.therm ∧
      u.get F.CLK_VMON_VSYSB 0 = h.b.vsysMv % 2 ^ 16)) ∧
  (∀ s : State, s.Awake →
    let h := s.hw
    (∀ l fails, ∃ u, exec (.xlkBlock l fails) s = .next (s.withHw u) ∧
      u.get F.XLK_RETRYCNT_XLKD 0 = (if l = .d then min (h.get F.XLK_RETRYCNT_XLKD 0 + min fails 3) 65535 else h.get F.XLK_RETRYCNT_XLKD 0) ∧
      u.get F.XLK_RETRYCNT_XLKC 0 = (if l = .d then h.get F.XLK_RETRYCNT_XLKC 0 else min (h.get F.XLK_RETRYCNT_XLKC 0 + min fails 3) 65535) ∧
      u.xlkD = (if l = .d ∧ 3 < fails then h.xlkD.tail else h.xlkD) ∧ u.toB = (if l = .cToB ∧ 3 < fails then h.toB.tail else h.toB) ∧
      u.toA = (if l = .cToA ∧ 3 < fails then h.toA.tail else h.toA) ∧
      (3 < fails → l = .d → h.xlkD ≠ [] → u.on F.XLK_ERR_XLKD_DROP 0 = true) ∧
      (3 < fails → l = .cOther ∨ (l = .cToB ∧ h.toB ≠ []) ∨ (l = .cToA ∧ h.toA ≠ []) → u.on F.XLK_ERR_XLKC_DROP 0 = true)) ∧
    exec (.xlkTrainingLoss true) s = .next (s.withHw ((h.setB F.XLK_STAT_XLKD_UP 0 false).setB F.XLK_ERR_XLKD_DOWN 0 true)) ∧
    exec (.xlkTrainingLoss false) s = .next (s.withHw ((h.setB F.XLK_STAT_XLKC_UP 0 false).setB F.XLK_ERR_XLKC_DOWN 0 true)) ∧
    (∀ (d : Bool) (ver : Nat),
      let up := if d then F.XLK_STAT_XLKD_UP else F.XLK_STAT_XLKC_UP
      let checked := (if d then h.b.verD else h.b.verC).isSome
      let trained (d : Bool) : Hw := if d then h.setB F.XLK_STAT_XLKD_UP 0 true else (h.setB F.XLK_STAT_XLKC_UP 0 true).set F.GLB_ID_BSTEP 0 0xA2
      (h.b.runs = false → exec (.xlkRetrainDone ⟨d, ver⟩) s = .next s) ∧
      (h.b.runs = true → checked = true → exec (.xlkRetrainDone ⟨d, ver⟩) s = .next (s.withHw (trained d))) ∧
      (h.b.runs = true → checked = false → ver % 16 = h.get F.GLB_IFVER_XLK 0 →
        ∃ u, exec (.xlkRetrainDone ⟨d, ver⟩) s = .next (s.withHw u) ∧ u.on up 0 = true ∧ u.get F.XLK_STAT_BVER 0 = ver % 16 ∧ u.dev = h.dev ∧
          (d = false → u.get F.GLB_ID_BSTEP 0 = 0xA2)) ∧
      (h.b.runs = true → checked = false → ver % 16 ≠ h.get F.GLB_IFVER_XLK 0 →
        ∃ u nv, exec (.xlkRetrainDone ⟨d, ver⟩) s = .next { s with hw := u, nv := nv } ∧ u.dev = devSafeHold ∧
          u.on F.XLK_ERR_VERSION 0 = true ∧ u.get F.XLK_STAT_BVER 0 = ver % 16 ∧
          (h.dev ≠ devSafeHold → u.get F.GLB_STATE_HOLD_CAUSE 0 = 1))) ∧
    (h.dev = devBoot ∨ h.dev = devSafeHold → exec .xlkcSilence s = .next s) ∧
    (h.dev ≠ devBoot → h.dev ≠ devSafeHold → ∃ u, exec .xlkcSilence s = .next (s.withHw u) ∧ u.dev = devSafeHold ∧
      u.get F.GLB_STATE_HOLD_CAUSE 0 = 5 ∧ u.fio.cmdP = 0 ∧ u.fio.cmdM = 0 ∧ u.b.evaluating = false ∧
      u.bitOf F.EVT_PEND_PEND 1 15 = true ∧ (∀ n < 16, u.seoA n = false ∧ u.seoB n = false))) ∧
  (∀ s : State, s.Awake →
    let h := s.hw
    (∀ ce ue, h.scrubbing = false → exec (.patrolScrub ce ue) s = .next s) ∧
    (h.scrubbing = true →
      (∀ ce, 0 < ce → ∃ u, exec (.patrolScrub ce []) s = .next (s.withHw u) ∧ u.on F.DDR_EVT_CE 0 = true ∧
        u.get F.DDR_CECNT_COUNT 0 = min (h.get F.DDR_CECNT_COUNT 0 + ce) (2 ^ 32 - 1) ∧ u.get F.DDR_UECNT_COUNT 0 = h.get F.DDR_UECNT_COUNT 0 ∧
        (h.on F.DDR_EVT_CE 0 = false → h.on F.DDR_IEN_CE 0 = true → u.bitOf F.EVT_PEND_PEND 3 30 = true)) ∧
      (∀ off, off < 0x1C0000000 → ∃ u, exec (.patrolScrub 0 [off]) s = .next (s.withHw u) ∧ u.on F.DDR_EVT_UE 0 = true ∧
        u.get F.DDR_UECNT_COUNT 0 = min (h.get F.DDR_UECNT_COUNT 0 + 1) (2 ^ 32 - 1) ∧
        u.get F.DDR_UEADDR_LO_VALUE 0 + 2 ^ 32 * u.get F.DDR_UEADDR_HI_VALUE 0 = off / 8 * 8 ∧
        u.bitOf F.DDR_UEMST_VALUE 0 8 = true ∧ u.dram = h.dram)) ∧
    (∀ code : Fin 256, ∃ u, exec (.refrateChange code) s = .next (s.withHw u) ∧ u.get F.DDR_STAT_REFRATE 0 = code ∧
      (h.get F.DDR_STAT_REFRATE 0 ≠ code → u.on F.DDR_EVT_TEMP 0 = true) ∧ (h.get F.DDR_STAT_REFRATE 0 = code → u = h)))

/-- R79, R81, R82: what a write of LANE_CTL by a granted master does to the state of each direction of the lane. A write
of EN = 1 starts training from OFF and leaves a pending enable in SHUTTING_DOWN; EN = 0 takes FAULT to OFF and every
direction that is on to SHUTTING_DOWN, and clears the pending enable. A write with LRST = 1 has its EN take effect first, and its
LRST after that (DEDUCED, log entry 20): it clears the pending enable and FCAUSE, and takes every direction that is not in OFF by
then to SHUTTING_DOWN. With EN = 1 in it a direction in OFF has started training and so shuts down too; with EN = 0 in it a direction
in FAULT has gone to OFF, and one in OFF stays there. -/
def Obligations.LaneControlTable : Prop := ∀ (s : State) (m : Master) (n : Fin 16) (v : Word), s.Awake → s.hw.present m = true →
  s.hw.tmrSettle.granted m .LANE_CTL n = true →
  let h := s.hw.tmrSettle
  (wbit v 1 = false → ∃ u, exec (.laneEnable m n v) s = .next (s.withHw u) ∧ u.on F.LANE_CTL_EN n = true ∧
    (∀ d, u.laneState n d = if h.laneState n d = laneOff then laneTraining else h.laneState n d) ∧
    (∀ d, h.laneState n d = laneShutting → u.on F.LANE_STAT_PEND n = true)) ∧
  (wbit v 1 = false → ∃ u, exec (.laneDisable m n v) s = .next (s.withHw u) ∧ u.on F.LANE_CTL_EN n = false ∧
    u.on F.LANE_STAT_PEND n = false ∧
    ∀ d, u.laneState n d = if h.laneState n d = laneOff ∨ h.laneState n d = laneFault then laneOff else laneShutting) ∧
  (∃ u, exec (.laneReset m n v) s = .next (s.withHw u) ∧ u.on F.LANE_STAT_PEND n = false ∧ u.get F.LANE_STAT_FCAUSE n = 0 ∧
    u.word .LANE_ERR n = 0 ∧ u.word .LANE_FRMCNT n = 0 ∧
    ∀ d, u.laneState n d =
      if wbit v 0 then laneShutting
      else if h.laneState n d = laneOff ∨ h.laneState n d = laneFault then laneOff else laneShutting)

/-- R49, R51, R54: block lock and the blocks that no frame carries. Lock acquired starts the window of invalid headers
afresh; lock lost takes a direction in RESYNC or ACTIVE back to TRAINING; a control block of unknown type is counted,
and the sixteenth within 64 blocks loses the lock; 16 TS blocks under block lock in TRAINING have CAP sent, while the
transmitters are on and CLK_GATE runs the clock of the quad, and without block lock they do nothing; a quad whose clock is stopped
acquires no lock (R480). That every control block, and no other, is counted in the window is log entry 19. R52 to R56, R79: training of a direction in TRAINING that has block lock and has sent its CAP. A CAP with the lane's CRC_ID and a common version decides the
agreed word; the CAPACK that carries it ends training in RESYNC (ingress) or ACTIVE (egress) with the agreed version; a
CAPACK that differs, a CAP with another CRC_ID and 5 ms without t4 are failed attempts, and the third in a row puts both
directions in FAULT with its cause (R55 says the lane; both directions is DEDUCED, log entry 21); egress that returns to service takes
an ACTIVE ingress to RESYNC, unless a buffered frame starts a slice (R64; DEDUCED, log entry 127); the peer's LINKDOWN starts the drain. R79, R81: at the end of the drain each
direction that shuts down goes to TRAINING with EN at 1 or a pending enable, and to OFF otherwise; the pending enable is
used up. -/
def Obligations.LaneTraining : Prop :=
  (∀ (s : State) (n : Fin 16) (d : Dir), s.Awake →
    (s.hw.quadOn n = true → ∃ u, exec (.blockLockAcquired n d) s = .next (s.withHw u) ∧ u.on (lockFld d) n = true ∧
      ((u.lane n).training d).invalid = [] ∧ ∀ e, u.laneState n e = s.hw.laneState n e) ∧
    (s.hw.quadOn n = false → exec (.blockLockAcquired n d) s = .next s) ∧
    (∃ u, exec (.blockLockLost n d) s = .next (s.withHw u) ∧ u.on (lockFld d) n = false ∧
      u.laneState n d =
        if s.hw.on (lockFld d) n = true ∧ laneLive (s.hw.laneState n d) = true then laneTraining else s.hw.laneState n d) ∧
    (∀ gap, s.hw.on (lockFld d) n = true →
      ∃ u, exec (.controlUnknown n d gap) s = .next (s.withHw u) ∧
        u.on (lockFld d) n =
          decide ((((s.hw.lane n).training d).invalid.filter fun k => decide (k + gap < 64)).length < 15)) ∧
    (s.hw.laneState n d = laneTraining → s.hw.on (lockFld d) n = true → s.hw.quadOn n = true →
      s.hw.dev = devStartup ∨ s.hw.dev = devRun ∨ s.hw.dev = devTrial →
      exec (.tsSequence n d) s = .next (s.withHw ((s.hw.updLane n fun l => l.setTraining d { l.training d with ts := true }).emit
        (.laneBlock n d blkCap (blockContent
          (capContent { ver := s.hw.ownMaxVer n d, feat := s.hw.ownFeat n d, crcId := s.hw.ownCrcId n d } (ownRole d))))))) ∧
    (s.hw.laneState n d = laneTraining → s.hw.on (lockFld d) n = false → exec (.tsSequence n d) s = .next s)) ∧
  (∀ (s : State) (n : Fin 16) (d : Dir), s.Awake → s.hw.laneState n d = laneTraining →
    let t := (s.hw.lane n).training d
    let lock := s.hw.on (lockFld d) n = true
    (∀ (c : CapWord) (role : Fin 256) (ver : Nat), lock → t.ts = true →
        c.crcId = s.hw.ownCrcId n d → negotiateVer c.ver (s.hw.ownMaxVer n d) = some ver →
      ∃ u, exec (.capReceived n d c role) s = .next (s.withHw u) ∧ u.laneState n d = laneTraining ∧
        ((u.lane n).training d).agreed = some { ver := ver, feat := s.hw.agreeFeat n d ver c.feat, crcId := c.crcId }) ∧
    (∀ (c : CapWord) (role : Fin 256), lock → t.ts = true → c.crcId ≠ s.hw.ownCrcId n d → 2 ≤ t.fails →
      ∃ u, exec (.capReceived n d c role) s = .next (s.withHw u) ∧ u.get F.LANE_STAT_FCAUSE n = fcCapCrc d ∧
        ∀ e, u.laneState n e = laneFault) ∧
    (∀ (c : CapWord) (role : Fin 256), lock → t.ts = false →
      ∃ u, exec (.capReceived n d c role) s = .next (s.withHw u) ∧ u.lane n = s.hw.lane n ∧ u.out = s.hw.out ∧
        u.laneState n d = laneTraining) ∧
    (∀ a, lock → t.agreed = some a →
      ∃ u, exec (.capAckReceived n d a) s = .next (s.withHw u) ∧
        match d with
        | .ingress => u.laneState n .ingress = laneResync ∧ u.get F.LANE_STAT_NEGVER n = a.ver % 256
        | .egress => u.laneState n .egress = laneActive ∧ u.get F.LANE_EG_STAT_NEGVER n = a.ver % 256 ∧
          u.laneState n .ingress =
            if s.hw.laneState n .ingress = laneActive ∧ (fromSync (s.hw.lane n).buf).isEmpty = true then laneResync
            else s.hw.laneState n .ingress) ∧
    (∀ a c, lock → t.agreed = some a → c ≠ a → t.fails < 2 →
      ∃ u, exec (.capAckReceived n d c) s = .next (s.withHw u) ∧ u.laneState n d = laneTraining ∧
        ((u.lane n).training d).fails = t.fails + 1 ∧ ((u.lane n).training d).agreed = none) ∧
    (∃ u, exec (.trainingTimeout n d) s = .next (s.withHw u) ∧
      if 2 ≤ t.fails then u.get F.LANE_STAT_FCAUSE n = fcTrain d ∧ ∀ e, u.laneState n e = laneFault
      else u.laneState n d = laneTraining ∧ ((u.lane n).training d).fails = t.fails + 1) ∧
    (∃ u, exec (.linkDown n d) s = .next (s.withHw u) ∧ u.laneState n d = laneShutting)) ∧
  (∀ (s : State) (n : Fin 16), s.Awake →
    ∃ u, exec (.drainComplete n) s = .next (s.withHw u) ∧ u.on F.LANE_STAT_PEND n = false ∧
      ∀ d, u.laneState n d =
        if s.hw.laneState n d = laneShutting then
          (if s.hw.on F.LANE_STAT_PEND n = true ∨ s.hw.on F.LANE_CTL_EN n = true then laneTraining else laneOff)
        else s.hw.laneState n d)

/-- R511: in OFF, TRAINING and FAULT the ingress direction ignores frames; nothing changes. -/
def Obligations.LaneIgnoresFrames : Prop := ∀ (s : State) (n : Fin 16) (bytes : List Byte) (early : Bool), s.Awake →
  s.hw.laneState n .ingress = laneOff ∨ s.hw.laneState n .ingress = laneTraining ∨ s.hw.laneState n .ingress = laneFault →
  exec (.ingressFrame n ⟨bytes, early⟩) s = .next s

/-- R60, R61, R63, R84: a frame that meets every condition of R60 enters the lane buffer with its sequence number, layer
and frame count, using one credit, and the lane is ACTIVE; a frame that fails conditions in ACTIVE is discarded and
counted once with the flag of every condition it fails, and with no slice start held in the buffer the lane enters
RESYNC. R65, R66, R69, R71, R73, R74, R77,
R108, R109: more frame errors than ERRLIM fault the lane; the first buffered frame is submitted with its lowest free
entry and goes to XLK_D as received; a slot start advances the slot count and generates a decay segment for every
segment number that was not submitted; a CREDIT block of 1 to 15 adds to the credits of the driver board, which are held
up to 15 (log entry 86), one is used by the frame that egress sends, and a released segment that has waited longer than
STALL µs for one faults the lane, in whatever state egress is. A fault of the lane puts both its directions in FAULT (DEDUCED, log
entry 21). -/
def Obligations.LaneFrames : Prop :=
  (∀ (s : State) (n : Fin 16) (bytes : List Byte) (early : Bool), s.Awake →
    laneLive (s.hw.laneState n .ingress) = true →
    let hd := frameHdr bytes
    (s.hw.frameErrors n bytes = [] →
      (s.hw.laneState n .ingress = laneResync ∧ hd.sync = true ∧ hd.seg = 0) ∨
        (s.hw.laneState n .ingress = laneActive ∧ (hd.sync && hd.seg == 0) = false ∧ s.hw.orderErrors n hd = []) →
      ∃ u, exec (.ingressFrame n ⟨bytes, early⟩) s = .next (s.withHw u) ∧ u.laneState n .ingress = laneActive ∧
        u.get F.LANE_SEQ_VALUE n = hd.seq % 2 ^ 32 ∧ u.get F.LANE_LAYER_VALUE n = hd.layer % 2 ^ 32 ∧
        u.get F.LANE_FRMCNT_COUNT n = (s.hw.get F.LANE_FRMCNT_COUNT n + 1) % 2 ^ 32 ∧
        (u.lane n).buf = (s.hw.lane n).buf ++ [{ bytes := bytes, hdr := hd, tRx := s.hw.time }] ∧
        (u.lane n).credits = (s.hw.lane n).credits - 1) ∧
    (s.hw.allErrors n bytes ≠ [] → s.hw.laneState n .ingress = laneActive → fromSync (s.hw.lane n).buf = [] →
      ∃ u, exec (.ingressFrame n ⟨bytes, early⟩) s = .next (s.withHw u) ∧ u.laneState n .ingress = laneResync ∧ (u.lane n).buf = [] ∧
        u.get F.LANE_ERRCNT_COUNT n = min (s.hw.get F.LANE_ERRCNT_COUNT n + 1) (2 ^ 32 - 1) ∧
        ∀ k ∈ s.hw.allErrors n bytes, u.bitOf ⟨.LANE_ERR, 0, 11⟩ n k = true)) ∧
  (∀ (s : State) (n : Fin 16), s.Awake →
    (s.hw.get F.LANE_CFG_ERRLIM n < s.hw.recentErrors n → s.hw.laneState n .ingress ≠ laneFault →
      ∃ u, exec (.laneErrlim n) s = .next (s.withHw u) ∧ u.get F.LANE_STAT_FCAUSE n = fcErrlim ∧ ∀ d, u.laneState n d = laneFault) ∧
    (∀ f rest e, (s.hw.lane n).buf = f :: rest → (s.hw.lane n).freeEntry = some e → laneLive (s.hw.laneState n .ingress) = true →
      ¬(f.hdr.seg = 0 ∧ (s.hw.lane n).admitted = true) → s.hw.on F.XLK_STAT_XLKD_UP 0 = true →
      ∃ u, exec (.segmentSubmit n) s = .next (s.withHw u) ∧ (u.lane n).buf = rest ∧
        u.xlkD = s.hw.xlkD ++ [{ lane := n, entry := e, bytes := f.bytes }] ∧ (u.lane n).submitted = f.hdr.seg + 1 ∧
        (u.lane n).segs.length = (s.hw.lane n).segs.length + 1) ∧
    (s.hw.on F.CHK_STAT_ACTIVE 0 = true → (s.hw.lane n).cur = none →
      ∃ u, exec (.slotStart n) s = .next (s.withHw u) ∧
        u.get F.LANE_SLOTCNT_COUNT n = (s.hw.get F.LANE_SLOTCNT_COUNT n + 1) % 2 ^ 32 ∧ (u.lane n).admitted = false ∧
        (u.lane n).decays.length =
          (s.hw.lane n).decays.length + ((List.range 32).filter fun k => !nbit (s.hw.lane n).slotDone k).length) ∧
    (∀ k, s.hw.laneState n .egress = laneActive → exec (.egressCredit n k) s = .next (if 1 ≤ k ∧ k ≤ 15 then
      s.withHw (s.hw.set F.LANE_EG_STAT_CREDITS n (min 15 (s.hw.get F.LANE_EG_STAT_CREDITS n + k))) else s)) ∧
    (∀ e rest, (s.hw.lane n).egress = e :: rest → s.hw.get F.LANE_EG_STAT_CREDITS n ≠ 0 → s.hw.laneState n .egress = laneActive →
      ∃ u, exec (.egressSend n) s = .next (s.withHw u) ∧ (u.lane n).egress = rest ∧
        u.get F.LANE_EG_STAT_CREDITS n = s.hw.get F.LANE_EG_STAT_CREDITS n - 1 ∧
        u.get F.LANE_EG_SEGCNT_COUNT n = (s.hw.get F.LANE_EG_SEGCNT_COUNT n + 1) % 2 ^ 32) ∧
    (∀ e rest, (s.hw.lane n).egress = e :: rest → s.hw.get F.LANE_EG_STAT_CREDITS n ≠ 0 ∨
        s.hw.time ≤ e.since + 100 * s.hw.get F.LANE_EG_CFG_STALL n → exec (.egressStall n) s = .next s) ∧
    (∀ e rest, (s.hw.lane n).egress = e :: rest → s.hw.get F.LANE_EG_STAT_CREDITS n = 0 →
      e.since + 100 * s.hw.get F.LANE_EG_CFG_STALL n < s.hw.time → s.hw.laneState n .egress ≠ laneFault →
      ∃ u, exec (.egressStall n) s = .next (s.withHw u) ∧ u.get F.LANE_STAT_FCAUSE n = fcStall ∧
        (∀ d, u.laneState n d = laneFault) ∧ u.bitOf F.EVT_PEND_PEND ((16 + n) / 32) ((16 + n) % 32) = true))

/-- R86, R88, R90, R91: one emitter's check. A closed zone gives dose 0. The dose never exceeds what was asked or the
ceiling; a violation is a dose above the ceiling in an open zone; an exceedance is a lit emitter whose sum passes the
limit, and the integrator written back is then the limit, or the base where that already lies above it; in every case it
is the decayed integrator plus the dose given, so that saturation never hides an exceedance. -/
def Obligations.EmitterCheck : Prop := ∀ (isOpen : Bool) (d c a k l : Nat), d < 65536 → c < 65536 → a < 2 ^ 32 → 1 ≤ k → k ≤ 15 →
  1 ≤ l → l ≤ 0xFFFF0000 →
  let r := checkEmitter isOpen d c a k l
  let base := a - a / 2 ^ k
  let asked := if isOpen then d else 0
  r.dose ≤ min asked c ∧ r.sum = base + r.dose ∧ r.sum ≤ max base l ∧
    (r.viol = true ↔ c < asked) ∧ (r.exceed = true ↔ 0 < min asked c ∧ l < base + min asked c) ∧
    (r.exceed = true → r.sum = max base l) ∧ (r.exceed = false → r.dose = min asked c)

/-- R89: over any run of slots, each with its zone open or closed, the dose asked, the ceiling, the decay shift, the
limit and the dose that was released at last (no more than the check gave), channel A's integrator never falls below the
integrator that the doses actually released would produce. -/
def Obligations.IntegratorCoversReleased : Prop :=
  ∀ (slots : List (Bool × Nat × Nat × Nat × Nat × Nat)) (a b : Nat), b ≤ a → a < 2 ^ 32 →
    let run := slots.foldl (fun (p : Nat × Nat) (x : Bool × Nat × Nat × Nat × Nat × Nat) =>
      let r := checkEmitter x.1 x.2.1 x.2.2.1 p.1 x.2.2.2.1 x.2.2.2.2.1
      (r.sum, min 0xFFFFFFFF (tileDecay p.2 x.2.2.2.1 + min x.2.2.2.2.2 r.dose))) (a, b)
    run.2 ≤ run.1

/-- R86, R88, R93, R100, R101, R103, R104, R107, R110: segments in the pool. SEGMENT_DISPATCH gives the lowest free check
engine the candidate of the first offering lane at or after the pointer, with open_eff as it stands, and moves the pointer
past that lane; with no free engine or no candidate nothing changes. SEGMENT_CHECK_COMPLETE of a check engine with a segment
frees the engine, or takes one that shuts down to OFFLINE, or ONLINE with a pending enable; it leaves the integrator of each
emitter of the segment at what its check gives (a ceiling word that cannot be corrected counts as 0, such an integrator as
0xFFFFFFFF) and every other integrator as it was, and a slice segment that is not to be discarded waits as written, with the
doses that its check gives, or with 0 in every dose where POLICY blanks it; an engine with no segment changes nothing.
EXCEED_BIN_END starts a new bin in each zone, keeps the 15 before it, and sets the trip latch where they exceed EXLIM.
SCOREBOARD_STALL of a slice or decay segment that the scoreboard holds sets HAZ_STALL. R104 to R106: CHK_CEOFF_WRITE by a
granted master that would take a fifth check engine out of ONLINE changes nothing; another one is taken by each check engine
by its row of the state table. CHECK_ENGINE_SELFTEST_DONE of an OFFLINE engine leaves it FAILED with CE_FAIL, or ONLINE, or
OFFLINE and tested while its CEOFF bit is 1; an engine that shut down without a segment has left that state by then. R480: with the
clock of the DOSE domain stopped nothing is dispatched, checked or tested. Which engines count for the fifth (log entry 28, and 128
for one that the same write returns), that the self-test's end brings the DOSE clock by which an engine without a segment has left
(log entry 1), and what a stopped domain stops (log entry 136) are the model's reading. -/
def Obligations.PoolChecks : Prop :=
  (∀ s : State, s.Awake →
    (s.hw.on F.CLK_GATE_DOSE 0 = false → ∀ (k : Fin 16) (e : EccHits) (pass : Bool),
      ∀ c ∈ [Instr.segmentDispatch, .checkComplete k e, .selftestDone k pass], exec c s = .next s) ∧
    (∀ k n c, s.hw.on F.CLK_GATE_DOSE 0 = true → s.hw.freeCe = some k →
      (((List.range 16).map fun i => (s.hw.get F.CHK_RR_PTR 0 + i) % 16).find? fun n => (s.hw.candidate n).isSome) = some n →
      s.hw.candidate n = some c →
      ∃ u j, exec .segmentDispatch s = .next (s.withHw u) ∧ (u.ce k).job = some j ∧ j.lane = n ∧
        j.openEff = s.hw.openMask n ∧ u.get F.CHK_RR_PTR 0 = (n + 1) % 16 ∧
        match c with
        | .slice x => j.decay = false ∧ j.entry = x.entry ∧ j.seg = x.hdr.seg ∧ j.slot = x.slot
        | .decay d => j.decay = true ∧ j.seg = d.seg ∧ j.slot = d.slot) ∧
    (s.hw.freeCe = none ∨ (∀ n < 16, s.hw.candidate n = none) → exec .segmentDispatch s = .next s) ∧
    (∀ (k : Fin 16) (e : EccHits) (j : CheckJob), s.hw.on F.CLK_GATE_DOSE 0 = true → (s.hw.ce k).job = some j →
      let doses := if j.decay then []
        else (((s.hw.lane j.lane).segs.find? fun x => !x.generated && x.entry == j.entry).map fun x => x.doses).getD []
      let result (i : Nat) : EmitterResult :=
        let em := emitterOf j.lane j.seg i
        let z := s.hw.zoneOf (tileOf em)
        checkEmitter (nbit j.openEff z) (doses.getD i 0) (if e.ceil.contains i || s.hw.ceilBad em then 0 else s.hw.ceiling em)
          (if e.intg.contains i then 0xFFFFFFFF else s.hw.integrator em) (s.hw.get F.ZONE_CFG_K z) (s.hw.get F.ZONE_LIM_VALUE z)
      let blanks (i : Nat) : Bool :=
        let pol := s.hw.get F.ZONE_CFG_POLICY (s.hw.zoneOf (tileOf (emitterOf j.lane j.seg i)))
        (result i).viol && (pol == policyBlank || pol == policyTrip)
      ∃ u, exec (.checkComplete k e) s = .next (s.withHw u) ∧ (u.ce k).job = none ∧
        ((u.ce k).state = if (s.hw.ce k).state = .shuttingDown then (if (s.hw.ce k).pendEn then .online else .offline)
          else (s.hw.ce k).state) ∧
        (∀ i < 2048, u.integrator (emitterOf j.lane j.seg i) = (result i).sum) ∧
        (∀ em, (∀ i < 2048, em ≠ emitterOf j.lane j.seg i) → u.integrator em = s.hw.integrator em) ∧
        ∀ x, j.decay = false → ((s.hw.lane j.lane).segs.find? fun x => !x.generated && x.entry == j.entry) = some x →
          x.phase = .checking → x.discard = false →
          ∃ y ∈ (u.lane j.lane).segs, y.entry = j.entry ∧ y.phase = .written ∧ y.blank = (List.range 2048).any blanks ∧
            ∀ i < 2048, y.doses.getD i 0 = if y.blank then 0 else (result i).dose) ∧
    (∀ (k : Fin 16) (e : EccHits), (s.hw.ce k).job = none → exec (.checkComplete k e) s = .next s) ∧
    (∃ u, exec .exceedBinEnd s = .next (s.withHw u) ∧ ∀ z < 64,
      let bins := if (s.hw.binsOf z).all (· == 0) then [] else 0 :: (s.hw.binsOf z).take 15
      u.binsOf z = bins ∧
        u.on F.ZONE_STAT_TRIP z = (s.hw.on F.ZONE_STAT_TRIP z || decide (s.hw.get F.ZONE_CFG_EXLIM z < bins.foldl (· + ·) 0))) ∧
    (∀ (n : Fin 16) (g : Fin 32),
      (∃ x ∈ (s.hw.lane n).segs, x.generated = false ∧ x.hdr.seg = g ∧ x.phase = .queued ∧ s.hw.held n g x.slot = true) ∨
        (∃ d ∈ (s.hw.lane n).decays, d.seg = g ∧ d.phase = .queued ∧ s.hw.held n g d.slot = true) →
      ∃ u, exec (.scoreboardStall n g) s = .next (s.withHw u) ∧ u.on F.CHK_ERR_HAZ_STALL 0 = true ∧ s.hw.OnlyRegs u [.CHK_ERR])) ∧
  (∀ s : State, s.Awake →
    (∀ (m : Master) (v : Word), s.hw.present m = true → s.hw.tmrSettle.granted m .CHK_CEOFF 0 = true →
      let h := s.hw.tmrSettle
      let off (k : Nat) : Bool := nbit (v.toNat % 65536) k
      ∃ u, exec (.ceoffWrite m v) s = .next (s.withHw u) ∧
        if 4 < ((List.range 16).filter fun k => decide ((h.ce k).state ≠ .online) || off k).length then u = h
        else u.get F.CHK_CEOFF_OFF 0 = v.toNat % 65536 ∧ ∀ k < 16,
          match (h.ce k).state with
          | .online => (u.ce k).state = (if off k then .shuttingDown else .online) ∧ (u.ce k).job = (h.ce k).job
          | .shuttingDown => (u.ce k).state = .shuttingDown ∧ (u.ce k).pendEn = !off k ∧ (u.ce k).job = (h.ce k).job
          | .offline => (u.ce k).state = if !off k && (h.ce k).testDone then .online else .offline
          | .failed => (u.ce k).state = .failed) ∧
    (∀ k : Fin 16, s.hw.on F.CLK_GATE_DOSE 0 = true →
      let c := s.hw.ce k
      (c.state = .offline ∧ c.testDone = false) ∨ (c.state = .shuttingDown ∧ c.job = none ∧ c.pendEn = false) →
      (∃ u, exec (.selftestDone k false) s = .next (s.withHw u) ∧ (u.ce k).state = .failed ∧ u.on F.CHK_ERR_CE_FAIL 0 = true) ∧
      (∃ u, exec (.selftestDone k true) s = .next (s.withHw u) ∧
        if s.hw.bitOf F.CHK_CEOFF_OFF 0 k then (u.ce k).state = .offline ∧ (u.ce k).testDone = true
        else (u.ce k).state = .online)) ∧
    (∀ (k : Fin 16) (pass : Bool), s.hw.on F.CLK_GATE_DOSE 0 = true → (s.hw.ce k).state = .shuttingDown → (s.hw.ce k).job = none →
      (s.hw.ce k).pendEn = true →
      ∃ u, exec (.selftestDone k pass) s = .next (s.withHw u) ∧ (u.ce k).state = .online))

/-- R112 to R114, R116, R126: the zone map comes from staging, whole or not at all; ACTIVATE is accepted once, with the
zone map loaded and every engine's envelope confirmed, and holds every zone cold; cold initialisation ends with every
integrator at the cold value of its zone and leaves the cold hold as it stands; an epoch's end copies the peaks and ends the cold hold where the peak allows it.
R118 to R125: an envelope load step by step. A granted START while a load runs is refused with BUSY; with an open zone
of the group it is refused with ZONE_OPEN; else the group's engines lose their VLD bits and the image that CHK_ENV_SRC
names at START is checked. A good image goes on to writing and another one ends with BAD_IMAGE; a read error while the image
is checked or written ends with READ_ERR, with the integrators as they are and the ceilings of the load's engines no longer
held; writing keeps every integrator; the digest goes to the B-die, whose answer ends the load with OK and the VLD bits, or with DIGEST; no answer
ends it with BDIE_TIMEOUT. R47: the reads of staging count the corrected errors that they meet. R480: with the clock of the DOSE
domain stopped, cold initialisation and the loader's writing and digest wait (log entry 136). The bytes of a zone map behind the end
of DRAM (DESIGN CHOICE, log entry 90), that any reply for the group ends the load that runs (DESIGN CHOICE, log entry 91), that
CHK_ENV_SRC is taken at START (DEDUCED, log entry 31), the time from which epochs run and when LOADED is set (DESIGN CHOICE, log
entries 118 and 119) and the order within a write of CHK_CTL (DESIGN CHOICE, log entry 120) are the model's. -/
def Obligations.PoolActivation : Prop :=
  (∀ s : State, s.Awake →
    (∀ (m : Master) (v : Word), s.hw.present m = true → s.hw.tmrSettle.granted m .CHK_CTL 0 = true →
      let h := s.hw.tmrSettle
      let img := h.dramBytes (stagingBase + 64 * h.get F.CHK_ZMAP_SRC_ADDR 0) 16384
      (wbit v 0 = false → wbit v 2 = false → h.on F.CHK_STAT_ACTIVE 0 = false →
        ∀ ce, ∃ u, exec (.zoneMapLoad m ⟨v, ce⟩) s = .next (s.withHw u) ∧
          u.get F.DDR_CECNT_COUNT 0 = min (h.get F.DDR_CECNT_COUNT 0 + ce) (2 ^ 32 - 1) ∧
          if img.all fun b => decide (b.toNat < 64) then
            u.on F.CHK_STAT_ZMAP_OK 0 = true ∧ ∀ t < 16384, u.zoneOf t = (img.getD t 0).toNat
          else u = (h.setB F.CHK_ERR_ZMAP_BAD 0 true).ddrCe ce) ∧
      (wbit v 1 = false → wbit v 2 = false → h.on F.CHK_CTL_ACTIVATE 0 = false →
        if h.on F.CHK_STAT_ZMAP_OK 0 = true ∧ h.get F.CHK_ENV_VLD_VLD 0 = 0xFFFF then
          ∃ u, exec (.chkActivate m v) s = .next (s.withHw u) ∧ u.on F.CHK_CTL_ACTIVATE 0 = true ∧ u.on F.CHK_STAT_COLDINIT 0 = true ∧
            (∀ z < 64, u.on F.ZONE_STAT_COLD z = true) ∧ h.OnlyRegs u [.CHK_CTL, .CHK_STAT, .ZONE_STAT]
        else exec (.chkActivate m v) s = .next (s.withHw (h.setB F.CHK_ERR_ACT_REFUSED 0 true)))) ∧
    (s.hw.on F.CLK_GATE_DOSE 0 = false → ∀ c ∈ [Instr.coldInitComplete, .envWriteDone, .envDigestDone], exec c s = .next s) ∧
    (s.hw.on F.CLK_GATE_DOSE 0 = true → s.hw.on F.CHK_STAT_COLDINIT 0 = true →
      ∃ u, exec .coldInitComplete s = .next (s.withHw u) ∧ u.on F.CHK_STAT_ACTIVE 0 = true ∧ u.on F.CHK_STAT_COLDINIT 0 = false ∧
        (∀ z < 64, u.on F.ZONE_STAT_COLD z = s.hw.on F.ZONE_STAT_COLD z) ∧ u.wrSeq = 0 ∧ u.ledger.rdLo = s.hw.ledger.rdLo ∧
        ∀ e, s.hw.zoneOf (tileOf e) < 64 → u.integrator e = s.hw.coldValue (s.hw.zoneOf (tileOf e))) ∧
    (∃ u, exec .peakEpochEnd s = .next (s.withHw u) ∧ ∀ z < 64,
      let pk := Store.get (fun _ => 0) s.hw.pool.peaks z
      u.get F.ZONE_PEAK_VALUE z = pk % 2 ^ 32 ∧ u.on F.ZONE_STAT_PKVALID z = true ∧
        u.on F.ZONE_STAT_COLD z = (s.hw.on F.ZONE_STAT_COLD z && !decide (pk ≤ s.hw.get F.ZONE_COLDREL_VALUE z)))) ∧
  (∀ s : State, s.Awake →
    (∀ (m : Master) (v : Word), s.hw.present m = true → s.hw.tmrSettle.granted m .CHK_ENV_CTL 0 = true →
      let h := s.hw.tmrSettle
      let g := nfield (v ||| 1).toNat 16 4
      let engines := h.groupEngines g
      ∃ u, exec (.envLoadStart m v) s = .next (s.withHw u) ∧ u.pool = h.pool ∧
        if h.get F.CHK_ENV_STAT_STATE 0 ≠ envIdle then
          u.get F.CHK_ENV_STAT_RESULT 0 = erBusy ∧ u.env = h.env ∧ u.get F.CHK_ENV_VLD_VLD 0 = h.get F.CHK_ENV_VLD_VLD 0
        else if (List.range 64).any fun z => nbit (h.zonesOf engines) z && h.zopen z then
          u.get F.CHK_ENV_STAT_RESULT 0 = erZoneOpen ∧ u.env = h.env ∧ u.get F.CHK_ENV_VLD_VLD 0 = h.get F.CHK_ENV_VLD_VLD 0
        else u.get F.CHK_ENV_STAT_STATE 0 = envChecking ∧ (∀ n < 16, nbit engines n = true → u.bitOf F.CHK_ENV_VLD_VLD 0 n = false) ∧
          u.env = some { group := g, set := nfield (v ||| 1).toNat 8 4, src := 64 * h.get F.CHK_ENV_SRC_ADDR 0, engines := engines }) ∧
    let lost (l : EnvLoad) (u : Hw) : Prop := u.get F.CHK_ENV_STAT_STATE 0 = envIdle ∧ u.get F.CHK_ENV_STAT_RESULT 0 = erReadErr ∧
      u.env = none ∧ u.on F.CHK_ERR_ENV_REFUSED 0 = true ∧ u.on F.DDR_EVT_UE 0 = true ∧
      u.pool.integrators = s.hw.pool.integrators ∧ ∀ n < 16, nbit l.engines n = true → Store.get (fun _ => 0) u.pool.lostCeil n ≠ 0
    (∀ l, s.hw.env = some l → s.hw.get F.CHK_ENV_STAT_STATE 0 = envChecking →
      let img := s.hw.dramBytes (stagingBase + l.src) (64 + 32 * byteAt (s.hw.dramBytes (stagingBase + l.src) 64) 8)
      ∀ late ce, (∃ u, exec (.envImageChecked ⟨none, late, ce⟩) s = .next (s.withHw u) ∧ u.pool = s.hw.pool ∧
        u.get F.DDR_CECNT_COUNT 0 = min (s.hw.get F.DDR_CECNT_COUNT 0 + ce) (2 ^ 32 - 1) ∧
        if s.hw.imageOk l img then u.get F.CHK_ENV_STAT_STATE 0 = envLoading ∧ (u.env.bind fun l => l.ceilErr) = late
        else u.get F.CHK_ENV_STAT_STATE 0 = envIdle ∧ u.get F.CHK_ENV_STAT_RESULT 0 = erBadImage ∧ u.on F.CHK_ERR_ENV_REFUSED 0 = true) ∧
      ∀ off, ∃ u, exec (.envImageChecked ⟨some off, late, ce⟩) s = .next (s.withHw u) ∧ lost l u) ∧
    (∀ l, s.hw.on F.CLK_GATE_DOSE 0 = true → s.hw.env = some l → s.hw.get F.CHK_ENV_STAT_STATE 0 = envLoading →
      (l.ceilErr = none → ∃ u, exec .envWriteDone s = .next (s.withHw u) ∧ u.get F.CHK_ENV_STAT_STATE 0 = envDigestSt ∧
        u.pool.integrators = s.hw.pool.integrators ∧ u.pool.zmap = s.hw.pool.zmap) ∧
      (l.ceilErr.isSome → ∃ u, exec .envWriteDone s = .next (s.withHw u) ∧ lost l u)) ∧
    (∀ l, s.hw.on F.CLK_GATE_DOSE 0 = true → s.hw.env = some l → s.hw.get F.CHK_ENV_STAT_STATE 0 = envDigestSt →
      s.hw.on F.XLK_STAT_XLKC_UP 0 = true →
      ∃ u, exec .envDigestDone s = .next (s.withHw u) ∧ u.get F.CHK_ENV_STAT_STATE 0 = envVerifying ∧
        u.toB = s.hw.toB ++ [.envDigest l.group l.set (s.hw.envDigestOf l.group l.set l.engines)]) ∧
    (∀ l same rest, s.hw.env = some l → s.hw.get F.CHK_ENV_STAT_STATE 0 = envVerifying →
      s.hw.toA = .envReply l.group same :: rest →
      ∃ u, exec .envVerifyReply s = .next (s.withHw u) ∧ u.toA = rest ∧ u.env = none ∧
        u.get F.CHK_ENV_STAT_RESULT 0 = (if same then erOk else erDigest) ∧
        ∀ n < 16, nbit l.engines n = true → u.bitOf F.CHK_ENV_VLD_VLD 0 n = (same || s.hw.bitOf F.CHK_ENV_VLD_VLD 0 n)) ∧
    (s.hw.get F.CHK_ENV_STAT_STATE 0 = envVerifying →
      ∃ u, exec .envVerifyTimeout s = .next (s.withHw u) ∧ u.env = none ∧ u.get F.CHK_ENV_STAT_RESULT 0 = erTimeout ∧
        u.get F.CHK_ENV_STAT_STATE 0 = envIdle) ∧
    (∀ g set d rest, s.hw.toB = .envDigest g set d :: rest → s.hw.b.runs = true → s.hw.on F.XLK_STAT_XLKC_UP 0 = true →
      let same := d == Store.get (fun _ => []) s.hw.b.cfg.envDigest (16 * g + s.hw.bSel g)
      ∃ u, exec .bEnvCheck s = .next (s.withHw u) ∧ u.toB = rest ∧ u.toA = s.hw.toA ++ [.envReply g same] ∧
        ∀ n < 16, (u.bEng n).envOk = ((s.hw.bEng n).envOk || (same && s.hw.b.cfg.groupOf n == g))))

/-- R129, R131, R133, R134, R136, R138: the Tile Checker takes a frame and sends one verdict for it. A frame that fails
its check fails every tile with cause FRAME; in one that passes, every tile's integrator takes the sum of its doses,
decayed first where the segment is the first of its B-slot, and a tile passes exactly when its zone is open in channel
B, the engine's envelope is confirmed, the sum keeps the budget and the integrator its limit. R133: at the end of a
B-slot of an engine, every tile that received no segment in it decays, every other one keeps its integrator, and the
next B-slot starts with no segment seen. -/
def Obligations.TileVerdict : Prop :=
  (∀ (s : State) (f : XlkFrame) (rest : List XlkFrame), s.Awake → s.hw.xlkD = f :: rest →
    s.hw.b.runs = true → s.hw.on F.XLK_STAT_XLKC_UP 0 = true →
    let hd := frameHdr f.bytes
    let lc := s.hw.b.cfg.lane f.lane
    let sums := tileSums ((decodePayload (frameDcod f.bytes) lc.p12Shift (framePayload (crcBytes lc.crc) f.bytes)).getD [])
    ∃ u v, exec .bdieFrame s = .next (s.withHw u) ∧ u.xlkD = rest ∧ u.toA = s.hw.toA ++ [.verdict v] ∧ v.lane = f.lane ∧
      v.entry = f.entry ∧ v.seg = hd.seg ∧ v.seq = hd.seq ∧
      if s.hw.bFrameOk f then
        ∀ c < 32, let t := 1024 * f.lane + 32 * hd.seg + c
          let z := s.hw.b.cfg.zoneOf t
          let p := s.hw.bParams f.lane z
          u.bTile t = min 0xFFFFFFFF
            ((if nbit (s.hw.bEng f.lane).seen hd.seg then s.hw.bTile t else tileDecay (s.hw.bTile t) p.k) + sums.getD c 0) ∧
          (nbit v.pass c = true ↔ s.hw.bZoneOpen z = true ∧ (s.hw.bEng f.lane).envOk = true ∧ sums.getD c 0 ≤ p.budget ∧
            u.bTile t ≤ p.lim)
      else v.pass = 0 ∧ v.cause = vcFrame ∧ u.b.tiles = s.hw.b.tiles) ∧
  (∀ (s : State) (n : Fin 16), s.Awake → s.hw.b.evaluating = true →
    ∃ u, exec (.bSlotEnd n) s = .next (s.withHw u) ∧ (u.bEng n).seen = 0 ∧ ∀ i < 1024,
      u.bTile (1024 * n + i) =
        if nbit (s.hw.bEng n).seen (i / 32) then s.hw.bTile (1024 * n + i)
        else tileDecay (s.hw.bTile (1024 * n + i)) (s.hw.bParams n (s.hw.b.cfg.zoneOf (1024 * n + i))).k)

/-- R148, R149, R151: the B-die checks a release report against its verdict; a wrong one, or none at all, is counted,
and the first latches the engine's fault; a report answers the verdict of its segment and slice, else the oldest that its
entry awaits, and a missing one is that of the oldest that is not marked missing, which stays as the verdict of a report that comes
later; which verdict that is, is the model's choice (DESIGN CHOICE, log entry 108). The A-die takes the notice with its flags and event 36. R140 to R144: the
release gate takes a verdict for the segments that await it, or notes that none does; a verdict that does not come in
time expires with its flags and event 35; and the oldest segment, once checked and judged, goes to egress with every
dose of a tile at 0 where the segment is blanked, the ledger has no place for it under FULL_ACT, which counts as a timeout that has
not been counted (log entry 106), the tile's zone is not open or the verdict failed it, and as checked elsewhere; what a verdict that
comes after its timeout finds is log entry 35; one whose reorder entry is uncorrectable goes with every dose at 0
and latches the engine's fault. R153, R156, R158, R216, R313: SEO lines and owned outputs. SEO_An permits only with PERMIT as applied, the
lane in service, no A-side engine fault, channel A's drive latch clear, the device in RUN and no integrity hold. A line that reads back otherwise than it is driven
latches its die's engine fault, which drops it. A clear by the owner's vote source ends the fault while the line reads back
as it is driven, and not while it differs. A
Pod of the owning pair writes its own image of an owned output; a Pod of another pair changes nothing. -/
def Obligations.ReleaseGate : Prop :=
  (∀ s : State, s.Awake →
    (∀ r rest, s.hw.toB = .report r :: rest →
      let l := (s.hw.bEng r.lane).awaits r.entry
      let v := match l.find? fun v => v.seg == r.seg && v.seq == r.seq with
        | some v => some v
        | none => l.head?
      let wrong := reportWrong v r
      ∃ u, exec .releaseReport s = .next (s.withHw u) ∧ u.toB = rest ∧
        (u.bEng r.lane).fault =
          (if wrong = true ∧ (s.hw.bEng r.lane).fault = .none then .rptWrong else (s.hw.bEng r.lane).fault) ∧
        (u.bEng r.lane).awaits r.entry = (match v with
          | some v => dropAnswered v l
          | none => l) ∧
        u.b.reports = if wrong then (s.hw.b.reports + 1) % 2 ^ 32 else s.hw.b.reports) ∧
    (∀ (n : Fin 16) (e : Fin 32),
      let vs := (s.hw.bEng n).awaits e
      if vs.all (·.missed) then exec (.reportMissing n e) s = .next s
      else ∃ u, exec (.reportMissing n e) s = .next (s.withHw u) ∧ u.b.reports = (s.hw.b.reports + 1) % 2 ^ 32 ∧
        (u.bEng n).awaits e = (vs.takeWhile (·.missed)) ++
          ((vs.dropWhile (·.missed)).head?.map fun v => { v with missed := true }).toList ++ (vs.dropWhile (·.missed)).tail ∧
        (u.bEng n).fault = if (s.hw.bEng n).fault = .none then .rptMissing else (s.hw.bEng n).fault) ∧
    (∀ (n : Fin 16) (c : BFaultCause) (rest : List BtoA), s.hw.toA = .engineFault n c :: rest →
      ∃ u, exec .engineFaultNotice s = .next (s.withHw u) ∧ u.toA = rest ∧ u.on F.CHK_ERR_RPT_MISMATCH 0 = true ∧
        u.bitOf ⟨.REL_ERR, 0, 6⟩ n (if c = .rptMissing then reRptMissing else reRptWrong) = true ∧
        u.bitOf F.EVT_PEND_PEND 1 4 = true)) ∧
  (∀ s : State, s.Awake →
    (∀ v rest, s.hw.toA = .verdict v :: rest → (s.hw.lane v.lane).late.contains (v.entry, v.seg, v.seq) = false →
      ((s.hw.lane v.lane).segs.any fun x => x.awaits v.entry) = true →
      ∃ u, exec .verdictReceived s = .next (s.withHw u) ∧ u.toA = rest ∧ u.regs = s.hw.regs ∧
        (u.lane v.lane).segs =
          (s.hw.lane v.lane).segs.map fun x => if x.awaits v.entry then { x with verdict := .arrived v.pass } else x) ∧
    (∀ v rest, s.hw.toA = .verdict v :: rest → ((s.hw.lane v.lane).segs.any fun x => x.awaits v.entry) = false →
      ∃ u, exec .verdictReceived s = .next (s.withHw u) ∧ u.toA = rest ∧ u.bitOf ⟨.REL_ERR, 0, 6⟩ v.lane reVerdictUnk = true ∧
        (u.lane v.lane).segs = (s.hw.lane v.lane).segs) ∧
    (∀ (n : Fin 16) (e : Fin 32) (x : Seg), ((s.hw.lane n).segs.find? fun x => x.awaits e) = some x →
      ∃ u, exec (.verdictTimeout n e) s = .next (s.withHw u) ∧ u.bitOf ⟨.REL_ERR, 0, 6⟩ n reBTimeout = true ∧
        u.on F.CHK_ERR_B_TIMEOUT 0 = true ∧ u.bitOf F.EVT_PEND_PEND 1 3 = true ∧
        (u.lane n).segs = (s.hw.lane n).segs.map fun x => if x.awaits e then { x with verdict := .expired } else x) ∧
    (∀ (n : Fin 16) (x : Seg) (rest : List Seg) (bad : List Nat) (ce : Nat), (s.hw.lane n).segs = x :: rest → x.phase = .written →
      x.verdict ≠ .waiting →
      let full := (s.hw.wantEntry n x.hdr.layer).ledgerBlanks n
      let zero := fun c => x.blank || x.generated || decide (x.verdict = .expired) || full || s.hw.zoneClosed n x c || x.verdict.failed c
      (s.hw.recorded n = false → full = false) ∧
      (x.generated = false → ∃ u e, exec (.segmentRelease n ⟨true, bad, ce⟩) s = .next (s.withHw u) ∧ (u.lane n).segs = rest ∧
        (u.lane n).egress = (s.hw.lane n).egress ++ [e] ∧ e.hdr = x.hdr ∧ (∀ i < 2048, e.doses.getD i 0 = 0) ∧ e.blanked = true ∧
        u.on F.REL_STAT_AFAULT n = true ∧ u.bitOf ⟨.REL_ERR, 0, 6⟩ n reRobEcc = true) ∧
      ∃ u e, exec (.segmentRelease n ⟨false, bad, ce⟩) s = .next (s.withHw u) ∧ (u.lane n).segs = rest ∧
        (u.lane n).egress = (s.hw.lane n).egress ++ [e] ∧ e.hdr = x.hdr ∧
        (∀ i < 2048, e.doses.getD i 0 = if zero (i % 256 / 8) then 0 else x.doses.getD i 0) ∧
        e.blanked = (List.range 32).all zero ∧
        u.get F.REL_RELCNT_COUNT n = (s.hw.get F.REL_RELCNT_COUNT n + 1) % 2 ^ 32 ∧
        u.get F.REL_BTOCNT_COUNT n = (if full = true ∧ x.generated = false ∧ x.verdict ≠ .expired
          then min (s.hw.get F.REL_BTOCNT_COUNT n + 1) (2 ^ 32 - 1) else s.hw.get F.REL_BTOCNT_COUNT n))) ∧
  (∀ s : State, s.Awake →
    (∀ n, s.hw.seoA n = true → s.hw.relPermit n = true ∧ s.hw.inService n = true ∧ s.hw.on F.REL_STAT_AFAULT n = false ∧
      (s.hw.lane n).seoLatch = false ∧ s.hw.dev = devRun ∧ s.hw.on F.OTP_STAT_HOLD 0 = false) ∧
    (∀ (n : Fin 16) (b : Bool), b ≠ s.hw.seoA n →
      ∃ u, exec (.seoReadback false n b) s = .next (s.withHw u) ∧ u.on F.REL_STAT_AFAULT n = true ∧ u.seoA n = false ∧
        u.bitOf ⟨.REL_ERR, 0, 6⟩ n reSeoRb = true) ∧
    (∀ (n : Fin 16) (b : Bool), b ≠ s.hw.seoB n →
      ∃ u, exec (.seoReadback true n b) s = .next (s.withHw u) ∧ (u.bEng n).fault ≠ .none ∧ u.seoB n = false) ∧
    (∀ (m : Master) (n : Fin 16) (v : Word), s.hw.present m = true → s.hw.tmrSettle.granted m .REL_SEO n = true → m.val < 6 →
      let h := s.hw.tmrSettle
      h.fromOwner m (slotSeo n) = true → h.on F.REL_STAT_AFAULT n = true →
      ∃ u, exec (.seoFltClr m n v) s = .next (s.withHw u) ∧ u.on F.REL_STAT_AFAULT n = decide (h.seoARb n ≠ h.seoA n) ∧
        u.image m (slotSeo n) = bit (wbit v 0)) ∧
    (∀ (m : Master) (n : Fin 16) (v : Word), s.hw.present m = true → s.hw.tmrSettle.granted m .SO_CMD n = true → m.val < 6 →
      wbit v 1 = false →
      let h := s.hw.tmrSettle
      exec (.ownedWrite m .soCmd n v) s = .next (s.withHw
        (if h.ownerPair (slotSo n) = pairOf m then h.putImage m (slotSo n) (bit (wbit v 0)) else h))))

/-- R154: SEO_Bn permits only while the OUTPUT cell permits, no B-side engine fault is latched, the B-die evaluates a
commissioned configuration and is not in SAFE_HOLD, and it has accepted a first valid operator reset. -/
def Obligations.SeoBPermitConditions : Prop := ∀ (h : Hw) (n : Nat), h.seoB n = true →
  (h.bEng n).cellPermit = true ∧ (h.bEng n).fault = .none ∧ h.b.state = 3 ∧ h.b.brun = true

/-- R161: the peak code of a 32-bit integrator never understates it, overstates it by less than one part in 2,048, and
is the value itself below 2,048. R163 to R167, R171, R173: a timeout meets the close condition of the open entry; the
header of the oldest entry that is due closes it and moves LDG_CLSEQ on, or goes to signing as a checkpoint, also where
its records meet an uncorrectable error, which is counted; the signature writes it; EN written 0 by a granted master closes every entry as a checkpoint; LDG_RDSEQ takes the held low
half with the high half, or the low half that stands where none is held (DEDUCED, log entry 107), never passes the closed
entries, and holds no low half afterwards. R463: the signature waits while the SEC unit verifies or signs, and a command of the SEC
unit that waited for it goes on after it. When a condition that is met stands, is the model's choice (log entry 122). -/
def Obligations.LedgerCommands : Prop :=
  (∀ v, v < 2 ^ 32 →
    v ≤ peakDecode (peakCode v) ∧ (peakDecode (peakCode v) - v) * 2048 ≤ v ∧ (v < 2048 → peakCode v = v) ∧ peakCode v < 65536) ∧
  (∀ s : State, s.Awake →
    (∀ lseq, exec (.ledgerTimeout lseq) s = .next (s.withHw (s.hw.updEntries fun es =>
      es.map fun e => if e.lseq = lseq ∧ e.met = false then { e with timeout := true, met := true } else e))) ∧
    (∀ e es, s.hw.ledger.entries = e :: es → s.hw.ledger.signing = none → s.hw.closeMet e = true →
      let ckpt := e.ckpt || (e.lseq + 1) % (s.hw.get F.LDG_CFG_CKINT 0) == 0
      ∀ (err : Option (Fin 131072)) (ce : Nat), ∃ u, exec (.ledgerHeader ⟨err.map (·.val), ce⟩) s = .next (s.withHw u) ∧
        u.get F.DDR_CECNT_COUNT 0 = min (s.hw.get F.DDR_CECNT_COUNT 0 + ce) (2 ^ 32 - 1) ∧
        (err.isSome = true → u.on F.DDR_EVT_UE 0 = true ∧
          u.get F.DDR_UECNT_COUNT 0 = min (s.hw.get F.DDR_UECNT_COUNT 0 + 1) (2 ^ 32 - 1)) ∧
        if ckpt then u.on F.LDG_STAT_SIGNING 0 = true ∧ u.ledger.signing.isSome = true ∧ u.clSeq = s.hw.clSeq
        else u.clSeq = (e.lseq + 1) % 2 ^ 64 ∧ u.ledger.entries = (e :: es).filter (fun x => x.lseq != e.lseq) ∧
          u.bitOf ⟨.LDG_EVT, 0, 6⟩ 0 levClosed = true) ∧
    (∀ x, s.hw.ledger.signing = some x → if s.hw.signerFree = false then exec .checkpointSigned s = .next s else
      ∃ u, exec .checkpointSigned s = .next (s.withHw u) ∧ u.on F.LDG_STAT_SIGNING 0 = false ∧ u.ledger.signing = none ∧
        u.secOp = (s.hw.secOp.map fun o => { o with waits := false }) ∧ u.clSeq = (x.entry.lseq + 1) % 2 ^ 64 ∧ u.bitOf ⟨.LDG_EVT, 0, 6⟩ 0 levCkpt = true) ∧
    (∀ (m : Master) (v : Word), s.hw.present m = true →
      let h := s.hw.tmrSettle
      (h.granted m .LDG_CTL 0 = true → wbit v 0 = false → h.on F.LDG_CTL_EN 0 = true →
        ∃ u, exec (.ldgCtlWrite m v) s = .next (s.withHw u) ∧ u.on F.LDG_CTL_EN 0 = false ∧
          u.ledger.entries = h.ledger.entries.map fun e => { e with met := true, ckpt := true }) ∧
      (h.granted m .LDG_RDSEQ_LO 0 = true →
        exec (.ldgRdSeqLo m v) s = .next (s.withHw { h with ledger := { h.ledger with rdLo := some v } })) ∧
      (h.granted m .LDG_RDSEQ_HI 0 = true →
        ∃ u, exec (.ldgRdSeqHi m v) s = .next (s.withHw u) ∧ u.ledger.rdLo = none ∧
          let w := (h.ledger.rdLo.map (·.toNat)).getD (h.get F.LDG_RDSEQ_LO_VALUE 0) + 2 ^ 32 * v.toNat
          u.rdSeq = if w ≤ h.clSeq then w else h.rdSeq)))

/-- R181, R188, R189, R190, R512: the state table of a safety function, row by row; that RUN is reached or kept only with
permit, no fault condition and no rising trip input; and that CAUSEV shows a function in FAULT with a fault condition of
its own present, the partner's report apart. That a rising trip input prevails over a valid reset and over a demand of its cycle
(DESIGN CHOICE, log entries 89 and 129), and what CAUSEV leaves out (DEDUCED, log entry 41), is the model's. R210: a function that no
reset can serve has no restart interlock. -/
def Obligations.FunctionTable : Prop := ∀ (e : FnEvent) (started : Bool) (x : FnState),
  let u := (fnStep e started x).1
  let refused := (fnStep e started x).2
  let present := e.j.arise ++ e.j.still
  let quiet := e.j.arise = [] ∧ e.rise = false
  (x.state = fsSafe → quiet → e.j.permit = true → e.reset = true ∨ (x.rstreq = false ∧ x.tripped = false) →
    u.state = fsRun ∧ u.cause = ccNone ∧ u.rstreq = false ∧ u.tripped = false) ∧
  (x.state = fsSafe → quiet → e.j.permit = true → e.reset = false → x.tripped = true → u.state = fsSafe ∧ u.tripped = true) ∧
  (x.state = fsSafe → quiet → e.reset = false → x.rstreq = true → e.selfReset = false → e.hasReset = true ∨ started = true →
    u.state = fsSafe ∧ u.rstreq = true) ∧
  (x.state = fsSafe → quiet → e.j.permit = true → e.selfReset = true → x.tripped = false → u.state = fsRun ∧ u.rstreq = false) ∧
  (x.state = fsSafe → quiet → e.reset = true → e.j.permit = false → u.state = fsSafe ∧ u.rstreq = false ∧ u.tripped = false) ∧
  (x.state = fsRun → quiet → e.j.permit = false → e.reset = false →
    u.state = fsSafe ∧ u.cause = (if e.j.hold = 0 then ccDemand else e.j.hold) ∧ u.rstreq = (x.rstreq || e.manual)) ∧
  (x.state ≠ fsFault → e.j.arise = [] → e.rise = true →
    u.state = fsSafe ∧ u.tripped = true ∧ u.cause = ccTrip ∧ u.rstreq = x.rstreq) ∧
  (x.state ≠ fsFault → e.j.arise ≠ [] → (∀ k ∈ e.j.arise, k ≤ 0xFF) →
    u.state = fsFault ∧ u.rstreq = true ∧ u.cause ∈ e.j.arise ∧ ∀ k ∈ e.j.arise, u.cause ≤ k) ∧
  (x.state = fsFault → e.reset = true → present = [] →
    u.state = (if e.j.permit then fsRun else fsSafe) ∧ u.rstreq = false ∧ u.tripped = false ∧ refused = false) ∧
  (x.state = fsFault → e.reset = true → present ≠ [] → (∀ k ∈ present, k ≤ 0xFF) →
    u.state = fsFault ∧ u.rstreq = x.rstreq ∧ u.tripped = x.tripped ∧ refused = true ∧ u.cause ∈ present ∧ ∀ k ∈ present, u.cause ≤ k) ∧
  (x.state = fsFault → e.reset = false → e.selfReset = false ∨ present ≠ [] →
    u.state = fsFault ∧ u.rstreq = x.rstreq ∧ u.cause = x.cause ∧ u.tripped = x.tripped ∧ refused = false) ∧
  (x.state = fsFault → e.reset = false → e.selfReset = true → present = [] →
    u.state = (if e.j.permit then fsRun else fsSafe) ∧ u.rstreq = false ∧ u.tripped = x.tripped ∧ refused = false) ∧
  (u.state = fsRun → e.j.permit = true ∧ e.j.arise = [] ∧ (x.state ≠ fsFault → quiet)) ∧
  (u.causeOn = true ↔ u.state = fsFault ∧ ∃ k ∈ present, k ≠ ccPartner)

/-- R197, R204: a contact pair that has been discrepant gives permit only after both contacts have shown demand in one
cycle; a two-hand function gives permit only out of IDLE or within the window of 500 ms, and having left it, not before
both hands have been released. R191, R192, R212: the types that count cycles. A press of the reset button of LO to HI
cycles gives a pulse of four cycles at its release, and any other press none; a press longer than HI withholds permit
while it lasts. ON_DELAY gives permit exactly when its input was 1 in the last N + 1 cycles; OFF_DELAY withholds it
exactly when the input was 0 in the last N + 1 cycles or has not been 1 yet. -/
def Obligations.InputTypes : Prop :=
  ((∀ (limit : Nat) (vs : List (Bool × Bool)) (m : FnMem), (∀ v ∈ vs, v ≠ (false, false)) → (true, false) ∈ vs ∨ (false, true) ∈ vs →
      let u := vs.foldl (fun m v => (pairStep limit v.1 v.2 m).2) m
      (pairStep limit true true u).1 = false) ∧
    (∀ (limit : Nat) (m : FnMem), (pairStep limit true true (pairStep limit false false m).2).1 = true) ∧
    (∀ (limit n : Nat) (m : FnMem), m.disc = 0 →
      ((List.replicate n (true, false)).foldl (fun m (v : Bool × Bool) => (pairStep limit v.1 v.2 m).2) m).disc = n) ∧
    (∀ (window : Nat) (la ra lr rr : Bool) (m : FnMem),
      let u := handStep window la ra lr rr m
      (u.hand = thOn → la = true ∧ ra = true ∧
        (m.hand = thOn ∨ m.hand = thIdle ∨ (m.hand = thOne ∧ m.handCount + 1 ≤ window))) ∧
      (m.hand = thOn → (la && ra) = false → u.hand = thBlocked) ∧
      (m.hand = thBlocked → u.hand = if lr && rr then thIdle else thBlocked) ∧
      (m.hand = thIdle → (la && ra) = false → (la || ra) = true → u.hand = thOne))) ∧
  ((∀ lo hi k, 1 ≤ lo → lo ≤ hi → 1 ≤ k →
      let m := (List.replicate k true).foldl (fun m v => (judgeReset lo hi v m).mem) ({} : FnMem)
      (judgeReset lo hi false m).mem.pulse = (if lo ≤ k ∧ k ≤ hi then 4 else 0) ∧
        (judgeReset lo hi true m).permit = decide (k + 1 ≤ hi)) ∧
    (∀ (n : Nat) (vs : List Bool) (v : Bool),
      let m := vs.foldl (fun m v => (judgeDelay true n v m).mem) ({} : FnMem)
      (judgeDelay true n v m).permit =
        (decide (n + 1 ≤ vs.length + 1) && ((vs ++ [v]).drop (vs.length - n)).all id)) ∧
    (∀ (n : Nat) (vs : List Bool) (v : Bool),
      let m := vs.foldl (fun m v => (judgeDelay false n v m).mem) ({} : FnMem)
      (judgeDelay false n v m).permit = ((vs ++ [v]).drop (vs.length - n)).any id))

/-- R176, R179 to R181, R187: a cycle boundary. EVAL_CYCLE_BOUNDARY in channel A, which evaluates while the device is in
STARTUP, RUN or TRIAL with SFN_CTL.START at 1, takes the cycle number and SFN_CYCLE on by one and sends the exchange frame
of the cycle that ends, which the partner's check passes: the results and causes that were frozen, with no function of a
group that overran in RUN. The exchange is then awaited, or a frame that came before t1 is judged at once; an exchange
still outstanding counts as missed. B_CYCLE_BOUNDARY does the same in channel B, which takes its first boundary from a
valid frame of channel A on its way, with that frame's cycle number, and none without one. A channel that does not
evaluate does nothing. R182 to R184: the exchange. EXCHANGE_FRAME_RECEIVED within 30 µs of t1, of a frame that passes its
check and carries the awaited cycle, gives the partner's CAUSEV, and each function's discrepancy count goes to 0 where the
results agree and up by 1 where they differ; a frame that fails, one that comes later, and EXCHANGE_TIMEOUT with none are
a missed exchange, taken as all 0, which channel A counts. Either way the next cycle is evaluated. A valid frame of the
running cycle is kept until t1. That channel B takes the cycle number and the exchange from the first frame (DEDUCED, log entry 49),
and which row applies the result and evaluates (DEDUCED, log entry 40), is the model's reading. -/
def Obligations.CycleExchange : Prop :=
  (∀ s : State, s.Awake →
    let turned (c : Chan) (k : Nat) (u : Hw) : Prop := (u.ev c).cycle = k + 1 ∧
      (if (s.hw.ev c).early = none then (u.ev c).waiting = true ∧ (u.ev c).done = false
       else (u.ev c).waiting = false ∧ (u.ev c).done = true)
    let frameOf (c d : Chan) (k : Nat) (u : Hw) (bs : List Byte) : Prop := exchangeOk d bs = true ∧ frameNum bs 4 4 = k % 2 ^ 32 ∧
      frameNum bs 8 32 = (u.ev c).sentRes ∧ frameNum bs 40 32 = (u.ev c).sentCause
    (∀ late, s.hw.evaluating .a = true → ∃ u, exec (.evalBoundary late) s = .next (s.withHw u) ∧ turned .a s.hw.evA.cycle u ∧
      u.get F.SFN_CYCLE_COUNT 0 = (s.hw.get F.SFN_CYCLE_COUNT 0 + 1) % 2 ^ 32 ∧
      (∀ n, nbit u.evA.ovr n = true → nbit u.evA.sentRes n = false ∧ (s.hw.fn .a n).type ≠ 0 ∧ nbit late (s.hw.fn .a n).fgrp = true) ∧
      (s.hw.evA.waiting = true → s.hw.evA.early = none →
        u.get F.SFN_XMISS_COUNT 0 = min (s.hw.get F.SFN_XMISS_COUNT 0 + 1) (2 ^ 32 - 1)) ∧
      (s.hw.on F.XLK_STAT_XLKC_UP 0 = true → ∃ bs, u.toB = s.hw.toB ++ [.exchange bs] ∧ frameOf .a .b s.hw.evA.cycle u bs)) ∧
    (s.hw.evaluating .b = true → s.hw.evB.aligned = true → ∃ u, exec .bCycleBoundary s = .next (s.withHw u) ∧
      turned .b s.hw.evB.cycle u ∧
      (s.hw.on F.XLK_STAT_XLKC_UP 0 = true → s.hw.b.runs = true → ∃ bs, u.toA = s.hw.toA ++ [.exchange bs] ∧
        frameOf .b .a s.hw.evB.cycle u bs)) ∧
    (s.hw.evaluating .b = true → s.hw.evB.aligned = false →
      (∀ bs rest, takeXchgB s.hw.toB = some (bs, rest) → exchangeOk .b bs = true →
        ∃ u, exec .bCycleBoundary s = .next (s.withHw u) ∧ u.evB.aligned = true ∧ turned .b (frameNum bs 4 4) u) ∧
      ((∀ bs rest, takeXchgB s.hw.toB = some (bs, rest) → exchangeOk .b bs = false) → exec .bCycleBoundary s = .next s)) ∧
    (∀ late, s.hw.evaluating .a = false → exec (.evalBoundary late) s = .next s) ∧
    (s.hw.evaluating .b = false → exec .bCycleBoundary s = .next s) ∧
    (s.hw.evaluating .a = true ↔
      (s.hw.dev = devStartup ∨ s.hw.dev = devRun ∨ s.hw.dev = devTrial) ∧ s.hw.on F.SFN_CTL_START 0 = true)) ∧
  (∀ (s : State) (c : Chan), s.Awake →
    let missed := fun u : Hw => (u.ev c).waiting = false ∧ (u.ev c).missed = true ∧ (u.ev c).parCause = 0 ∧ (u.ev c).done = true ∧
      (c = .a → u.get F.SFN_XMISS_COUNT 0 = min (s.hw.get F.SFN_XMISS_COUNT 0 + 1) (2 ^ 32 - 1))
    ((s.hw.ev c).waiting = true → ∃ u, exec (.exchangeTimeout c) s = .next (s.withHw u) ∧ missed u) ∧
    ((s.hw.ev c).waiting = false → exec (.exchangeTimeout c) s = .next s) ∧
    (∀ us altered, s.hw.nextExchange c = none → exec (.exchangeReceived c us altered) s = .next s) ∧
    ∀ us altered sent h, s.hw.nextExchange c = some (sent, h) → s.hw.evaluating c = true →
      let bs := altered.getD sent
      ((c = .b → s.hw.evB.aligned = true) → (s.hw.ev c).waiting = true →
        if us ≤ 30 ∧ exchangeOk c bs = true ∧ frameNum bs 4 4 = ((s.hw.ev c).cycle - 1) % 2 ^ 32 then
          ∃ u, exec (.exchangeReceived c us altered) s = .next (s.withHw u) ∧ (u.ev c).waiting = false ∧
            (u.ev c).missed = false ∧ (u.ev c).parCause = frameNum bs 40 32 ∧ (u.ev c).done = true ∧
            ∀ n ∈ s.hw.fnList c, u.xdCount c n =
              if nbit (s.hw.ev c).sentRes n = nbit (frameNum bs 8 32) n then 0 else s.hw.xdCount c n + 1
        else ∃ u, exec (.exchangeReceived c us altered) s = .next (s.withHw u) ∧ missed u) ∧
      ((c = .b → s.hw.evB.aligned = true) → (s.hw.ev c).waiting = false →
        ∃ u, exec (.exchangeReceived c us altered) s = .next (s.withHw u) ∧ u.ev c =
          if exchangeOk c bs = true ∧ frameNum bs 4 4 = (s.hw.ev c).cycle % 2 ^ 32 then { s.hw.ev c with early := some bs }
          else s.hw.ev c) ∧
      (c = .b → s.hw.evB.aligned = false →
        if exchangeOk .b bs = true then
          ∃ u, exec (.exchangeReceived c us altered) s = .next (s.withHw u) ∧ u.evB.aligned = true ∧
            u.evB.cycle = frameNum bs 4 4 + 1 ∧ u.evB.waiting = false ∧ u.evB.missed = false ∧ u.evB.parCause = frameNum bs 40 32
        else exec (.exchangeReceived c us altered) s = .next (s.withHw h)))

/-- R176, R192, R220, R223, R254, R264: commands of the safety functions. START latches the input image; SFN_STAT takes
a write only in the image of a Pod of the function's pair; the channel A clear of an SO pair comes only from the vote
source of the owning pair; a press longer than 3 s is reported once with event 43; the envelope load of a selection that
ended with a result other than OK is repeated while the selection stands. -/
def Obligations.FunctionCommands : Prop := ∀ s : State, s.Awake →
  (∀ (m : Master) (v : Word), s.hw.present m = true → s.hw.tmrSettle.granted m .SFN_CTL 0 = true →
    let h := s.hw.tmrSettle
    ∃ u, exec (.sfnStart m v) s = .next (s.withHw u) ∧ u.on F.SFN_CTL_START 0 = true ∧
      u.on F.SFN_CTL_CFGLK 0 = (h.on F.SFN_CTL_CFGLK 0 || F.SFN_CTL_CFGLK.one v) ∧
      (h.on F.SFN_CTL_START 0 = false → u.evA.img = s.hw.inputImage .a)) ∧
  (∀ (m : Master) (n : Fin 256) (v : Word), s.hw.present m = true → s.hw.tmrSettle.granted m .SFN_STAT n = true →
    let h := s.hw.tmrSettle
    (h.get F.SFN_CFG_PAIR n ≠ pairOf m ∨ 6 ≤ m.val → exec (.sfnStatWrite m n v) s = .next (s.withHw h)) ∧
    (h.get F.SFN_CFG_PAIR n = pairOf m → m.val < 6 → F.SFN_STAT_STATE.val v ≤ 2 →
      F.SFN_STAT_CAUSE.val v ≤ 0xC ∨ (0x10 ≤ F.SFN_STAT_CAUSE.val v ∧ F.SFN_STAT_CAUSE.val v ≤ 0x17) →
      ∃ u, exec (.sfnStatWrite m n v) s = .next (s.withHw u) ∧ u.image m (slotSfn n) = v.toNat &&& 0x1FF0F ∧
        ∀ p k, p < 6 → k < 1024 → (p, k) ≠ (m.val, slotSfn n) → u.image p k = h.image p k)) ∧
  (∀ (m : Master) (n : Fin 16) (v : Word), s.hw.present m = true → s.hw.tmrSettle.granted m .SO_CMD n = true →
    (s.hw.die (n / 8)).errA = false →
    let h := s.hw.tmrSettle
    ∃ u, exec (.soFltClr m n v) s = .next (s.withHw u) ∧
      u.so n = if h.fromOwner m (slotSo n) then (h.soClear .a n).so n else h.so n) ∧
  (∀ (n : Fin 256) k, (s.hw.fn .a n).ridx = some k → (s.hw.fn .a n).type = ftReset → (s.hw.fnMem .a n).stuck = true → k < 16 →
    s.hw.bitOf F.SFN_RST_STUCK 0 k = false →
    exec (.resetStuck n) s = .next (s.withHw ((s.hw.setBit F.SFN_RST_STUCK 0 k true).raise 43))) ∧
  (∀ (g : Fin 16) set, s.hw.selectionA g = some set → nbit s.hw.evA.pend g = true → s.hw.get F.CHK_ENV_STAT_STATE 0 = envIdle →
    Store.get (fun _ => none) s.hw.evA.loaded g = some set → s.hw.envFailed g = true →
    exec (.envLoadRetry g) s = .next (s.withHw (envCtlWrite (65536 * g + 256 * set + 1)
      (s.hw.set F.CHK_ENV_SRC_ADDR 0 (Store.get (fun _ => 0) s.hw.cfg.envSrc (16 * g + set))))))

/-- R230, R232: the OSSD stage and the filter over runs of samples. With tolerance O, a run of 0 samples that follows a
1 far enough from the last tolerated run passes as 1 up to O samples and as 0 from there on, and one that begins too
early passes as 0 at once; with tolerance off every sample passes unchanged. The filtered state takes a value exactly
where the last N_F = 10·FILT − 2 samples all equal it. R231, R246: while the frames flag the source of an input as
pulsing, the blanking stage passes the last sample before the pulse, whatever the samples are; it passes 0 until the
input has had a CLEAN period, and an input without a source passes unchanged. -/
def Obligations.InputStages : Prop :=
  ((∀ (o k : Nat) (x : DiChan), 10 ≤ o → o ≤ 100 → x.was1 = true → x.run = 0 →
      let u := (List.replicate k false).foldl (fun s r => (DiChan.ossdStage o r s).1) x
      (DiChan.ossdStage o false u).2 = (decide (2 * o ≤ x.gap) && decide (k + 1 ≤ o))) ∧
    (∀ (r : Bool) (x : DiChan), (DiChan.ossdStage 0 r x).2 = r) ∧
    ∀ (filt : Nat) (zs : List Bool) (x : DiChan), 5 ≤ filt → filt ≤ 200 → x.fRun = 0 →
      let n := 10 * filt - 2
      let u := zs.foldl (fun s z => DiChan.filterStage filt z s) x
      (∀ v, n ≤ zs.length → (zs.drop (zs.length - n)) = List.replicate n v → u.filt = v) ∧
      ((∀ v, v ≠ x.filt → ∀ pre post, zs ≠ pre ++ List.replicate n v ++ post) → u.filt = x.filt)) ∧
  (∀ (k : Nat) (ys : List Bool) (y : Bool) (x : DiChan),
    let u := ys.foldl (fun s z => (DiChan.blankStage (some k) true z s).1) x
    (x.blank = false → (DiChan.blankStage (some k) true y u).2 = (x.last && x.proven)) ∧
    (x.proven = false → ∀ flag, (DiChan.blankStage (some k) flag y x).2 = false) ∧
    (∀ flag, (DiChan.blankStage none flag y x).2 = y) ∧
    (x.proven = true → (DiChan.blankStage (some k) false y u).2 = y))

/-- R244, R245: the finding of a period by the first row that matches, and what two periods in a row make of it. Two
findings in a row that are neither CLEAN nor SUPPRESSED report the second one's code, two CLEAN ones end the report, and
a SUPPRESSED period leaves the counts and the report as they are. R238, R240 to R243, R245: the test-pulse schedule. RUN
written by a granted master starts it with a period marker, and each further period counts one; a marker ends NOSYNC at
a die that receives it. In its slot an enabled source of a die that pulses is flagged and counted, until its pulse ends;
a die without markers stops flagging; a source in overload is off until its retry; at the end of a period the findings
of every input with a source are judged. R488: no source pulses in BOOT, and none is on before t9 (log entry 137). -/
def Obligations.TestPulses : Prop :=
  (∀ (k : Nat) (x y : DiChan) (supp f1 f2 : Bool), k < 16 →
    let foreign := fun (s : DiChan) => (List.range 16).find? fun j => j != k && nbit s.low j && nbit s.pre j && nbit s.post j
    (∀ s : DiChan, s.low < 65536 → s.finding k supp f1 =
      if supp then (findSuppressed, false)
      else if f1 then (findStuck, true)
      else if (foreign s).isSome then (findXshort, false)
      else if nbit s.low k then (findClean, false)
      else (findStuck, false)) ∧
    (∀ j, x.low < 65536 → supp = false → f1 = false → foreign x = some j → (x.judge k supp f1).xsrc = j) ∧
    (supp = true → let u := x.judge k supp f1
      u.bad = x.bad ∧ u.clean = x.clean ∧ u.tpf = x.tpf ∧ u.proven = x.proven) ∧
    (let a := x.judge k false f1
     let b := { y with bad := a.bad, clean := a.clean, tpf := a.tpf, proven := a.proven }.judge k false f2
     (a.find ≠ findClean → b.find ≠ findClean → b.tpf = b.find) ∧
     (a.find = findClean → b.find = findClean → b.tpf = 0 ∧ b.proven = true))) ∧
  (∀ s : State, s.Awake →
    (∀ (m : Master) (v : Word), s.hw.present m = true → s.hw.tmrSettle.granted m .TPG_CTL 0 = true →
      let h := s.hw.tmrSettle
      ∃ u, exec (.tpgRun m v) s = .next (s.withHw u) ∧ u.on F.TPG_CTL_RUN 0 = true ∧
        u.on F.TPG_CTL_CFGLK 0 = (h.on F.TPG_CTL_CFGLK 0 || wbit v 1) ∧
        (h.on F.TPG_CTL_RUN 0 = false → u.on F.TPG_STAT_RUNNING 0 = true ∧
          u.get F.TPG_PERIOD_COUNT 0 = (h.get F.TPG_PERIOD_COUNT 0 + 1) % 2 ^ 32 ∧ u.get F.TPG_STAT_SLOT 0 = 0)) ∧
    (s.hw.on F.TPG_CTL_RUN 0 = true → ∃ u, exec .tpPeriodStart s = .next (s.withHw u) ∧
      u.get F.TPG_PERIOD_COUNT 0 = (s.hw.get F.TPG_PERIOD_COUNT 0 + 1) % 2 ^ 32 ∧ u.get F.TPG_STAT_SLOT 0 = 0 ∧
      ∀ d < 2, (s.hw.die d).errA = false → (u.die d).synced = true ∧ (u.die d).noSync = false) ∧
    (∀ j : Fin 16, s.hw.on F.TPG_CTL_RUN 0 = true →
      let die := s.hw.die (j / 8)
      (∃ u, exec (.testPulseBegin j) s = .next (s.withHw u) ∧ u.get F.TPG_STAT_SLOT 0 = j ∧
        (s.hw.on F.TP_CFG_EN j = true → die.synced = true → die.noSync = false → die.tpPaused = false → die.cut = false →
          die.held = false → s.hw.fieldOff = false → s.hw.dev ≠ devBoot → (u.tpSrc j).flag = true ∧
          u.get F.TP_PCNT_COUNT j = (s.hw.get F.TP_PCNT_COUNT j + bit (!(s.hw.tpSrc j).ovld)) % 2 ^ 32) ∧
        (s.hw.on F.TP_CFG_EN j = false ∨ s.hw.dev = devBoot → u.tpSrc j = s.hw.tpSrc j)) ∧
      exec (.testPulseEnd j) s = .next (s.withHw (s.hw.updSrc j fun x => { x with flag := false })) ∧
      (∃ u, exec (.tpOverloadRetry j) s = .next (s.withHw u) ∧ (u.tpSrc j).ovld = false ∧
        (u.tpSrc j).flag = (s.hw.tpSrc j).flag) ∧
      (s.hw.on F.TP_CFG_EN j = true → s.hw.tpHeldOff = false → s.hw.groupOff (j / 8) = false →
        (s.hw.link .a (j / 8)).err = false →
        ∃ u, exec (.tpOverload j) s = .next (s.withHw u) ∧ (u.tpSrc j).ovld = true ∧ u.on F.TP_FLT_OVLD j = true ∧
          u.get F.TP_STAT_STATE j = tpOvld)) ∧
    (∀ d : Fin 2, s.hw.on F.TPG_CTL_RUN 0 = true →
      ∃ u, exec (.tpNoSync d) s = .next (s.withHw u) ∧ (u.die d).noSync = true ∧ (u.die d).synced = false ∧
        ∀ k < 8, (u.tpSrc (8 * d + k)).flag = false ∧
          ((s.hw.link .a d).err = false → s.hw.on F.TP_CFG_EN (8 * d + k) = true → u.on F.TP_FLT_NOSYNC (8 * d + k) = true)) ∧
    (∀ c, ∃ u, exec (.tpDetection c) s = .next (s.withHw u) ∧ ∀ i < 48, ∀ k < 16, (s.hw.diPar c i).src = some k →
      u.di c i = (s.hw.di c i).judge k (s.hw.tpPeriodSuppressed c (k / 8) || (s.hw.link c (i / 24)).gap)
        ((s.hw.tp c k).high || (s.hw.tp c k).low)))

/-- R22, R234, R248: field links at a channel. A frame that fails its check, or 100 µs without a valid one, puts a good
link in field link error with event 62 or 63 and takes every input of the die to 0, in that channel alone; the error
ends after 100 valid frames in a row, once no readback of the die disagrees with the channel's command (R258), with the
inputs at 0 again; a failed frame in an error only restarts the count. R22, R228, R266, R280: a valid frame of a field die
counts toward the end of a link error and carries the raw samples of its inputs and the readbacks of its outputs; the
one that channel A receives also carries the supply measurements, which no waiting notice of the die changes. R254,
R261, R507: a valid command frame brings the switch commands of its channel to the pairs of the die; a pair in ON whose
switch is commanded off goes to SHUTTING_DOWN, one in OFF goes to ON once both switches are on. A link error at the die
holds its channel's switches off, and on FLA latches every DQ in MODE OUTPUT and takes every CLO to UVOFF. R488: the inputs are
sampled from t3 of the start on. That the inputs read 0 at once, past the filter (DEDUCED, log entry 14), and what becomes of a
disagreement that is kept (DESIGN CHOICE, log entry 99), is the model's. -/
def Obligations.FieldFrames : Prop :=
  (∀ (s : State) (c : Chan) (d : Fin 2), s.Awake →
    let lost := fun u : Hw => (u.link c d).err = true ∧ (u.link c d).good = 0 ∧ u.bitOf F.EVT_PEND_PEND 1 (30 + d) = true ∧
      (∀ i ∈ dieInputs d, (u.di c i).filt = false ∧ (u.di c i).fRun = 0) ∧ ∀ c', c' ≠ c → ∀ i < 64, u.di c' i = s.hw.di c' i
    ((s.hw.link c d).err = false → ∀ fr : FieldFrame, fr.ok = false →
      ∃ u, exec (.fieldLinkFrame c d fr) s = .next (s.withHw u) ∧ lost u) ∧
    ((s.hw.link c d).err = false → ∃ u, exec (.fieldLinkTimeout c d) s = .next (s.withHw u) ∧ lost u) ∧
    ((s.hw.link c d).err = true → ∀ fr : FieldFrame, fr.ok = false →
      ∃ u, exec (.fieldLinkFrame c d fr) s = .next (s.withHw u) ∧ u.link c d = { s.hw.link c d with good := 0 } ∧ u.regs = s.hw.regs ∧
        ∀ c' i, u.di c' i = s.hw.di c' i) ∧
    (∃ u, exec (.fieldLinkRecovered c d) s = .next (s.withHw u) ∧
      if (s.hw.link c d).err = true ∧ 100 ≤ (s.hw.link c d).good ∧ (s.hw.link c d).dis = 0 then
        (u.link c d).err = false ∧ ∀ i ∈ dieInputs d, (u.di c i).filt = false ∧ (u.di c i).fRun = 0
      else u = s.hw)) ∧
  (∀ (s : State) (c : Chan) (d : Fin 2) (fr : FieldFrame), s.Awake → fr.ok = true →
    ∃ u, exec (.fieldLinkFrame c d fr) s = .next (s.withHw u) ∧ (u.link c d).err = (s.hw.link c d).err ∧
      (u.link c d).good = min ((s.hw.link c d).good + 1) 100 ∧
      (if s.hw.senses = true then (∀ k < 24, (u.di c (24 * d + k)).raw = nbit fr.di k) ∧
          ∀ k < 8, (u.di c (48 + 8 * d + k)).raw = nbit fr.dqRb k
        else ∀ i ∈ dieInputs d, u.di c i = s.hw.di c i) ∧
      (∀ k < 8, (u.so (8 * d + k)).pRb = nbit fr.pRb k ∧ (u.so (8 * d + k)).mRb = nbit fr.mRb k ∧
        (u.so (8 * d + k)).state = (s.hw.so (8 * d + k)).state ∧ (u.dq (8 * d + k)).rb = nbit fr.dqRb k) ∧
      (c = .a → Store.get (fun _ => []) s.hw.fio.notes d = [] → u.get F.SUP_VOLT_IN d = fr.vIn % 65536 ∧ u.get F.SUP_VOLT_OUT d = fr.vOut % 65536 ∧
        u.get F.SUP_CUR_IN d = fr.iIn % 65536 ∧ u.get F.SUP_CUR_OUT d = fr.iOut % 65536 ∧
        (s.hw.senses = true → ∀ k < 24, u.on F.DI_STAT_RAW (24 * d + k) = nbit fr.di k))) ∧
  (∀ (s : State) (d : Fin 2), s.Awake →
    ((s.hw.die d).errA = false → s.hw.fio.clrA = 0 → ∀ fr : CommandFrame, fr.ok = true →
      ∃ u, exec (.commandFrame .a d fr) s = .next (s.withHw u) ∧ ∀ k < 8,
        let n := 8 * d + k
        let p := s.hw.so n
        let on := nbit s.hw.fio.cmdP n && s.hw.outputsLive
        (u.so n).pCmd = on ∧ (u.so n).mOn = p.mOn ∧
        (p.state = .off → (u.so n).state = (if on && p.mOn then .on else .off) ∧ (u.so n).pOn = on) ∧
        (p.state = .on → (u.so n).state = if on then .on else .shutting) ∧
        (p.state = .latched → (u.so n).state = .latched)) ∧
    (∀ c, ∃ u, exec (.dieLinkError c d) s = .next (s.withHw u) ∧
      match c with
      | Chan.a => (u.die d).errA = true ∧ (u.die d).goodA = 0 ∧ ((s.hw.die d).errA = false →
          (∀ k < 8, ((s.hw.so (8 * d + k)).state = .latched → (s.hw.so (8 * d + k)).pOn = false) →
            (u.so (8 * d + k)).pOn = false) ∧
          (∀ k < 8, s.hw.dqInput (8 * d + k) = false → (u.dq (8 * d + k)).state = .latched) ∧
          ∀ k < 2, (u.clo (2 * d + k)).state = .uvOff ∧ (u.clo (2 * d + k)).drive = 0)
      | Chan.b => (u.die d).errB = true ∧ (u.die d).goodB = 0 ∧ ((s.hw.die d).errB = false →
          ∀ k < 8, ((s.hw.so (8 * d + k)).state = .latched → (s.hw.so (8 * d + k)).mOn = false) →
            (u.so (8 * d + k)).mOn = false)))

/-- R256, R258 to R262, R264, R265, R269, R270: SO pairs at their field die. A readback that differs, a failed off-pulse, 200 ms of
demagnetisation, overload of a switch that is on and overtemperature latch a pair that is not latched, with both switches off, its fault code, its SO_FLT bit and
event 52 or 53. The pair is judged as it stood when its 10 µs sample began (DESIGN CHOICE, log entry 98): a further fault of the sample in
which it latched gives the lower code, a later one keeps the code, and one of a pair that a clear of the sample took out of LATCHED
takes that back. An ON pair pulses a switch off and counts a
good pulse; the end of demagnetisation takes it to OFF; a channel that finds its own switch read back wrongly takes its
field link into error and keeps the disagreement. A latched pair leaves LATCHED only with a clear from each channel within 10 ms while
its fault's condition is gone: one clear alone, or any clear while COND is 1 or in the sample of a fault, leaves it latched. -/
def Obligations.SoPairs : Prop := (∀ (s : State) (n : Fin 16), s.Awake →
  let p := s.hw.so n
  let b := s.hw.soStart n
  let latches := fun (u : Hw) (code : Nat) =>
    (u.so n).state = .latched ∧ (u.so n).pOn = false ∧ (u.so n).mOn = false ∧ (u.so n).fcode = code ∧
      ((s.hw.link .a (n / 8)).err = false →
        u.bitOf F.SO_FLT_FLT n (code - 1) = true ∧ u.bitOf F.EVT_PEND_PEND 1 (20 + n / 8) = true)
  let codeAfter := fun (code : Nat) => if p.one = true ∧ s.hw.soFresh n = true then min code p.fcode else p.fcode
  (b.judged = true → (s.hw.die (n / 8)).supp = false → ∃ u, exec (.soReadback n true) s = .next (s.withHw u) ∧
    if p.state = .latched then (u.so n).state = .latched ∧ (u.so n).fcode = codeAfter soRbP else latches u soRbP) ∧
  (b.judged = true → (s.hw.die (n / 8)).supp = false → (b.pOn || b.mOn) = true →
    ∃ u, exec (.soReadback n false) s = .next (s.withHw u) ∧
      if p.state = .latched then (u.so n).state = .latched ∧ (u.so n).fcode = codeAfter soRbM else latches u soRbM) ∧
  (∀ c, let compared := s.hw.soJudged n = true ∧ (c = .a ∨ (p.pOn || p.mOn) = true)
    (compared → ∃ u, exec (.channelMismatch c n) s = .next (s.withHw u) ∧ (u.link c (n / 8)).err = true ∧
      nbit (u.link c (n / 8)).dis (n % 8) = true ∧ (u.so n).state = p.state ∧ (u.so n).fcode = p.fcode ∧ (u.so n).pOn = p.pOn ∧
      (u.so n).mOn = p.mOn) ∧
    (¬compared → exec (.channelMismatch c n) s = .next s)) ∧
  (∀ high, exec (.soOffPulse n high) s = .next (s.withHw
    (if p.state = .on ∧ s.hw.on F.SO_CFG_OPULSE n = true then
      s.hw.putSo n (if high then { p with offP := true } else { p with offM := true }) else s.hw))) ∧
  (∀ high rb, (if high then b.offP else b.offM) = true → (s.hw.die (n / 8)).supp = false →
    ∃ u, exec (.soOffPulseEnd n high rb) s = .next (s.withHw u) ∧
      if rb = high then p.state ≠ .latched → b.state ≠ .latched → latches u (if high then soOffpP else soOffpM)
      else u.get F.SO_OPCNT_COUNT n = (s.hw.get F.SO_OPCNT_COUNT n + 1) % 2 ^ 32 ∧ (u.so n).state = p.state ∧
        (u.so n).offP = (p.offP && !high) ∧ (u.so n).offM = (p.offM && high)) ∧
  (p.state = .shutting →
    (b.state ≠ .latched → ∃ u, exec (.demagTimeout n) s = .next (s.withHw u) ∧ latches u soDemag) ∧
    ∀ w, w = OutSw.soP n ∨ w = OutSw.soM n → ∃ u, exec (.demagComplete w) s = .next (s.withHw u) ∧ u.so n = { p with state := .off }) ∧
  (∀ high : Bool, let sw := if high then OutSw.soP n else .soM n
    ((if high then b.pOn else b.mOn) = true →
      (p.state ≠ .latched → b.state ≠ .latched → ∃ u, exec (.outputOverload sw) s = .next (s.withHw u) ∧ latches u soOvld) ∧
      (p.state = .latched → ∃ u, exec (.outputOverload sw) s = .next (s.withHw u) ∧ (u.so n).state = .latched ∧
        (u.so n).fcode = codeAfter soOvld)) ∧
    ((if high then b.pOn else b.mOn) = false → exec (.outputOverload sw) s = .next s)) ∧
  (p.state ≠ .latched → b.state = .latched → ∃ u, exec (.outputOvertemp (.soP n)) s = .next (s.withHw u) ∧
    (u.so n).state = .latched ∧ (u.so n).fcode = b.fcode ∧ (u.so n).pOn = false ∧ (u.so n).mOn = false) ∧
  (p.state ≠ .latched → b.state ≠ .latched →
    (∃ u, exec (.outputOvertemp (.soP n)) s = .next (s.withHw u) ∧ latches u soHot ∧ (u.so n).hotP = true) ∧
    ∃ u, exec (.outputOvertemp (.soM n)) s = .next (s.withHw u) ∧ latches u soHot ∧ (u.so n).hotM = true) ∧
  (p.state = .latched → ∃ u, exec (.outputOvertemp (.soP n)) s = .next (s.withHw u) ∧ (u.so n).state = .latched ∧
    (u.so n).fcode = codeAfter soHot) ∧
  ∃ u, exec (.outputCooled (.soP n)) s = .next (s.withHw u) ∧ u.so n = { p with hotP := false }) ∧
  ∀ (h : Hw) (n : Nat) (c : Chan), (h.so n).state = .latched →
  let other := match c with
    | .a => (h.so n).clrB
    | .b => (h.so n).clrA
  ((h.soClear c n).so n).state =
    if h.soCond n = false ∧ h.soFresh n = false ∧ (other.any fun t => decide (h.time ≤ t + 1000000)) = true then .off else .latched

/-- R269: a switch at its current limit for 5 ms, which the row OUTPUT_OVERLOAD reports, switches off and latches with fault OVLD;
both switches of an SO pair switch off together. A switch that is off does nothing then. This is of a switch that nothing else has
met in its 10 µs sample; SoPairs and DqTable state the rest. -/
def Obligations.OverloadSwitchesOff : Prop := ∀ (s : State) (n : Fin 16), s.Awake →
  (∀ high : Bool, s.hw.soStart n = s.hw.so n →
    let p := s.hw.so n
    let sw := if high then OutSw.soP n else .soM n
    ((if high then p.pOn else p.mOn) = true → p.state ≠ .latched → ∃ u, exec (.outputOverload sw) s = .next (s.withHw u) ∧
      (u.so n).state = .latched ∧ (u.so n).fcode = soOvld ∧ (u.so n).pOn = false ∧ (u.so n).mOn = false) ∧
    ((if high then p.pOn else p.mOn) = false → exec (.outputOverload sw) s = .next s)) ∧
  (s.hw.dqStart n = s.hw.dq n →
    ((s.hw.dq n).state = .on → s.hw.dqInput n = false → ∃ u, exec (.outputOverload (.dq n)) s = .next (s.withHw u) ∧
      (u.dq n).state = .latched ∧ (u.dq n).fcode = dqOvld) ∧
    ((s.hw.dq n).state ≠ .on → exec (.outputOverload (.dq n)) s = .next s))

/-- R266 to R270, R273, R507: a DQ in MODE OUTPUT follows the state table; a command in the sample of a fault leaves it
LATCHED, whichever of the two came first (DESIGN CHOICE, log entry 98), and a field die that finds FLA in error restarts none. -/
def Obligations.DqTable : Prop := ∀ (s : State) (n : Fin 16), s.Awake → s.hw.dqInput n = false →
  let q := s.hw.dq n
  (∀ (m : Master) (v : Word), s.hw.present m = true → s.hw.tmrSettle.granted m .DQ_CTL n = true →
    s.hw.tmrSettle.outputsLive = true → (s.hw.die (n / 8)).errA = false →
    let cond := s.hw.tmrSettle.dqCond n || s.hw.tmrSettle.dqFresh n
    (wbit v 1 = false → ∃ u, exec (.dqEnable m n v) s = .next (s.withHw u) ∧ u.on F.DQ_CTL_EN n = true ∧
      (u.dq n).state = (match q.state with
        | .off => if q.hot then .off else .on
        | .on => .on
        | .shutting => .shutting
        | .latched => if q.hot || cond then .latched else .on) ∧
      (q.state = .shutting → (u.dq n).pend = true) ∧
      (q.hot = true → q.state = .off ∨ q.state = .latched → u.on F.DQ_FLT_HOT_REF n = true)) ∧
    (wbit v 1 = false → ∃ u, exec (.dqDisable m n v) s = .next (s.withHw u) ∧ u.on F.DQ_CTL_EN n = false ∧
      (u.dq n).state = (match q.state with
        | .off => .off
        | .on => .shutting
        | .shutting => .shutting
        | .latched => if cond then .latched else .off) ∧
      (q.state = .on ∨ q.state = .shutting → (u.dq n).pend = false)) ∧
    (q.state = .latched → cond = false → wbit v 0 = false →
      ∃ u, exec (.dqFltClr m n v) s = .next (s.withHw u) ∧ (u.dq n).state = .off ∧ (u.dq n).fcode = 0)) ∧
  (q.state = .shutting → ∃ u, exec (.demagComplete (.dq n)) s = .next (s.withHw u) ∧ (u.dq n).pend = false ∧
    (u.dq n).state = if q.pend && s.hw.outputsLive then .on else .off) ∧
  (let latches := fun (u : Hw) (code : Nat) => (u.dq n).state = .latched ∧ (u.dq n).pend = false ∧ (u.dq n).fcode = code ∧
      ((s.hw.link .a (n / 8)).err = false →
        u.bitOf F.DQ_FLT_FLT n (code - 1) = true ∧ u.bitOf F.EVT_PEND_PEND 1 (22 + n / 8) = true);
    let b := s.hw.dqStart n;
    (b.state = .off ∨ b.state = .on → q.state ≠ .latched → (s.hw.die (n / 8)).supp = false →
      ∃ u, exec (.dqReadback n) s = .next (s.withHw u) ∧ latches u dqRb) ∧
    (b.state = .on → ∃ u, exec (.outputOverload (.dq n)) s = .next (s.withHw u) ∧
      if q.state = .latched then (u.dq n).state = .latched ∧ (u.dq n).fcode = q.fcode else latches u dqOvld) ∧
    (b.state ≠ .on → exec (.outputOverload (.dq n)) s = .next s) ∧
    (q.state ≠ .latched → b.state = .latched → ∃ u, exec (.outputOvertemp (.dq n)) s = .next (s.withHw u) ∧
      (u.dq n).state = .latched ∧ (u.dq n).fcode = b.fcode ∧ (u.dq n).hot = true) ∧
    (q.state ≠ .latched → b.state ≠ .latched → ∃ u, exec (.outputOvertemp (.dq n)) s = .next (s.withHw u) ∧ latches u dqHot ∧ (u.dq n).hot = true)) ∧
  ∃ u, exec (.outputCooled (.dq n)) s = .next (s.withHw u) ∧ (u.dq n).hot = false ∧
    (u.dq n).state =
      if q.state = .latched ∧ q.fcode = dqHot ∧ s.hw.on F.DQ_CFG_TH_RESTART n = true ∧ s.hw.on F.DQ_CTL_EN n = true ∧
        s.hw.outputsLive = true ∧ (s.hw.die (n / 8)).errA = false ∧ s.hw.dqFresh n = false then .on else q.state

/-- R274 to R278, R508: a field supply group follows its supply, which the dies measure from t3 on. The rows that only move the group's state name its new
record and change, beside it, only the registers that show the die. R248, R249, R274, R277: at a confirmed cut, and at a
group overcurrent trip, every SO pair and every DQ in MODE OUTPUT that is not latched latches with UV or GRP_OVC, every
CLO goes to UVOFF at 0 mA, the test pulses of the group stop, and the inputs of its die are forced; a cut is counted
with event 58 or 59, a trip is not. That RECOVERING is entered from WARN too is log entry 54 (DEDUCED), and that the end of the
suppression finds a supply that is below cut-off again suppressed afresh is log entry 138 (DEDUCED). -/
def Obligations.SupplyGroups : Prop :=
  (∀ (s : State) (g : Fin 2), s.Awake →
    let x := s.hw.die g
    let shows := fun (i : Instr) (y : FieldDie) => ∃ u, exec i s = .next (s.withHw u) ∧ u.die g = y ∧
      (∀ g', g' ≠ (g : Nat) → u.die g' = s.hw.die g') ∧
      u = { s.hw with regs := u.regs, fio := { s.hw.fio with dies := u.fio.dies } } ∧
      ((s.hw.link .a g).err = false → u.get F.SUP_STAT_STATE g = y.state.code ∧ u.on F.SUP_STAT_SUPP g = y.supp)
    (x.state = .valid → (s.hw.link .a g).err = false → ∃ u, exec (.supplyWarn g) s = .next (s.withHw u) ∧
      u.die g = { x with state := .warn } ∧ u.on F.SUP_ERR_WARN g = true ∧ u.bitOf F.EVT_PEND_PEND 1 (24 + g) = true) ∧
    (x.state = .warn → shows (.supplyBelow g) { x with state := .low, supp := true }) ∧
    (x.state = .low → shows (.supplyAbove g) { x with state := .warn }) ∧
    (s.hw.senses = false → exec (.supplyRecovering g) s = .next s ∧ exec (.supplyValid g) s = .next s) ∧
    (s.hw.senses = true → x.state = .cut ∨ x.state = .warn → shows (.supplyRecovering g) { x with state := .recovering }) ∧
    (s.hw.senses = true → x.state = .recovering →
      shows (.supplyValid g) { x with state := .valid, cut := false, start := false, ovc := x.ovc && x.held }) ∧
    (x.cut = false → x.held = false → shows (.suppressionEnd g) { x with supp := x.state == .low, tpSupp := false }) ∧
    (x.held = true → x.state = .valid → shows (.groupRestore g) { x with held := false }) ∧
    (shows (.vfoutRetry g) { x with vfOvld := false }) ∧
    (s.hw.vfOn g = true → (s.hw.link .a g).err = false → ∃ u, exec (.vfoutOverload g) s = .next (s.withHw u) ∧
      u.die g = { x with vfOvld := true } ∧ u.on F.SUP_ERR_VFOUT_OVLD g = true ∧ u.on F.SUP_STAT_VFOUT_ON g = false) ∧
    (x.held = false → x.errA = false → x.state = .valid → s.hw.devLive = true →
      ∃ u, exec (.uvRestore g) s = .next (s.withHw u) ∧
        (∀ k < 8, let q := s.hw.dq (8 * g + k)
          (u.dq (8 * g + k)).state =
            if s.hw.outputsLive = true ∧ s.hw.dqInput (8 * g + k) = false ∧ q.state = .latched ∧ (q.fcode = dqUv ∨ q.fcode = dqGrpOvc) ∧
              s.hw.on F.DQ_CFG_UV_RESTORE (8 * g + k) = true ∧ s.hw.on F.DQ_CTL_EN (8 * g + k) = true then .on else q.state) ∧
        ∀ k < 2, (s.hw.clo (2 * g + k)).state = .uvOff → s.hw.on F.CLO_CFG_UV_RESTORE (2 * g + k) = true →
          s.hw.on F.CLO_CTL_EN (2 * g + k) = true →
          (u.clo (2 * g + k)).state = .on ∧ (u.clo (2 * g + k)).drive = s.hw.get F.CLO_SET_UA (2 * g + k))) ∧
  (∀ (s : State) (g : Fin 2), s.Awake →
    let off := fun (u : Hw) (so dq : Nat) =>
      (∀ k < 8, (s.hw.so (8 * g + k)).state ≠ .latched → (u.so (8 * g + k)).state = .latched ∧
        (u.so (8 * g + k)).fcode = (if (s.hw.soStart (8 * g + k)).state = .latched then (s.hw.soStart (8 * g + k)).fcode else so) ∧
        (u.so (8 * g + k)).pOn = false ∧ (u.so (8 * g + k)).mOn = false) ∧
      (∀ k < 8, (s.hw.dq (8 * g + k)).state ≠ .latched → s.hw.dqInput (8 * g + k) = false →
        (u.dq (8 * g + k)).state = .latched ∧
        (u.dq (8 * g + k)).fcode = if (s.hw.dqStart (8 * g + k)).state = .latched then (s.hw.dqStart (8 * g + k)).fcode else dq) ∧
      (∀ k < 2, (u.clo (2 * g + k)).state = .uvOff ∧ (u.clo (2 * g + k)).drive = 0) ∧
      (∀ k < 8, (u.tpSrc (8 * g + k)).flag = false) ∧ (u.die g).tpSupp = true ∧
      (∀ c, u.tpPeriodSuppressed c g = true) ∧ ∀ c, (s.hw.die g).start = false → u.forced c g = true
    ((s.hw.die g).state = .low → (s.hw.link .a g).err = false →
      ∃ u, exec (.supCut g) s = .next (s.withHw u) ∧ off u soUv dqUv ∧ (u.die g).state = .cut ∧
        u.on F.SUP_ERR_CUT g = true ∧ u.get F.SUP_CUTCNT_COUNT g = min (s.hw.get F.SUP_CUTCNT_COUNT g + 1) 65535 ∧
        u.bitOf F.EVT_PEND_PEND 1 (26 + g) = true) ∧
    ((s.hw.die g).held = false → (s.hw.link .a g).err = false →
      ∃ u, exec (.groupTrip g) s = .next (s.withHw u) ∧ off u soGrpOvc dqGrpOvc ∧ (u.die g).held = true ∧ (u.die g).supp = true ∧
        u.on F.SUP_ERR_OVC g = true ∧ u.on F.SUP_STAT_OVC g = true ∧
        u.bitOf F.EVT_PEND_PEND 1 (26 + g) = s.hw.bitOf F.EVT_PEND_PEND 1 (26 + g)))

/-- R288 to R290, R262: a CLO follows the state table, ramps down linearly, and enters ALARM on a fault with its alarm
current, its code and event 61; a command in the sample of the fault leaves it in ALARM (R273). That FLT_CLR finds EN as the same
write leaves it is log entry 51 (DEDUCED). -/
def Obligations.CloTable : Prop := ∀ (s : State) (n : Fin 4), s.Awake →
  let x := s.hw.clo n
  (∀ (m : Master) (v : Word), s.hw.present m = true → s.hw.tmrSettle.granted m .CLO_CTL n = true → wbit v 1 = false →
    let h := s.hw.tmrSettle
    (h.devLive = true → (s.hw.die (n / 2)).errA = false →
      ∃ u, exec (.cloEnable m n v) s = .next (s.withHw u) ∧ u.on F.CLO_CTL_EN n = true ∧
        (u.clo n).state = (match x.state with
          | .off => .on
          | .on => .on
          | .shutting => .shutting
          | .alarm => .alarm
          | .uvOff => if (s.hw.die (n / 2)).state = .valid ∧ (s.hw.die (n / 2)).held = false then .on else .uvOff) ∧
        (x.state = .off → (u.clo n).drive = h.get F.CLO_SET_UA n) ∧ (x.state = .shutting → (u.clo n).pend = true)) ∧
    ∃ u, exec (.cloDisable m n v) s = .next (s.withHw u) ∧ u.on F.CLO_CTL_EN n = false ∧
      (u.clo n).state = (match x.state with
        | .off => .off
        | .on => .shutting
        | .shutting => .shutting
        | .alarm => if h.cloFresh n then .alarm else .off
        | .uvOff => .uvOff) ∧
      (x.state = .on → (u.clo n).rampFrom = x.drive ∧ (u.clo n).rampLeft = h.get F.CLO_CFG_RAMP n) ∧
      (x.state = .shutting → (u.clo n).pend = false)) ∧
  (∀ (m : Master) (v : Word), s.hw.present m = true → s.hw.tmrSettle.granted m .CLO_CTL n = true →
    s.hw.tmrSettle.devLive = true → x.state = .alarm → x.alarmCond = false → s.hw.tmrSettle.cloFresh n = false →
    ∃ u, exec (.cloFltClr m n v) s = .next (s.withHw u) ∧ (u.clo n).fcode = 0 ∧
      (u.clo n).state = if wbit v 0 then .on else .off) ∧
  (∀ meas headroom, ∃ u, exec (.cloUpdate n meas headroom) s = .next (s.withHw u) ∧ (u.clo n).state = x.state ∧
    (u.clo n).meas = meas ∧ (u.clo n).headroom = headroom ∧ (x.state = .on → (u.clo n).drive = s.hw.get F.CLO_SET_UA n) ∧
    (x.state = .shutting → (u.clo n).rampLeft = x.rampLeft - 1 ∧ (s.hw.get F.CLO_CFG_RAMP n ≠ 0 →
      (u.clo n).drive = x.rampFrom * (x.rampLeft - 1) / s.hw.get F.CLO_CFG_RAMP n))) ∧
  (x.state = .shutting → ∃ u, exec (.cloRampComplete n) s = .next (s.withHw u) ∧ (u.clo n).pend = false ∧
    (u.clo n).state = if x.pend && s.hw.devLive then .on else .off) ∧
  (x.judged = true →
    let alarms := fun (u : Hw) (code : Nat) => (u.clo n).state = .alarm ∧ (u.clo n).fcode = code ∧ (u.clo n).pend = false ∧
      (u.clo n).drive = (if s.hw.on F.CLO_CFG_ALM_HI n && decide (code ≠ cloCompliance) then 22500 else 3500) ∧
      ((s.hw.link .a (n / 2)).err = false → u.bitOf F.EVT_PEND_PEND 1 29 = true);
    (x.meas < 500 → 4000 ≤ x.drive → ∃ u, exec (.cloOpenFault n) s = .next (s.withHw u) ∧ alarms u cloOpen) ∧
    (x.headroom < 1000 → 500 ≤ x.meas → ∃ u, exec (.cloComplianceFault n) s = .next (s.withHw u) ∧ alarms u cloCompliance) ∧
    (x.condOf cloRb = true → ∃ u, exec (.cloReadbackFault n) s = .next (s.withHw u) ∧ alarms u cloRb)) ∧
  (x.state = .alarm → x.drive = 22500 → x.headroom < 1000 →
    ∃ u, exec (.cloComplianceFault n) s = .next (s.withHw u) ∧ (u.clo n).drive = 3500 ∧ (u.clo n).forcedLow = true)

/-- R281, R284, R285: a channel forms the value of a CLI once a millisecond by the pseudocode of R281, without the factory
trim where the MFG region has failed, from t4 of the start on (R488); channel A shows it, and an NE 43 alarm that begins raises event 60. A discrepancy of the paths sets PDISC with event 60. R283: the
characteristics. The root is the whole part of the square root; a table value stands at each table point, with the end
values beyond the range; SQRT gives PVLO at and below 4 mA with a cut above 0, and PVHI at 20 mA and beyond. -/
def Obligations.CliValues : Prop :=
  (∀ (s : State) (n : Fin 8), s.Awake →
    (s.hw.measures = false → ∀ c codes, exec (.cliValueForm c n codes) s = .next s) ∧
    (∀ c codes, s.hw.measures = true →
      let m := if s.hw.on F.CLI_STAT_NOTRIM n then cliCurrent c codes else Config.factoryTrim (c == .b) n (cliCurrent c codes)
      let x := (s.hw.cli c n).form (s.hw.cliPar c n) m
      ∃ u, exec (.cliValueForm c n codes) s = .next (s.withHw u) ∧ u.cli c n = x ∧
        (∀ c' k, k < 8 → (c', k) ≠ (c, (n : Nat)) → u.cli c' k = s.hw.cli c' k) ∧
        (c = .a → u.get F.CLI_MEAS_VALUE n = unsigned32 x.meas ∧ u.get F.CLI_CUR_VALUE n = unsigned32 x.cur ∧
          u.get F.CLI_PV_VALUE n = unsigned32 x.pv ∧ u.on F.CLI_STAT_NE_LO n = decide (x.cur < 3600000) ∧
          u.on F.CLI_STAT_NE_HI n = decide (21000000 < x.cur) ∧ u.on F.CLI_STAT_VALID n = true ∧
          (x.neLo = true → (s.hw.cli c n).neLo = false → u.bitOf F.EVT_PEND_PEND 1 28 = true))) ∧
    (s.hw.cliApart n = true → ∃ u, exec (.cliDiscrepancy n) s = .next (s.withHw u) ∧ u.on F.CLI_STAT_PDISC n = true ∧
      u.on F.CLI_FLT_PDISC n = true ∧ u.bitOf F.EVT_PEND_PEND 1 28 = true) ∧
    (s.hw.cliApart n = false → exec (.cliDiscrepancy n) s = .next s)) ∧
  ((∀ n, n < 2 ^ 50 → isqrt n * isqrt n ≤ n ∧ n < (isqrt n + 1) * (isqrt n + 1)) ∧
    (∀ (p : CliCfg) (k : Nat) (t : Int), k ≤ 32 → t = 4000000 + 500000 * k → -2147483648 ≤ p.tbl.getD k 0 →
      p.tbl.getD k 0 ≤ 2147483647 → cliTable p t = p.tbl.getD k 0) ∧
    (∀ (p : CliCfg) (t : Int), 20000000 ≤ t → cliTable p t = p.tbl.getD 32 0) ∧
    (∀ (p : CliCfg) (t : Int), t ≤ 4000000 → 1 ≤ p.cut → cliSqrt p t = p.pvlo) ∧
    (∀ (p : CliCfg) (t : Int), 20000000 ≤ t → p.cut ≤ 65535 → -2147483648 ≤ p.pvhi → p.pvhi ≤ 2147483647 →
      cliSqrt p t = p.pvhi))

/-- R305 to R308, R316, R324, R326, R327, R509: a mismatch, a comparator fault and a failed injection test of a Pod in
lockstep are recorded with bit, port and address and counted. The Pod halts for the boundary while a healthy standby, or
a running primary, can go on; a primary without a healthy standby is reset and its pair forced SAFE at once. A passed
injection test counts and advances to the next bit. R316, R317, R319, R326: at the boundary after its mismatch a halted
primary goes to RESETTING and its standby, which does not mismatch itself, is PRIMARY and vote source, whatever became of
its health in between (DEDUCED, log entry 113); no pair is forced and no image changes.
R190, R324, R335: what a forced pair shows. SFN_STAT of each of its functions reads SAFE, GROUP_SAFE, RSTREQ 1 and CAUSE_ON 0
whatever the images hold, TRIPPED as the image holds it, and GSAFE of the pair is in the byte of the exchange frame. -/
def Obligations.PodMismatches : Prop :=
  (∀ (s : State) (p : Fin 6), s.Awake → s.hw.lockstep p = true →
    let h := s.hw
    let q := otherPod p
    let recorded := fun (u : Hw) (b : Nat) (port : Nat) (cmpf inj : Bool) (event : Nat) =>
      u.on F.POD_MMINFO_VALID p = true ∧ u.get F.POD_MMINFO_BIT p = b ∧ u.get F.POD_MMINFO_PORT p = port ∧
        u.on F.POD_MMINFO_CMPF p = cmpf ∧ u.on F.POD_MMINFO_INJ p = inj ∧
        u.on F.POD_MMINFO_PRIM p = decide (h.podState p = podPrimary) ∧
        u.get F.POD_MMCNT_MISMATCH p = min (h.get F.POD_MMCNT_MISMATCH p + 1) 65535 ∧ u.bitOf F.EVT_PEND_PEND 3 event = true ∧
        (cmpf = true → (u.pod p).retire = rcCmp)
    let role := fun (u : Hw) =>
      (h.podState p = podPrimary → h.healthyStandby q = true → (h.pod q).halted = false → u.podState p = podPrimary ∧ (u.pod p).halted = true ∧
        ∀ k, k < 3 → u.forcedPair k = h.forcedPair k) ∧
      (h.podState p = podPrimary → h.healthyStandby q = false ∨ (h.pod q).halted = true → u.podState p = podResetting ∧
        u.forcedPair (pairOf p) = true) ∧
      (h.podState p = podStandby → (h.pod q).halted = false → u.podState p = podStandby ∧ (u.pod p).halted = true ∧
        u.podState q = h.podState q) ∧
      (h.podState p = podIdle → u.podState p = podResetting)
    let port := fun b : Nat => if b < 80 then 0 else if b < 152 then 1 else 2
    (∀ (b : Fin 256) (a : Word),
      (∃ u, exec (.podMismatch p b a) s = .next (s.withHw u) ∧ recorded u b (port b) false false 24 ∧ role u ∧
        u.get F.POD_MMADDR_ADDR p = if b.val < 80 then a.toNat else if b.val < 152 then a.toNat % 2 ^ 18 else 0) ∧
      ∃ u, exec (.comparatorFault p b a) s = .next (s.withHw u) ∧ recorded u b (port b) true false 25 ∧ role u) ∧
    (let b := h.get F.POD_INJ_NEXT p
     (exec (.injectionTest p true true) s = .next (s.withHw
        ((h.set F.POD_INJ_NEXT p (if b = 159 then 0 else b + 1)).wrap F.POD_INJ_PASS p))) ∧
     ∀ c0 c1, (c0 && c1) = false →
      ∃ u, exec (.injectionTest p c0 c1) s = .next (s.withHw u) ∧ recorded u b (port b) true true 25 ∧ role u)) ∧
  (∀ (h : Hw) (q p : Nat), q < 3 → p = 2 * q ∨ p = 2 * q + 1 →
    h.podState p = podPrimary → (h.pod p).halted = true → (h.pod (otherPod p)).halted = false →
    let u := h.promote q
    u.podState p = podResetting ∧ u.podState (otherPod p) = podPrimary ∧ u.on F.POD_STAT_VOTE (otherPod p) = true ∧
      u.on F.POD_STAT_VOTE p = false ∧ u.images = h.images ∧ u.evA = h.evA ∧ ∀ k, k < 3 → u.forcedPair k = h.forcedPair k) ∧
  (∀ (h : Hw) (n q : Nat), n < 256 → q < 3 → h.forcedPair q = true →
    h.get F.SFN_CFG_PAIR n = q → h.get F.SFN_CFG_TYPE n ≠ 0 →
    let w := h.readWord .SFN_STAT n
    F.SFN_STAT_STATE.val w = 0 ∧ F.SFN_STAT_CAUSE.val w = 0x13 ∧ F.SFN_STAT_RSTREQ.val w = 1 ∧ F.SFN_STAT_CAUSE_ON.val w = 0 ∧
      F.SFN_STAT_TRIPPED.val w = bit (nbit (h.owned (slotSfn n)) 3) ∧ nbit h.gsafeByte q = true)

/-- R310, R319 to R325, R327, R339: the way of a Pod back into service. A reset wipes its memories and ends in RETIRED,
REJOINING or RELOADING; a copy pass and the final copy bring the primary's memories, and the final one its images, with
STANDBY and event 123; a rejoin without a stall in 64 boundaries is held until REJOIN is written; a reload with a good
image waits for the boundary, and one without, or with a read error, retires the Pod. R31, R334 to R337, R461: debuggers.
DEBUG_ATTACH to a Pod that is not split, whatever its state (DEDUCED, log entry 112), is granted while DBG is enabled and CRIT does not refuse it, in
FIELD for Pods 4 and 5 only: it breaks the lockstep with event 122 and forces the pair SAFE, and the lockstep stays broken
after DEBUG_DETACH; an attach to a Pod whose lockstep is broken already only sets DBG, as SPLIT_DEBUG_ATTACH to a Pea of a
split Pod does. DEBUG_PORT_REFUSAL: without DBG a read at the port answers data 0 and a refusal, and no other request has
an effect. -/
def Obligations.PodReturn : Prop :=
  (∀ (s : State) (p : Fin 6), s.Awake →
    let h := s.hw
    let q := otherPod p
    (h.podState p = podResetting →
      ∃ u, exec (.podResetDone p) s = .next (s.withHw u) ∧
        (∀ a, a < 2 ^ 32 → Store.get (fun _ => 0) u.priv (privKey p a) = 0) ∧
        ((h.pod p).retire ≠ 0 → u.podState p = podRetired ∧ u.get F.POD_STAT_RCAUSE p = (h.pod p).retire % 16) ∧
        ((h.pod p).retire = 0 → h.on F.POD_STAT_LOCKSTEP_BROKEN p = false →
          u.podState p = if (h.pod p).plan = .rejoin ∧ h.podState q ≠ podRetired then podRejoining else podReloading) ∧
        ((h.pod p).retire = 0 → h.on F.POD_STAT_LOCKSTEP_BROKEN p = true → u.podState p = podResetting)) ∧
    (∀ src, h.podState p = podRejoining → h.primaryOf (pairOf p) = some src → Store.wf (fun _ => 0) h.priv = true →
      ((h.pod p).phase = .copying → ∃ u, exec (.rejoinPassDone p) s = .next (s.withHw u) ∧ (u.pod p).phase = .copied ∧
        u.get F.POD_REJ_PASSES p = min (h.get F.POD_REJ_PASSES p + 1) 255 ∧
        ∀ a, a < 2 ^ 32 → Store.get (fun _ => 0) u.priv (privKey p a) = Store.get (fun _ => 0) h.priv (privKey src a)) ∧
      ((h.pod p).phase = .stalled → h.on F.POD_STAT_LOCKSTEP_BROKEN p = false → ∃ u, exec (.rejoinComplete p) s = .next (s.withHw u) ∧ u.podState p = podStandby ∧
        u.get F.POD_MMCNT_REJOINS p = min (h.get F.POD_MMCNT_REJOINS p + 1) 65535 ∧ u.bitOf F.EVT_PEND_PEND 3 27 = true ∧
        (∀ n, n < 256 → u.image p (slotSfn n) = h.image src (slotSfn n)) ∧
        (∀ k ∈ outputSlots, u.image p k = h.image src k) ∧
        ∀ a, a < 2 ^ 32 → Store.get (fun _ => 0) u.priv (privKey p a) = Store.get (fun _ => 0) h.priv (privKey src a))) ∧
    (h.podState p = podRejoining → (h.pod p).phase = .copied ∨ (h.pod p).phase = .copying → 64 ≤ (h.pod p).tries →
      ∃ u, exec (.rejoinAbandon p) s = .next (s.withHw u) ∧ u.on F.POD_STAT_REJFAIL p = true ∧ u.podState p = podRejoining) ∧
    (∀ (m : Master) (v : Word), h.present m = true → h.tmrSettle.granted m .POD_CTL p = true →
      ∃ u, exec (.rejoinRestart m p v) s = .next (s.withHw u) ∧ u.on F.POD_STAT_REJFAIL p = false ∧
        (h.on F.POD_STAT_REJFAIL p = true → (u.pod p).phase = .held ∧ (u.pod p).tries = 0) ∧
        (h.on F.POD_STAT_REJFAIL p = false → u = h.tmrSettle)) ∧
    (h.podState p = podReloading →
      (∀ i d, h.goodImage (pairOf p) = some (i, d) → ∀ ce, ∃ u, exec (.podReloadDone p ⟨none, ce⟩) s = .next (s.withHw u) ∧
        u.get F.DDR_CECNT_COUNT 0 = min (h.get F.DDR_CECNT_COUNT 0 + ce) (2 ^ 32 - 1) ∧
        (∀ k < i.length, i.length ≤ 131072 → Store.get (fun _ => 0) u.priv (privKey p (0x80000000 + k)) = i.getD k 0) ∧
        if (h.pod p).plan = .idle then u.podState p = podIdle else (u.pod p).loaded = true) ∧
      (h.goodImage (pairOf p) = none → ∀ ce, ∃ u, exec (.podReloadDone p ⟨none, ce⟩) s = .next (s.withHw u) ∧
        u.podState p = podRetired ∧ u.get F.POD_STAT_RCAUSE p = rcReload) ∧
      ∀ off ce, ∃ u, exec (.podReloadDone p ⟨some off, ce⟩) s = .next (s.withHw u) ∧ u.podState p = podRetired ∧
        u.get F.POD_STAT_RCAUSE p = rcReload ∧ u.on F.DDR_EVT_UE 0 = true)) ∧
  (∀ (s : State) (p : Fin 6), s.Awake →
    let h := s.hw
    let allowed := h.on F.SEC_STAT_DBG_EN 0 = true ∧ h.bitOf F.OTP_CRIT_VALUE 0 2 = false ∧ (h.get F.GLB_LIFE_LC 0 = 2 → 4 ≤ p.val)
    (allowed → h.on F.POD_STAT_LOCKSTEP_BROKEN p = false → h.podState p ≠ podSplit → ∃ u, exec (.debugAttach p) s = .next (s.withHw u) ∧
      u.on F.POD_STAT_LOCKSTEP_BROKEN p = true ∧ u.on F.POD_STAT_DBG p = true ∧ u.forcedPair (pairOf p) = true ∧
      u.bitOf F.EVT_PEND_PEND 3 26 = true ∧ u.lockstep p = false) ∧
    (allowed → h.on F.POD_STAT_LOCKSTEP_BROKEN p = true →
      exec (.debugAttach p) s = .next (s.withHw (h.setB F.POD_STAT_DBG p true))) ∧
    (¬ allowed ∨ (h.on F.POD_STAT_LOCKSTEP_BROKEN p = false ∧ h.podState p = podSplit) → exec (.debugAttach p) s = .next s) ∧
    (exec (.debugDetach p) s = .next (s.withHw (h.setB F.POD_STAT_DBG p false))) ∧
    (h.on F.SEC_STAT_DBG_EN 0 = true → h.podState p = podSplit →
      exec (.splitDebugAttach p) s = .next (s.withHw (h.setB F.POD_STAT_DBG p true))) ∧
    (h.on F.SEC_STAT_DBG_EN 0 = false ∨ h.podState p ≠ podSplit → exec (.splitDebugAttach p) s = .next s) ∧
    (h.on F.SEC_STAT_DBG_EN 0 = false → exec (.debugPortRefusal .read) s = .next (s.withHw { h with bus := 0, resp := .refused }) ∧
      ∀ q, q ≠ .read → exec (.debugPortRefusal q) s = .next s))

/-- R340, R342, R343, R347, R349, R358: what a tick does. The prescaler of a running timer that is not chained expires
PSC + 1 clocks after it last did. Below the top, CNT then goes up by one. At or above RELOAD_ACT it goes to 0 with WRAP
set, the preloads become active unless IMM is 1, PWM drives OUT to 1, or to 0 where CMP_ACT is 0, ONESHOT clears EN, and a timer chained to it ticks
in the same clock. After a change of CNT that meets CMP_ACT the clock sets CMP and drives OUT by OUTMODE. A timer that
does not run, is chained, or whose prescaler runs yet is not ticked. R344 to R346: a capture. The source gives an edge
when its level has stood at the other value for FLT + 1 clocks, the running one among them, or at its pulse; of the edges that CAPEDGE selects every
(DIV + 1)th captures CNT into TMR_CAP with CAP, and with CAPOVR where CAP stood; CAPRST then takes CNT to 0. TMR_CAPTURE
names its edge (DEDUCED, log entry 57); where the state does not show that edge nothing changes. R341, R342, R346, R348, R349, R351: writes of a timer's registers by a master that its binding
lets in. TMR_CTL keeps CNT and takes its fields, CHAIN of timer 0 staying 0; EN written 1 starts prescaler and edge
count again; a preload becomes active at once with IMM (the model's choice, log entry 79: R342 says in the clock after the write) and
at the next wrap without; a write of TMR_CNT in a clock in
which the counter changed is lost; a capture source that is the timer's own compare output is not taken, and the edge
count starts again. -/
def Obligations.TimerUnits : Prop :=
  (∀ (s : State) (n : Fin 32), s.Awake →
    let h := s.hw
    let due := h.on F.TMR_CTL_EN n = true ∧ h.on F.TMR_CTL_CHAIN n = false ∧ (h.timer n).start + (h.timer n).psc + 1 ≤ h.time
    let top := h.get F.TMR_RELOAD_ACT_VALUE n ≤ h.get F.TMR_CNT_COUNT n
    (due → ¬ top → ∃ u, exec (.tmrTick n) s = .next (s.withHw u) ∧
      u.get F.TMR_CNT_COUNT n = h.get F.TMR_CNT_COUNT n + 1 ∧ (u.timer n).due = true ∧
      (u.timer n).start = (h.timer n).start + (h.timer n).psc + 1 ∧
      u.word .TMR_CTL n = h.word .TMR_CTL n ∧ ∀ k, k ≠ (n : Nat) → u.word .TMR_CNT k = h.word .TMR_CNT k) ∧
    (due → top → ∃ u, exec (.tmrWrap n) s = .next (s.withHw u) ∧ u.get F.TMR_CNT_COUNT n = 0 ∧
      (if h.on F.TMR_CTL_IMM n then u.word .TMR_RELOAD_ACT n = h.word .TMR_RELOAD_ACT n ∧ u.word .TMR_CMP_ACT n = h.word .TMR_CMP_ACT n ∧
          (u.timer n).psc = (h.timer n).psc
        else u.get F.TMR_RELOAD_ACT_VALUE n = h.get F.TMR_RELOAD_VALUE n ∧ u.get F.TMR_CMP_ACT_VALUE n = h.get F.TMR_CMP_VALUE n ∧
          (u.timer n).psc = h.get F.TMR_CTL_PSC n) ∧
      u.on (tmrFlag tfWrap) n = true ∧ u.on F.TMR_CTL_EN n = !h.on F.TMR_CTL_ONESHOT n ∧
      (h.get F.TMR_CTL_OUTMODE n = omPwm → u.on F.TMR_STAT_OUT n = decide (u.get F.TMR_CMP_ACT_VALUE n ≠ 0)) ∧
      (n.val < 31 → u.get F.TMR_CNT_COUNT (n + 1) =
        if h.on F.TMR_CTL_EN (n + 1) = true ∧ h.on F.TMR_CTL_CHAIN (n + 1) = true then
          (if h.get F.TMR_RELOAD_ACT_VALUE (n + 1) ≤ h.get F.TMR_CNT_COUNT (n + 1) then 0 else h.get F.TMR_CNT_COUNT (n + 1) + 1)
        else h.get F.TMR_CNT_COUNT (n + 1))) ∧
    (¬ due ∨ top → exec (.tmrTick n) s = .next s) ∧ (¬ due ∨ ¬ top → exec (.tmrWrap n) s = .next s) ∧
    ∃ u, exec (.tmrCompareMatch n) s = .next (s.withHw u) ∧ (u.timer n).due = false ∧
      ((h.timer n).due = true → h.get F.TMR_CNT_COUNT n = h.get F.TMR_CMP_ACT_VALUE n →
        u.on (tmrFlag tfCmp) n = true ∧
        u.on F.TMR_STAT_OUT n =
          (let m := h.get F.TMR_CTL_OUTMODE n
           if m = omSet then true else if m = omClear ∨ m = omPwm then false
           else if m = omToggle then !h.on F.TMR_STAT_OUT n else h.on F.TMR_STAT_OUT n)) ∧
      ((h.timer n).due = false → u.word .TMR_STAT n = h.word .TMR_STAT n)) ∧
  (∀ (s : State) (n : Fin 32) (src : Fin 256) (rising sameClock : Bool), s.Awake →
    let h := s.hw
    let t := h.timer n
    let edge := h.get F.TMR_CTL_CAPEDGE n
    let level := h.captureLevel src
    let found := h.on F.TMR_CTL_EN n = true ∧ h.get F.TMR_CAPCFG_SRC n = src.val ∧
      (sameClock = true ↔ t.moved = some h.time) ∧
      if levelSource src then level = rising ∧ level ≠ t.level ∧ h.get F.TMR_CAPCFG_FLT n ≤ t.held else src.val ∈ h.pulses.drop t.taken
    let selected := levelSource src = false ∨ edge = 2 ∨ (edge = 0 ∧ level = true) ∨ (edge = 1 ∧ level = false)
    (¬ found → exec (.tmrCapture n src rising sameClock) s = .next s) ∧
    (found → ∃ u, exec (.tmrCapture n src rising sameClock) s = .next (s.withHw u) ∧ (levelSource src = true → (u.timer n).level = level ∧ (u.timer n).held = 0) ∧
      (¬ selected → u.regs = h.regs ∧ (u.timer n).edges = t.edges) ∧
      (selected → t.edges < h.get F.TMR_CAPCFG_DIV n → u.regs = h.regs ∧ (u.timer n).edges = t.edges + 1) ∧
      (selected → h.get F.TMR_CAPCFG_DIV n ≤ t.edges → (u.timer n).edges = 0 ∧ (h.on F.TMR_CTL_CAPEN n = false → u.regs = h.regs) ∧
        (h.on F.TMR_CTL_CAPEN n = true →
          u.get F.TMR_CAP_VALUE n = h.get F.TMR_CNT_COUNT n ∧ u.on (tmrFlag tfCap) n = true ∧
          u.on (tmrFlag tfCapovr) n = (h.on (tmrFlag tfCapovr) n || h.on (tmrFlag tfCap) n) ∧
          u.get F.TMR_CNT_COUNT n = if h.on F.TMR_CTL_CAPRST n then 0 else h.get F.TMR_CNT_COUNT n)))) ∧
  (∀ (s : State) (m : Master) (n : Fin 32) (v : Word), s.Awake → s.hw.present m = true →
    let h := s.hw.tmrSettle
    (h.granted m .TMR_CTL n = true → ∃ u, exec (.tmrEnable m n v) s = .next (s.withHw u) ∧ u.on F.TMR_CTL_EN n = wbit v 0 ∧
      u.on F.TMR_CTL_IMM n = wbit v 1 ∧ u.on F.TMR_CTL_ONESHOT n = wbit v 2 ∧
      u.on F.TMR_CTL_CHAIN n = (wbit v 3 && decide (n.val ≠ 0)) ∧ u.get F.TMR_CTL_PSC n = nfield v.toNat 16 16 ∧
      u.word .TMR_CNT n = h.word .TMR_CNT n ∧ (wbit v 1 = true → (u.timer n).psc = nfield v.toNat 16 16) ∧
      (wbit v 0 = true → (u.timer n).edges = 0 ∧ (u.timer n).start = h.time)) ∧
    (h.granted m .TMR_RELOAD n = true → ∃ u, exec (.tmrPreload m .reload n v) s = .next (s.withHw u) ∧
      u.word .TMR_RELOAD n = v ∧ u.word .TMR_RELOAD_ACT n = if h.on F.TMR_CTL_IMM n then v else h.word .TMR_RELOAD_ACT n) ∧
    (h.granted m .TMR_CMP n = true → ∃ u, exec (.tmrPreload m .cmp n v) s = .next (s.withHw u) ∧
      u.word .TMR_CMP n = v ∧ u.word .TMR_CMP_ACT n = if h.on F.TMR_CTL_IMM n then v else h.word .TMR_CMP_ACT n) ∧
    (∀ a, h.granted m .TMR_CNT n = true → s.hw.memPlace m a 4 = none → a % 4 = 0 → decodeReg a = some (.TMR_CNT, n.val) →
      ∃ u, exec (.registerWrite m a 4 v.toNat) s = .next (s.withHw u) ∧
        u.word .TMR_CNT n = if (h.timer n).moved = some h.time then h.word .TMR_CNT n else v) ∧
    (h.granted m .TMR_CAPCFG n = true → ∃ u, exec (.tmrCapcfg m n v) s = .next (s.withHw u) ∧
      u.get F.TMR_CAPCFG_DIV n = nfield v.toNat 16 8 ∧ u.get F.TMR_CAPCFG_FLT n = nfield v.toNat 8 8 ∧ (u.timer n).edges = 0 ∧
      u.get F.TMR_CAPCFG_SRC n =
        (let k := nfield v.toNat 0 8
         if k ≤ 0xC1 ∨ (0xE0 ≤ k ∧ k ≠ 0xE0 + n.val) then k else h.get F.TMR_CAPCFG_SRC n)))

/-- R352 to R356: the general check-value units. A data write feeds its bytes, lowest first; INIT loads CRC_INIT; GO
starts memory mode unless its length, or a range in DRAM for a Pod, is refused; writes while memory mode runs only set
ERR_BUSYWR; ABORT ends it without DONE and does nothing else; an uncorrectable error ends it without DONE and is counted
with its reader; and at its end CRC_RESULT is the check value of the bytes that master DMA reads in the range: those of
DRAM, or those of a register, 0 with a violation where the register does not list DMA (R14). -/
def Obligations.CheckUnits : Prop := ∀ (s : State) (n : Fin 8), s.Awake → 3 ≤ s.hw.get F.CRC_CFG_WIDTH n →
  s.hw.get F.CRC_CFG_WIDTH n ≤ 32 →
  (∀ (m : Master) (v : Word), s.hw.present m = true →
    let h := s.hw.tmrSettle
    (∀ w : CrcWidth, h.granted m w.reg n = true →
      let k := match w with
        | .four => 4
        | .two => 2
        | .one => 1
      ∃ u, exec (.crcDataWrite m w n v) s = .next (s.withHw u) ∧
        if h.crcBusy n then u.on (crcFlag 2) n = true ∧ u.crcReg n = h.crcReg n
        else u.crcReg n = crcFeed (h.crcParams n) (h.crcReg n) (bytesLE k v.toNat)) ∧
    (h.granted m .CRC_CTL n = true →
      (wbit v 1 = false → h.crcBusy n = false → ∃ u, exec (.crcInit m n v) s = .next (s.withHw u) ∧
        u.crcReg n = h.get F.CRC_INIT_VALUE n % 2 ^ h.get F.CRC_CFG_WIDTH n ∧ u.crcBusy n = false) ∧
      (h.crcBusy n = true → (∃ u, exec (.crcInit m n v) s = .next (s.withHw u) ∧ u.on (crcFlag 2) n = true ∧
          u.crcReg n = h.crcReg n) ∧
        ∃ u, exec (.crcGo m n v) s = .next (s.withHw u) ∧ u.on (crcFlag 2) n = true ∧ u.crcReg n = h.crcReg n) ∧
      (h.crcBusy n = false → ∃ u, exec (.crcGo m n v) s = .next (s.withHw u) ∧
        let len := h.get F.CRC_LEN_VALUE n
        if len = 0 ∨ 2 ^ 28 < len ∨ ((m.val < 6 ∨ 0x10 ≤ m.val) ∧ touchesDram (h.crcAddr n) len = true) then
          u.on (crcFlag 4) n = true ∧ u.crcBusy n = false
        else u.crcBusy n = true ∧ u.crcReg n = h.get F.CRC_INIT_VALUE n % 2 ^ h.get F.CRC_CFG_WIDTH n ∧
          Store.get (fun _ => 0) u.crcRead n = 0) ∧
      (h.crcBusy n = true → ∀ k, ∃ u, exec (.crcAbort m n v k) s = .next (s.withHw u) ∧ u.crcBusy n = false ∧
        u.on (crcFlag 1) n = h.on (crcFlag 1) n) ∧
      (h.crcBusy n = false → wbit v 0 = false → wbit v 1 = false → ∀ k, exec (.crcAbort m n v k) s = .next (s.withHw h)))) ∧
  (s.hw.crcBusy n = true →
    (∀ k off ce, ∃ u, exec (.crcMemoryDone n ⟨some (k, off), ce⟩) s = .next (s.withHw u) ∧ u.crcBusy n = false ∧
      u.on (crcFlag 3) n = true ∧ u.on (crcFlag 1) n = s.hw.on (crcFlag 1) n ∧ u.on F.DDR_EVT_UE 0 = true ∧
      u.get F.DDR_UECNT_COUNT 0 = min (s.hw.get F.DDR_UECNT_COUNT 0 + 1) (2 ^ 32 - 1) ∧ u.get F.DDR_UEMST_VALUE 0 = 0x0C) ∧
    (Store.get (fun _ => 0) s.hw.crcRead n = 0 →
      s.hw.crcReg n = s.hw.get F.CRC_INIT_VALUE n % 2 ^ s.hw.get F.CRC_CFG_WIDTH n →
      ∀ ce, ∃ u, exec (.crcMemoryDone n ⟨none, ce⟩) s = .next (s.withHw u) ∧ u.crcBusy n = false ∧ u.on (crcFlag 1) n = true ∧
        let len := s.hw.get F.CRC_LEN_VALUE n
        let a := s.hw.crcAddr n
        u.crcResult n = crcOf (s.hw.crcParams n) ((List.range len).map fun k => s.hw.dmaByte (a + k)) ∧
        (dramBase ≤ a → a + len ≤ dramBase + dramSize → u.crcResult n = crcOf (s.hw.crcParams n) (s.hw.dramBytes (a - dramBase) len) ∧
          u.get F.DDR_CECNT_COUNT 0 = min (s.hw.get F.DDR_CECNT_COUNT 0 + ce) (2 ^ 32 - 1)) ∧
        ∀ r k, len = 4 → a % 4 = 0 → decodeReg a = some (r, k) → r ∉ [Reg.MBX_MSG, .MBX_SEND, .MBX_TAKE, .MBX_STAT] →
          (s.hw.mayRead idDma r = true → r ≠ .MBX_SEM →
            u.crcResult n = crcOf (s.hw.crcParams n) (bytesLE 4 (s.hw.tmrSettle.readWord r k).toNat)) ∧
          (s.hw.mayRead idDma r = false → u.crcResult n = crcOf (s.hw.crcParams n) [0, 0, 0, 0] ∧
            u.get F.GLB_AVCNT_COUNT 0 = min (s.hw.get F.GLB_AVCNT_COUNT 0 + 1) 65535)))

/-- R360 to R366, R41: mailbox channels. A binding that R361 excludes, or any after LOCK, is not taken. A send by the
bound sender sets FULL with length, notice and sender and raises the group's event, the sender being the ID that the
binding names; while FULL, words and sends only set OVERRUN; a wrong length only sets BADLEN; the sender clears both
flags by writing 1; an access that the binding does not allow is a violation; a standby's writes are ignored. The
receiver's take returns the status, clears FULL and gives the notice that was asked for; a read of the take register by
another Pod of a bound pair, or with nothing sent, takes nothing. R369, R370, R217: the B-die takes a message on
channel 30 and answers on channel 31 with the copied sequence number: 0x00 where it latched the selection, 0x01 where
IN0 of the group's cell does not allow it, 0x02 for another kind or length. -/
def Obligations.Mailboxes : Prop :=
  (∀ (s : State) (m : Master) (ch : Fin 32), s.Awake → s.hw.present m = true →
    let h := s.hw.tmrSettle
    (∀ v : Word, h.granted m .MBX_BIND ch = true → ∃ u, exec (.mbxBindWrite m ch v) s = .next (s.withHw u) ∧
      if badBinding ch v = true ∨ h.on F.MBX_LOCK_LOCK 0 = true then u.word .MBX_BIND ch = h.word .MBX_BIND ch
      else u.get F.MBX_BIND_SEND ch = nfield v.toNat 0 5 ∧ u.on F.MBX_BIND_SPAIR ch = wbit v 5 ∧
        u.get F.MBX_BIND_RECV ch = nfield v.toNat 16 5 ∧ u.on F.MBX_BIND_RPAIR ch = wbit v 21 ∧ u.on F.MBX_BIND_EN ch = wbit v 31) ∧
    (∀ (k : Fin 8) (v : Word),
      exec (.mbxMsgWrite m ch k v) s = .next (s.withHw
        (if h.isStandby m then h
         else if h.maySend ch m = false then h.mbxViolation ch m true
         else if h.mbxActs (h.on F.MBX_BIND_SPAIR ch) m = false then h
         else if h.mbxFull ch then h.setB F.MBX_STAT_OVERRUN ch true
         else h.putWord .MBX_MSG (8 * ch + k) v))) ∧
    (∀ v : Word, let len := nfield v.toNat 0 4
      ∃ u, exec (.mbxSend m ch v) s = .next (s.withHw u) ∧
        (h.isStandby m = true → u = h) ∧
        (h.isStandby m = false → h.maySend ch m = false → u = h.mbxViolation ch m true) ∧
        (h.maySend ch m = true → h.mbxActs (h.on F.MBX_BIND_SPAIR ch) m = true →
          (h.mbxFull ch = true → u = h.setB F.MBX_STAT_OVERRUN ch true) ∧
          (h.mbxFull ch = false → len = 0 ∨ 8 < len → u = h.setB F.MBX_STAT_BADLEN ch true) ∧
          (h.mbxFull ch = false → 1 ≤ len → len ≤ 8 → u.mbxFull ch = true ∧ u.get F.MBX_STAT_LEN ch = len ∧
            u.get F.MBX_TAKE_SENDER ch = (if h.on F.MBX_BIND_SPAIR ch then h.get F.MBX_BIND_SEND ch else m.val) ∧ u.on F.MBX_TAKE_NOTIFY ch = wbit v 16 ∧
            u.bitOf F.EVT_PEND_PEND 3 (8 + ch / 4) = true ∧ ∀ k, u.word .MBX_MSG k = h.word .MBX_MSG k))) ∧
    (∀ a (v : Word), s.hw.memPlace m a 4 = none → a % 4 = 0 → decodeReg a = some (.MBX_STAT, ch.val) → h.isStandby m = false →
      ∃ u, exec (.registerWrite m a 4 v.toNat) s = .next (s.withHw u) ∧
        (h.maySend ch m = false → u = h.violation m a true) ∧
        (h.maySend ch m = true → h.mbxActs (h.on F.MBX_BIND_SPAIR ch) m = false → u = h) ∧
        (h.maySend ch m = true → h.mbxActs (h.on F.MBX_BIND_SPAIR ch) m = true → h.OnlyWords u [(.MBX_STAT, ch)] ∧
          u.on F.MBX_STAT_BADLEN ch = (h.on F.MBX_STAT_BADLEN ch && !wbit v 2) ∧
          u.on F.MBX_STAT_OVERRUN ch = (h.on F.MBX_STAT_OVERRUN ch && !wbit v 1) ∧ u.mbxFull ch = h.mbxFull ch)) ∧
    (∃ u, exec (.mbxTake m ch) s = .next (s.withHw u) ∧
      (h.mayTake ch m = false → u = (h.mbxViolation ch m false).answer 0) ∧
      (h.mayTake ch m = true → h.mbxActs (h.on F.MBX_BIND_RPAIR ch) m = true → h.mbxFull ch = true →
        u.mbxFull ch = false ∧ u.bus = (putBits (h.word .MBX_TAKE ch) 31 1 1).toNat ∧ u.resp = .data ∧
        (h.on F.MBX_TAKE_NOTIFY ch = true → u.bitOf F.MBX_TAKEN_CH 0 ch = true ∧ u.bitOf F.EVT_PEND_PEND 3 (8 + ch / 4) = true)) ∧
      (h.mayTake ch m = true → h.mbxFull ch = false ∨ h.mbxActs (h.on F.MBX_BIND_RPAIR ch) m = false →
        u = h.answer (putBits (h.word .MBX_TAKE ch) 31 1 (bit (h.mbxFull ch))).toNat))) ∧
  (∀ s : State, s.Awake → s.hw.on F.XLK_STAT_XLKC_UP 0 = true → s.hw.mayTake 30 idBdie = true →
    s.hw.mbxFull 30 = true → s.hw.maySend 31 idBdie = true → s.hw.mbxFull 31 = false →
    let w0 := s.hw.word .MBX_MSG 240
    let g := nfield w0.toNat 8 4
    let set := nfield w0.toNat 12 4
    let known := nfield w0.toNat 0 8 = 1 ∧ s.hw.get F.MBX_TAKE_LEN 30 = 2
    ∃ u, exec .envRequest s = .next (s.withHw u) ∧ u.mbxFull 30 = false ∧ u.mbxFull 31 = true ∧ u.get F.MBX_STAT_LEN 31 = 3 ∧
      nfield (u.word .MBX_MSG 248).toNat 0 8 = 0x81 ∧ u.word .MBX_MSG 249 = s.hw.word .MBX_MSG 241 ∧
      (¬ known → (u.word .MBX_MSG 250).toNat = 2) ∧
      (known → (u.word .MBX_MSG 250).toNat = if (s.hw.latchRequest .b g set).isSome then 0 else 1) ∧
      (known → (s.hw.latchRequest .b g set).isSome = true → Store.get (fun _ => none) u.evB.req g = some set))

/-- R371 to R373: semaphores. A read by a master of a class that may read acquires a free one, for its pair where the
reader is the vote source of a pair that hosts a group; a read of a held one changes nothing; the owner's release frees
it, and any other release only sets its error bit. R374 to R377, R503, R408: events. A source that fires sets its
pending bit, queues an MSI-X message where its unmasked route names a vector and waits for its log record, or merges
into a pending bit and is counted; either way it is an edge for captures (R344). A route is taken while it is not locked and its INDEX lies in range; host software
clears only bits routed to MSI-X; while the link is up a vector of the pending-bit array that is no longer masked is
sent first and then the next queued message, which waits in that array while its vector is masked; while the link is
down nothing is sent. -/
def Obligations.SemaphoresAndEvents : Prop :=
  (∀ (s : State) (m : Master) (n : Fin 32), s.Awake → s.hw.present m = true →
    let h := s.hw.tmrSettle
    (h.mayRead m .MBX_SEM = true → h.on F.MBX_SEM_HELD n = false → h.isStandby m = false →
      ∃ u, exec (.semAcquire m n) s = .next (s.withHw u) ∧ u.on F.MBX_SEM_HELD n = true ∧ u.on F.MBX_SEM_PAIR n = h.semPair m ∧
        u.get F.MBX_SEM_OWNER n = (if h.semPair m then 2 * pairOf m else m.val) ∧ u.ownsSem n m = true ∧ u.resp = .data ∧ nbit u.bus 31 = true) ∧
    (h.mayRead m .MBX_SEM = true → h.on F.MBX_SEM_HELD n = true ∨ h.isStandby m = true →
      ∃ u, exec (.semAcquire m n) s = .next (s.withHw u) ∧ u.regs = h.regs ∧ u.resp = .data ∧ nbit u.bus 31 = h.ownsSem n m) ∧
    (∀ v : Word, h.granted m .MBX_SEM n = true → exec (.semRelease m n v) s = .next (s.withHw
      (if h.ownsSem n m then h.putWord .MBX_SEM n 0 else h.setBit F.MBX_SEMERR_SEM 0 n true)))) ∧
  (∀ s : State, s.Awake →
    (∀ e : Fin 128, ∃ u, exec (.eventFire e) s = .next (s.withHw u) ∧
      u.pulses = s.hw.pulses ++ [e.val] ∧
      if s.hw.bitOf F.EVT_PEND_PEND (e / 32) (e % 32) then u = (s.hw.bump F.EVT_MERGECNT_COUNT 0 1).pulse e
      else u.bitOf F.EVT_PEND_PEND (e / 32) (e % 32) = true ∧ u.logQ.length = s.hw.logQ.length + 1 ∧
        u.msixQ = s.hw.msixQ ++ (if s.hw.get F.EVT_ROUTE_KIND e = 3 ∧ s.hw.bitOf F.EVT_MASK_MASK (e / 32) (e % 32) = false
          then [s.hw.get F.EVT_ROUTE_INDEX e] else [])) ∧
    (∀ (m : Master) (v : Word), s.hw.present m = true →
      let h := s.hw.tmrSettle
      (∀ e : Fin 128, h.granted m .EVT_ROUTE e = true → ∃ u, exec (.evtRouteWrite m e v) s = .next (s.withHw u) ∧
        if h.on F.EVT_ROUTE_LOCK e = true ∨ routeOk (nfield v.toNat 6 2) (nfield v.toNat 0 4) = false then ∀ r k, u.word r k = h.word r k
        else u.get F.EVT_ROUTE_KIND e = nfield v.toNat 6 2 ∧ u.get F.EVT_ROUTE_INDEX e = nfield v.toNat 0 4 ∧
          u.on F.EVT_ROUTE_LOCK e = wbit v 31) ∧
      (∀ w : Fin 4, h.granted m .EVT_PEND w = true → ∃ u, exec (.evtPendClear m w v) s = .next (s.withHw u) ∧ ∀ j, j < 32 →
        u.bitOf F.EVT_PEND_PEND w j = (h.bitOf F.EVT_PEND_PEND w j &&
          !(wbit v j && (decide (m.val ≠ 0x0A) || decide (h.get F.EVT_ROUTE_KIND (32 * w + j) = 3)))))) ∧
    (∀ off, s.hw.boot.pcieUp = false → exec (.msixSend off) s = .next s) ∧
    (∀ v, s.hw.boot.pcieUp = true → v < 16 → nbit s.hw.msixPba v = true → s.hw.vectorMasked v = false →
      (∀ k, k < v → nbit s.hw.msixPba k = false ∨ s.hw.vectorMasked k = true) →
      ∃ u, exec (.msixSend false) s = .next (s.withHw u) ∧ u.msixQ = s.hw.msixQ ∧ nbit u.msixPba v = false ∧
        u.out = s.hw.out ++ [.msix ((s.hw.msixWord (4 * v)).toNat + 2 ^ 32 * (s.hw.msixWord (4 * v + 1)).toNat)
          (s.hw.msixWord (4 * v + 2)).toNat]) ∧
    (∀ v rest, s.hw.boot.pcieUp = true → s.hw.msixPba = 0 → s.hw.msixQ = v :: rest → ∀ off, ∃ u, exec (.msixSend off) s = .next (s.withHw u) ∧ u.msixQ = rest ∧
      if off || s.hw.vectorMasked v then nbit u.msixPba v = true ∧ u.out = s.hw.out
      else u.msixPba = 0 ∧ u.out = s.hw.out ++ [.msix ((s.hw.msixWord (4 * v)).toNat + 2 ^ 32 * (s.hw.msixWord (4 * v + 1)).toNat)
        (s.hw.msixWord (4 * v + 2)).toNat]))

/-- R379 to R381, R383, R384: queue pairs. Doorbells of host software move the SQ tail and the CQ head within their
rings, and set an error flag otherwise; a fetch goes to the queue that takes the grant, never so that completions could
overflow its CQ, and waits while the service cores are in reset (R439); EN takes a queue from OFF to ACTIVE with empty
rings, through SHUTTING_DOWN to OFF, and out of ERROR, where a pending enable is gone. That DB_OFF is judged before the range is log
entry 60, and that a fetch waits whenever the service cores are in reset log entry 111 (both DEDUCED). -/
def Obligations.QueuePairs : Prop := ∀ (s : State) (q : Fin 16), s.Awake →
  let h := s.hw
  (∀ (m : Master) (v : Word), m.val ≠ 0x0A ∨ h.boot.pcieUp = false →
    exec (.sqDoorbellRow m q v) s = .next s ∧ exec (.cqDoorbellRow m q v) s = .next s) ∧
  (∀ (m : Master) (v : Word), m.val = 0x0A → h.boot.pcieUp = true → let t := nfield v.toNat 0 12
    (∃ u, exec (.sqDoorbellRow m q v) s = .next (s.withHw u) ∧
      if h.qState q ≠ qsActive then u = h.setB F.QUE_ERR_DB_OFF q true
      else if h.sqSize q ≤ t then u = h.setB F.QUE_ERR_SQDB_RANGE q true
      else u.get F.QUE_SQPTR_TAIL q = t ∧ u.word .QUE_CQPTR q = h.word .QUE_CQPTR q ∧
        (u.queue q).stamps.length ≤ ringDist (h.sqSize q) (h.get F.QUE_SQPTR_HEAD q) t) ∧
    exec (.cqDoorbellRow m q v) s = .next (s.withHw
      (if h.cqSize q ≤ t ∨ ringDist (h.cqSize q) (h.get F.QUE_CQPTR_HEAD q) (h.get F.QUE_CQPTR_TAIL q) <
          ringDist (h.cqSize q) (h.get F.QUE_CQPTR_HEAD q) t then h.setB F.QUE_ERR_CQDB_RANGE q true
       else h.set F.QUE_CQPTR_HEAD q t))) ∧
  (∀ packet, h.boot.svcUp = false ∨ h.qGrant = none → exec (.sqFetch packet) s = .next s) ∧
  (∀ packet t rest, h.boot.svcUp = true → h.qGrant = some q.val → (h.queue q).stamps = t :: rest →
    ∃ u, exec (.sqFetch packet) s = .next (s.withHw u) ∧ h.qEligible q = true ∧ (q.val = 0 ∨ h.qEligible 0 = false) ∧
      u.get F.QUE_SQPTR_HEAD q = (h.get F.QUE_SQPTR_HEAD q + 1) % h.sqSize q % 4096 ∧ (u.queue q).stamps = rest) ∧
  (∀ (m : Master) (v : Word), h.present m = true → h.tmrSettle.granted m .QUE_CTL q = true →
    (∃ u, exec (.queueEnable m q v) s = .next (s.withHw u) ∧
      (h.qState q = qsOff → u.qState q = qsActive ∧ u.word .QUE_SQPTR q = 0 ∧ u.word .QUE_CQPTR q = 0x80000000 ∧
        (u.queue q).stamps = []) ∧
      (h.qState q = qsShutting → u.qState q = qsShutting ∧ u.on F.QUE_STAT_PEND q = true) ∧
      (h.qState q ≠ qsOff → u.sqSize q = h.sqSize q ∧ u.cqSize q = h.cqSize q)) ∧
    ∃ u, exec (.queueDisable m q v) s = .next (s.withHw u) ∧
      (h.qState q = qsActive → u.qState q = qsShutting) ∧
      (h.qState q = qsShutting → u.qState q = qsShutting ∧ u.on F.QUE_STAT_PEND q = false) ∧
      (h.qState q = qsError → u.qState q = qsOff ∧ u.on F.QUE_STAT_PEND q = false ∧ u.queue q = {})) ∧
  (h.qState q = qsShutting → h.get F.QUE_STAT_OUTST q = 0 → ∃ u, exec (.queueDrained q) s = .next (s.withHw u) ∧
    u.qState q = if h.on F.QUE_STAT_PEND q then qsActive else qsOff) ∧
  (h.qState q = qsActive ∨ h.qState q = qsShutting → ∀ write,
    exec (.queueTransferError q write) s = .next (s.withHw
      ((h.setB (if write then F.QUE_ERR_WRITE else F.QUE_ERR_FETCH) q true).set F.QUE_STAT_STATE q qsError)))

/-- R386, R388, R389, R382, R398: every reading opcode that passes its checks is answered once with OK, its data, where
it returns any, reaches the host's buffer before the CQ entry, the reply carries the object's generation, and nothing
but what an answer writes changes; R47: the corrected errors that its reads of DRAM meet are counted. What the data of FW_STATUS,
OTP_READ, CFG_SLOTS_READ and IO_READ hold where the spec leaves it open follows log entry 66 (DEDUCED). -/
def Obligations.NcpReads : Prop := ∀ (s : State) (q : Fin 16) (k : Nat) (io : NcpIo), s.Awake →
  let h := s.hw
  let reads (c : Instr) (op : OpSpec) (x : NcpIo) (chk : NcpCmd → Checks) (data res : NcpCmd → List Byte) : Prop :=
    ∀ p, h.ncpAccepts q k x op chk = some p → ∃ u w, exec c s = .next (s.withHw w) ∧ w = u.ncpCe op x ∧
      w.get F.DDR_CECNT_COUNT 0 = (if op.dram then min (h.get F.DDR_CECNT_COUNT 0 + x.dramCe) (2 ^ 32 - 1) else h.get F.DDR_CECNT_COUNT 0) ∧
      h.OnlyAnswer u q ∧ h.Answered u q k p 0 0 (if namesObject p.object && h.feat p 0 then h.gen p.objKey else 0) (data p).length (data p) (res p)
  let none' : NcpCmd → List Byte := fun _ => []
  reads (.nop q k) opNop {} (fun _ => {}) none' none' ∧
  reads (.stateRead q k) opStateRead {} (fun _ => {}) none' (fun _ => h.regBytes [(.GLB_STATE, 0), (.GLB_LIFE, 0)]) ∧
  reads (.accessViolRead q k) opAccessViol {} (fun _ => {}) none' (fun _ => h.regBytes [(.GLB_AVIOL, 0), (.GLB_AVADDR, 0)]) ∧
  reads (.fwStatus q k) opFwStatus {} (fun _ => {}) none' (fun _ => h.regBytes [(.GLB_FWVER, 0)] ++
    bytesLE 4 (((h.chosenFw s.nv).map fun a => pkgVersion (s.nv.flash.fw a)).getD 0)) ∧
  reads (.deviceInfo q k io) opDeviceInfo io (fun _ => returns 96) (fun _ => h.regBytes ([(.GLB_ID, 0), (.GLB_FAMILY, 0),
    (.GLB_ROMVER, 0), (.GLB_FWVER, 0), (.GLB_IFVER, 0), (.GLB_LIFE, 0), (.GLB_STATE, 0), (.GLB_SERIAL, 0), (.GLB_SERIAL, 1)] ++
    regWords .GLB_CFGDIG 8) ++ List.replicate 28 0) none' ∧
  reads (.cfgVerify q k io) opCfgVerify io (h.pkgChecks io (.some 32) fun _ => .config) (fun p => pkgBodyDig (h.staged p)) none' ∧
  reads (.fwVerify q k io) opFwVerify io (h.pkgChecks io .none h.fwKind) none' (fun p => bytesLE 4 (pkgVersion (h.staged p))) ∧
  reads (.cfgSlotsRead q k io) opCfgSlots io (fun _ => returns 1028) (fun _ => bytesLE 4 (slotsUsed s.nv.now h.life) ++
    (List.range 32).flatMap fun n => (slotRegion n).bytes s.nv.now) none' ∧
  reads (.otpRead q k io) opOtpRead io (fun _ => returns 512) (fun _ => usrRegion.bytes s.nv.now) none' ∧
  reads (.laneStatusRead q k io) opLaneStatus io (fun _ => returns 64) (fun p => h.regBytes ([Reg.LANE_STAT, .LANE_PEER_CAP,
    .LANE_SEQ, .LANE_LAYER, .LANE_SLOTCNT, .LANE_ERR, .LANE_FRMCNT, .LANE_EG_STAT, .LANE_EG_PEER_CAP, .LANE_EG_SEGCNT,
    .LANE_EG_ERR, .REL_STAT, .REL_RELCNT, .REL_LAT].map fun r => (r, p.index)) ++ List.replicate 8 0) none' ∧
  reads (.zoneStatusRead q k io) opZoneStatus io
    (fun p => { data := .some (16 * p.p 1 1), param := firstDetail [(decide (63 < p.p 0 1 ∨ p.p 1 1 = 0 ∨ 64 < p.p 0 1 + p.p 1 1), ndRange)] })
    (fun p => (List.range (p.p 1 1)).flatMap fun j => h.regBytes [(.ZONE_STAT, p.p 0 1 + j), (.ZONE_PEAK, p.p 0 1 + j),
      (.ZONE_CNT, p.p 0 1 + j)] ++ bytesLE 4 (bit (h.owned (slotZone (p.p 0 1 + j)) != 0))) none' ∧
  reads (.safetyStatusRead q k io) opSafetyStatus io
    (fun p => { data := .some (8 * p.p 1 2), param := firstDetail [(decide (p.p 1 2 = 0 ∨ 256 < p.p 0 1 + p.p 1 2), ndRange)] })
    (fun p => (List.range (p.p 1 2)).flatMap fun j => h.regBytes [(.SFN_STAT, p.p 0 1 + j), (.SFN_CFG, p.p 0 1 + j)]) none' ∧
  reads (.safetyTimingRead q k io) opSafetyTiming io
    (fun p => { data := .some (32 * p.p 1 1),
                param := firstDetail [(decide (p.p 1 1 = 0 ∨ 64 < p.p 1 1 ∨ 256 < p.p 0 1 + p.p 1 1), ndRange)] })
    (fun p => (((List.range (p.p 1 1)).map (p.p 0 1 + ·)).filter fun n => (h.fn .a n).type != 0).flatMap h.timingRecord) none' ∧
  reads (.exchangeStatusRead q k io) opExchangeStatus io (fun _ => returns 32) (fun _ => h.regBytes [(.SFN_XSTAT, 0), (.SFN_CYCLE, 0)] ++
    bytesLE 4 (h.get F.SFN_RST_STUCK 0) ++ h.regBytes ((.POD_PAIR, 0) :: regWords .POD_STAT 4))
    (fun _ => h.regBytes [(.SFN_XMISS, 0), (.SFN_OVRCNT, 0)]) ∧
  reads (.ioRead q k io) opIoRead io (fun _ => returns 512) (fun _ => h.regBytes (regWords .DI_STAT 48 ++ regWords .DQ_STAT 16 ++
    regWords .SO_STAT 16 ++ regWords .CLI_PV 8 ++ regWords .CLO_STAT 4 ++ [(.SUP_STAT, 0), (.SUP_VOLT, 0), (.SUP_STAT, 1), (.SUP_VOLT, 1)]) ++
    List.replicate 128 0) none' ∧
  reads (.ledgerStatus q k io) opLedgerStatus io (fun _ => returns 40) (fun _ => bytesLE 8 h.rdSeq ++ bytesLE 8 h.clSeq ++
    bytesLE 8 h.wrSeq ++ h.regBytes [(.LDG_STAT, 0), (.LDG_LOST, 0), (.LDG_CFG, 0), (.LDG_ENGMASK, 0)]) none' ∧
  reads (.ledgerRead q k io) opLedgerRead io
    (fun p => { data := .some (131584 * p.p 8 4), param := firstDetail [(h.badCount p || decide (p.p 0 8 < h.rdSeq), ndRange)],
                busy := firstDetail [(decide (h.clSeq < p.p 0 8 + p.p 8 4), ndNone)] })
    (fun p => (List.range (p.p 8 4)).flatMap fun j => h.entryBytes (p.p 0 8 + j)) none' ∧
  (h.idKey ≠ [] →
    reads (.attestIdentity q k io) opAttestIdentity io (fun _ => returns 61) (fun _ => ed448Public h.idKey ++ h.regBytes [(.GLB_LIFE, 0)]) none' ∧
    reads (.attestReport q k io) opAttestReport io (fun _ => returns 320) (fun p => h.attestReport (bytesAt p.packet 32 32)) none')

/-- R386, R388, R393, R396: an opcode that a check refuses is answered once with the STATUS and DETAIL of the refusal
and has no other effect; where several codes apply the first of the order VERSION, BAD_OPCODE, BAD_LENGTH, BAD_PARAM,
DENIED_LIFECYCLE, CONFLICT, DENIED_SAFETY, BUSY is taken; an opcode outside the catalogue gives BAD_OPCODE once its
session is known. R47, R389, R467, R506: transfers and states. An accepted command that uses DRAM ends with INTERNAL while DRAM has not
trained, and at an uncorrectable error, which is counted; one whose transfer with the host fails ends with INTERNAL and
DMA; a lane is enabled neither in BOOT nor in UNCONFIGURED. That INTERNAL holds whenever DRAM has not trained is log entry 116, and the
details that a status does not name are log entry 62 (both DEDUCED). -/
def Obligations.NcpRefusals : Prop :=
  (∀ (s : State) (q : Fin 16) (k : Nat) (io : NcpIo), s.Awake →
    let h := s.hw
    let refuses (c : Instr) (op : OpSpec) (chk : NcpCmd → Checks) : Prop :=
      ∀ p st d, h.ncpCmd q k op = some p → h.ncpRefusal q op p (chk p) = some (st, d) →
        ∃ u, exec c s = .next (s.withHw u) ∧ h.OnlyAnswer u q ∧
          h.Answered u q k p st d (if namesObject p.object && h.feat p 0 then h.gen p.objKey else 0) 0 []
            (if op.op = 1 ∧ st = 0x104 then bytesLE 2 0x100 ++ bytesLE 2 0x201 else [])
    refuses (.openSession q k) opOpen (h.openChecks q) ∧ refuses (.deviceReset q k) opDeviceReset (resetChecks q) ∧
    refuses (.cfgInstall q k io) opCfgInstall (h.cfgInstallChecks io) ∧ refuses (.trialRun q k) opTrialRun h.trialChecks ∧
    refuses (.fwInstall q k io) opFwInstall (h.pkgChecks io .none h.fwKind) ∧
    refuses (.stageWrite q k io) opStageWrite (fun p => { data := .some 0, param := firstDetail [(badOffset p p.dlen, ndRange)] }) ∧
    refuses (.stateRead q k) opStateRead (fun _ => {}) ∧ refuses (.accessViolRead q k) opAccessViol (fun _ => {}) ∧
    refuses (.laneService q k) opLaneService (fun p =>
      { param := firstDetail [(decide (1 < p.p 0 1), ndRange)]
        safety := firstDetail [(p.p 0 1 == 1 && (h.dev == devBoot || h.dev == devUnconfigured), ndState)]
        busy := firstDetail [(p.p 0 1 == 1 &&
          (h.laneState p.index .ingress == laneFault || h.laneState p.index .egress == laneFault), ndLaneFault)] })) ∧
  (∀ (s : State) (q : Fin 16) (k : Nat) (io : NcpIo), s.Awake →
    let h := s.hw
    let fails (c : Instr) (op : OpSpec) (chk : NcpCmd → Checks) : Prop :=
      ∀ p, h.ncpCmd q k op = some p → h.ncpRefusal q op p (chk p) = none →
        let gen := if namesObject p.object && h.feat p 0 then h.gen p.objKey else 0
        let ready := op.dram = true → h.dramUp = true
        (¬ ready → ∃ u, exec c s = .next (s.withHw u) ∧ h.OnlyAnswer u q ∧ h.Answered u q k p 0x301 0 gen 0 [] []) ∧
        (ready → ∀ off, io.dramErr = some off → ∃ u, exec c s = .next (s.withHw u) ∧ h.Answered u q k p 0x301 0 gen 0 [] [] ∧
          u.on F.DDR_EVT_UE 0 = true ∧ u.get F.DDR_UECNT_COUNT 0 = min (h.get F.DDR_UECNT_COUNT 0 + 1) (2 ^ 32 - 1)) ∧
        (ready → io.dramErr = none → io.dmaErr = true → p.dlen ≠ 0 →
          ∃ u, exec c s = .next (s.withHw u) ∧ h.OnlyAnswer u q ∧ h.Answered u q k p 0x301 0x40 gen 0 [] [])
    fails (.deviceInfo q k io) opDeviceInfo (fun _ => returns 96) ∧ fails (.laneStatusRead q k io) opLaneStatus (fun _ => returns 64) ∧
    fails (.stageWrite q k io) opStageWrite (fun p => { data := .some 0, param := firstDetail [(badOffset p p.dlen, ndRange)] }) ∧
    fails (.cfgVerify q k io) opCfgVerify (h.pkgChecks io (.some 32) fun _ => .config) ∧
    fails (.fwVerify q k io) opFwVerify (h.pkgChecks io .none h.fwKind) ∧
    fails (.cfgInstall q k io) opCfgInstall (h.cfgInstallChecks io) ∧
    fails (.ledgerRead q k io) opLedgerRead (fun p =>
      { data := .some (131584 * p.p 8 4), param := firstDetail [(h.badCount p || decide (p.p 0 8 < h.rdSeq), ndRange)]
        busy := firstDetail [(h.dramUp && decide (h.clSeq < p.p 0 8 + p.p 8 4), ndNone)] })) ∧
  (∀ (h : Hw) (q : Nat) (op : OpSpec) (p : NcpCmd) (c : Checks),
    let conds : List (Nat × Bool) :=
      [(0x104, (h.versionError q op p c).isSome), (0x101, (op.feat.map fun k => !h.feat p k).getD false), (0x102, badLength p c.data),
       (0x103, (h.packetError op p).isSome || c.param.isSome), (0x202, c.life.isSome), (0x204, p.genChk && h.gen p.objKey != p.expGen),
       (0x201, (op.w && h.dev == 4) || c.safety.isSome), (0x203, c.busy.isSome)]
    (h.ncpRefusal q op p c).map (·.1) = (conds.find? (·.2)).map (·.1) ∧
    (c.version = false → op.op ≠ 0 → op.op ≠ 1 →
      (h.sessionOf p.session = none → h.ncpRefusal q op p c = some (0x104, 1)) ∧
      (∀ x, h.sessionOf p.session = some x → q ≠ 0 → nbit x.qmask q = false → h.ncpRefusal q op p c = some (0x104, 2)))) ∧
  (∀ (s : State) (q : Fin 16) (packet : List Byte), s.Awake → s.hw.qGrant = some q.val → (s.hw.queue q).stamps ≠ [] →
    s.hw.boot.svcUp = true → ncpOpcodes.all (·.op != leAt packet 0 2) = true →
    ∃ u a e, exec (.sqFetch packet) s = .next (s.withHw u) ∧ (u.queue q).cmds = (s.hw.queue q).cmds ∧
      u.out = s.hw.out ++ [.hostWrite a e] ∧
      leAt e 2 2 = (match s.hw.sessionOf (leAt packet 8 2) with
        | none => 0x104
        | some x => if q.val = 0 ∨ nbit x.qmask q = true then 0x101 else 0x104))

/-- R398, R399, R401, R405, R407, R446, R456, R457: the opcodes that change something at once. A staged write puts DLEN
bytes of host data, an installed configuration replaces the one in the boot flash without its trial mark, a trial run
marks it, firmware goes to the area that does not run, an acknowledgement advances LDG_RDSEQ, a route takes its vector;
each is answered and the generation of its object advances, past 0xFFFF_FFFF to 1. R267, R290, R395: DQ_SET and CLO_SET.
FLT_CLR and EN act as a write of DQ_CTL does; an enable that is refused because the output is hot is answered HOT and
does nothing but set DQ_FLT.HOT_REF, and the earlier flag is not lost; CLO_SET takes UA and then acts as a write of CLO_CTL. What a
DQ_SET that is refused HOT leaves undone and the order in CLO_SET are log entry 51 (DEDUCED). -/
def Obligations.NcpChanges : Prop :=
  (∀ (s : State) (q : Fin 16) (k : Nat) (io : NcpIo) (p : NcpCmd), s.Awake →
    let h := s.hw
    let next (g : Nat) : Nat := if g = 0xFFFFFFFF then 1 else g + 1
    let answered (u : Hw) (status taken : Nat) (res : List Byte) : Prop := u.gen p.objKey = next (h.gen p.objKey) ∧
      h.Answered u q k p status 0 (if namesObject p.object && h.feat p 0 then next (h.gen p.objKey) else 0) taken [] res
    let ackChk : NcpCmd → Checks := fun p =>
        { param := firstDetail [(h.badCount p || p.p 0 8 != h.rdSeq || decide (h.clSeq < p.p 0 8 + p.p 8 4), ndRange)] };
    let kind (n : Nat) : Nat := h.get F.EVT_ROUTE_KIND n
    let routeChk : NcpCmd → Checks := fun p =>
        { param := firstDetail [(decide (15 < p.p 0 1 ∧ p.p 0 1 ≠ 0xFF), ndRange)]
          safety := firstDetail [(h.on F.EVT_ROUTE_LOCK p.index || kind p.index == 1 || kind p.index == 2, ndLocked)] }
    let fault (n : Nat) : Bool := h.laneState n .ingress == laneFault || h.laneState n .egress == laneFault
    let laneChk : NcpCmd → Checks := fun p =>
        { param := firstDetail [(decide (1 < p.p 0 1), ndRange)]
          safety := firstDetail [(p.p 0 1 == 1 && (h.dev == devBoot || h.dev == devUnconfigured), ndState)]
          busy := firstDetail [(p.p 0 1 == 1 && fault p.index, ndLaneFault)] }
    (h.ncpAccepts q k io opStageWrite (fun p => { data := .some 0, param := firstDetail [(badOffset p p.dlen, ndRange)] }) = some p →
      io.data.length = p.dlen → ∃ u, exec (.stageWrite q k io) s = .next (s.withHw u) ∧ answered u 0 p.dlen [] ∧
        u.dramBytes (stagingBase + p.p 0 8) p.dlen = io.data ∧
        ∀ a, a < stagingBase + p.p 0 8 ∨ stagingBase + p.p 0 8 + p.dlen ≤ a → u.dramBytes a 1 = h.dramBytes a 1) ∧
    (h.ncpAccepts q k io opCfgInstall (h.cfgInstallChecks io) = some p →
      let b := h.staged p
      let f : Flash := { s.nv.flash with cfg := b.take (pkgLen b), trial := false }
      ∃ u, exec (.cfgInstall q k io) s = .next { s with hw := u, nv := { s.nv with flash := f } } ∧ answered u 0 0 [] ∧
        (h.on F.XLK_STAT_XLKC_UP 0 = true → h.b.selftestOk = true → u.b.digest = digest tagConf (pkgBody b) ∧ u.b.digValid = true)) ∧
    (h.ncpAccepts q k {} opTrialRun h.trialChecks = some p → let f : Flash := { s.nv.flash with trial := true }
      ∃ u, exec (.trialRun q k) s = .next { s with hw := u, nv := { s.nv with flash := f } } ∧ answered u 0 0 []) ∧
    (h.ncpAccepts q k io opFwInstall (h.pkgChecks io .none h.fwKind) = some p →
      let b := (h.staged p).take (pkgLen (h.staged p))
      let f : Flash := if leAt (h.staged p) 5 1 = 3 then { s.nv.flash with life := b }
        else if h.boot.area = 0 then { s.nv.flash with fw1 := b } else { s.nv.flash with fw0 := b }
      ∃ u, exec (.fwInstall q k io) s = .next { s with hw := u, nv := { s.nv with flash := f } } ∧ answered u 0 0 []) ∧
    (h.ncpAccepts q k {} opLedgerAck ackChk = some p →
      ∃ u, exec (.ledgerAck q k) s = .next (s.withHw u) ∧ answered u 0 0 [] ∧ u.rdSeq = h.rdSeq + p.p 8 4 ∧ u.clSeq = h.clSeq) ∧
    (h.ncpAccepts q k {} opEvtRoute routeChk = some p →
      ∃ u, exec (.evtRouteSet q k) s = .next (s.withHw u) ∧ answered u 0 0 [] ∧
        u.get F.EVT_ROUTE_KIND p.index = (if p.p 0 1 = 0xFF then 0 else 3) ∧
        u.get F.EVT_ROUTE_INDEX p.index = if p.p 0 1 = 0xFF then 0 else p.p 0 1) ∧
    (h.ncpAccepts q k {} opLaneService laneChk = some p →
      ∃ u st, exec (.laneService q k) s = .next (s.withHw u) ∧ answered u st 0 [] ∧ u.get F.LANE_CTL_EN p.index = p.p 0 1 ∧
        st = if p.p 0 1 = 1 ∧ u.on F.LANE_STAT_PEND p.index = true then 1 else 0)) ∧
  (∀ (s : State) (q : Fin 16) (k : Nat) (p : NcpCmd), s.Awake →
    let h := s.hw
    let dqChk : NcpCmd → Checks := fun p =>
        { param := firstDetail [(decide (1 < p.p 0 1 ∨ 1 < p.p 1 1) || h.dqInput p.index, ndRange)]
          safety := firstDetail [(p.p 0 1 == 1 && !h.outputsLive, ndState)] }
    let cloChk : NcpCmd → Checks := fun p =>
        { param := firstDetail [(decide (24000 < p.p 0 4 ∨ 1 < p.p 4 1 ∨ 1 < p.p 5 1), ndRange)]
          safety := firstDetail [(p.p 4 1 == 1 && !h.outputsLive, ndState)] }
    (h.ncpAccepts q k {} opDqSet dqChk = some p →
      let w := (h.setB F.DQ_FLT_HOT_REF p.index false).dqCtlWrite p.index (BitVec.ofNat 32 (p.p 0 1 + 2 * p.p 1 1))
      ∃ u st gen, exec (.dqSet q k) s = .next (s.withHw u) ∧
        h.Answered u q k p st 0 gen 0 [] (u.regBytes [(.DQ_STAT, p.index)]) ∧
        (st = 0x205 ↔ w.on F.DQ_FLT_HOT_REF p.index = true) ∧
        (st = 0x205 → u.on F.DQ_FLT_HOT_REF p.index = true ∧ u.fio = h.fio ∧ u.word .DQ_STAT p.index = h.word .DQ_STAT p.index ∧
          u.word .DQ_CTL p.index = h.word .DQ_CTL p.index) ∧
        (st ≠ 0x205 → u.word .DQ_STAT p.index = w.word .DQ_STAT p.index ∧ u.fio = w.fio) ∧
        (h.on F.DQ_FLT_HOT_REF p.index = true → u.on F.DQ_FLT_HOT_REF p.index = true) ∧
        (st ≠ 0x205 → st = if p.p 0 1 = 1 ∧ u.on F.DQ_STAT_PEND p.index = true then 1 else 0)) ∧
    (h.ncpAccepts q k {} opCloSet cloChk = some p →
      ∃ u st gen, exec (.cloSet q k) s = .next (s.withHw u) ∧
        h.Answered u q k p st 0 gen 0 [] (u.regBytes [(.CLO_STAT, p.index)]) ∧ u.get F.CLO_SET_UA p.index = p.p 0 4 ∧
        u.word .CLO_STAT p.index = ((h.writeFields .CLO_SET p.index false (BitVec.ofNat 32 (p.p 0 4))).cloCtlWrite p.index
          (BitVec.ofNat 32 (p.p 4 1 + 2 * p.p 5 1))).word .CLO_STAT p.index ∧
        st = if p.p 4 1 = 1 ∧ u.on F.CLO_STAT_PEND p.index = true then 1 else 0))

/-- R390 to R392, R394, R406: sessions. OPEN_SESSION agrees on the highest common version, grants the features that it
carries and the host wants, and opens a session under the next handle; CLOSE_SESSION ends it; the loss of the PCI
Express link, PERST_N and the WARM reset that follows the reply to DEVICE_RESET end all of them; that reset waits for a
running OTP operation. R408, R409: the event log. The oldest occurrence gets its record, numbered on from the last, with
its class, code and time, in the ring of 8,388,608 records of DRAM, and the count of lost records starts afresh; a
record that could not be written in time is counted; R410: the header of the boot-record area follows the copies of its records
(log entry 133); LOG_STATUS returns the oldest and newest number held and LOG_READ
the records from one number on. What LOG_STATUS and ENV_STATUS return where there is nothing to return is log entry 66, the limits of
sessions log entry 63 (both DEDUCED). -/
def Obligations.NcpSessions : Prop :=
  (∀ (s : State) (q : Fin 16) (k : Nat) (p : NcpCmd),
    let h := s.hw
    (s.Awake → h.ncpAccepts q k {} opOpen (h.openChecks q) = some p → ∃ u x v,
      exec (.openSession q k) s = .next (s.withHw u) ∧ v ∈ ncpVersions ∧ p.p 0 2 ≤ v ∧ v ≤ p.p 2 2 ∧
      (∀ w ∈ ncpVersions, p.p 0 2 ≤ w → w ≤ p.p 2 2 → w ≤ v) ∧ x.ver = v ∧ x.id = h.ncp.nextId ∧ x.qmask = p.p 8 2 ∧
      (∀ j, nbit x.feats j = (decide (j < 8) && decide (featureFrom.getD j 0 ≤ v) && nbit (p.p 4 4) j)) ∧
      u.ncp.sessions = h.ncp.sessions ++ [x] ∧ u.ncp.nextId = (if h.ncp.nextId = 0xFFFF then 1 else h.ncp.nextId + 1) ∧
      h.Answered u q k p 0 0 0 0 [] (bytesLE 2 v ++ bytesLE 2 x.id ++ bytesLE 4 x.feats)) ∧
    (s.Awake → ∀ chk : NcpCmd → Checks,
      (∀ c, let mask := ((h.sessionOf c.session).map (·.qmask)).getD 0
        chk c = { param := firstDetail [(q.val != 0, 0)],
                  busy := firstDetail [((List.range 16).any fun j => nbit mask j && !(h.queue j).cmds.isEmpty, 0)] }) →
      h.ncpAccepts q k {} opClose chk = some p → ∃ u, exec (.closeSession q k) s = .next (s.withHw u) ∧
        u.ncp.sessions = h.ncp.sessions.filter (fun x => x.id != p.session) ∧ h.Answered u q k p 0 0 0 0 [] []) ∧
    (s.Awake → h.ncpAccepts q k {} opDeviceReset (resetChecks q) = some p → ∃ u, exec (.deviceReset q k) s = .next (s.withHw u) ∧
      u.out = h.out ++ [.hostWrite (h.cqAddr q) (h.cqEntry q (replyBytes p 0 0 0 0 []))] ∧
      (h.otpOp = none → u.ncp.sessions = [] ∧ u.on F.CLK_RSTCAUSE_REQ 0 = true ∧
        u.get F.CLK_WARMCNT_COUNT 0 = min (h.get F.CLK_WARMCNT_COUNT 0 + 1) 65535 ∧ u.dev = devBoot ∧ ∀ j, u.queue j = {}) ∧
      (h.otpOp ≠ none → u.boot.rstWaits = true ∧ u.otpOp = h.otpOp)) ∧
    exec .pcieLinkLoss s = .next (s.withHw { h with ncp := { h.ncp with sessions := [] }, boot := { h.boot with pcieUp := false } }) ∧
    (∃ u, exec .perst s = .next (s.withHw u) ∧ u.ncp.sessions = [] ∧ u.boot.pcieUp = false ∧ u.msixTbl = [] ∧ u.msixPba = 0 ∧
      u.regs = h.regs ∧ u.queues = h.queues) ∧
    (exec .pcieLinkUp s = .next (s.withHw { h with boot := { h.boot with pcieUp := true } }))) ∧
  (∀ s : State, s.Awake → s.hw.boot.svcUp = true →
    let h := s.hw
    (∀ x rest, h.logQ = x :: rest →
      (h.on F.DDR_STAT_TRAINED 0 = true → ∃ u nv, exec (.logRecordWrite false) s = .next { s with hw := u, nv := nv } ∧ u.logQ = rest ∧
        nv = (if x.seq ≠ 0 ∧ rest.all (·.seq == 0) = true then { s.nv with flash := { s.nv.flash with copied := x.seq } } else s.nv) ∧
        u.logNext = h.logNext + 1 ∧ u.logLost = 0 ∧ u.regs = h.regs ∧
        let r := u.dramBytes (0x180000000 + 64 * (h.logNext % 8388608)) 64
        leAt r 0 4 = h.logNext % 2 ^ 32 ∧ leAt r 4 1 = x.cls % 256 ∧ leAt r 5 1 = 0 ∧ leAt r 6 2 = x.code % 2 ^ 16 ∧
          leAt r 8 8 = x.time % 2 ^ 64 ∧ leAt r 16 4 = (h.readWord .GLB_STATE 0).toNat ∧
          leAt r 20 2 = h.get F.CLK_WARMCNT_COUNT 0 ∧ leAt r 22 2 = min h.logLost 0xFFFF ∧ leAt r 56 4 = 0 ∧
          leAt r 60 4 = crcOf crc32Params (r.take 60)) ∧
      exec (.logRecordWrite true) s = .next (s.withHw { h with logQ := rest, logLost := h.logLost + 1 })) ∧
    (∀ (q : Fin 16) (k : Nat) (p : NcpCmd) (io : NcpIo),
      let gen := if namesObject p.object && h.feat p 0 then h.gen p.objKey else 0
      (h.ncpAccepts q k {} opLogStatus (fun _ => {}) = some p → 0 < h.logNext →
        ∃ u, exec (.logStatus q k) s = .next (s.withHw u) ∧
          h.Answered u q k p 0 0 gen 0 [] (bytesLE 4 (h.logNext - min h.logNext 8388608) ++ bytesLE 4 (h.logNext - 1))) ∧
      (h.ncpAccepts q k {} opLogStatus (fun _ => {}) = some p → h.logNext = 0 → ∃ u a b, exec (.logStatus q k) s = .next (s.withHw u) ∧
        h.Answered u q k p 0 0 gen 0 [] (bytesLE 4 a ++ bytesLE 4 b)) ∧
      (let chk : NcpCmd → Checks := fun c =>
          { data := .some (64 * c.p 4 4)
            param := firstDetail [(decide (c.p 4 4 = 0 ∨ 4096 < c.p 4 4 ∨ h.logNext = 0 ∨ h.logHeld ≤ h.logBack (c.p 0 4)), ndRange)] };
        h.ncpAccepts q k io opLogRead chk = some p →
        let back := h.logBack (p.p 0 4)
        let n := min (p.p 4 4) (back + 1)
        let data := (List.range n).flatMap fun j => h.dramBytes (0x180000000 + 64 * ((h.logNext - 1 - back + j) % 8388608)) 64
        ∃ u, exec (.logRead q k io) s = .next (s.withHw (u.ncpCe opLogRead io)) ∧ h.Answered u q k p 0 0 gen data.length data [] ∧ h.OnlyAnswer u q)) ∧
    (∀ (q : Fin 16) (k : Nat) (p : NcpCmd), h.ncpAccepts q k {} opEnvStatus (fun _ => {}) = some p →
      ∃ u sel fst, exec (.envStatusRead q k) s = .next (s.withHw u) ∧
        h.Answered u q k p 0 0 (if namesObject p.object && h.feat p 0 then h.gen p.objKey else 0) 0 []
          (bytesLE 1 ((h.confirmedSet .a p.index).getD 0xFF) ++ bytesLE 1 sel ++
            bytesLE 1 (Store.get (fun _ => erNone) h.envRes p.index) ++ bytesLE 1 fst) ∧
        (h.selectFn .a p.index = none → sel = 0) ∧ (∀ g, h.selectionA p.index = some g → h.selectFn .a p.index ≠ none → sel = g) ∧
        (∀ n, h.selectFn .a p.index = some n → fst = nfield (h.sfnStatWord n) 0 2)))

/-- R402 to R404, R440, R445, R104: the opcodes that start a unit and are answered when it is done. At its turn an
accepted one starts its burn, its request to the B-die or its self-test without a reply; when the burn has ended, or the
B-die has answered or stayed silent, or the check engine is back or has failed, it is answered with that outcome. At a turn of an
ENV_SELECT the answer of the B-die that stands is taken and kept for the command whose request it answers (DEDUCED, log entry 135).
That such a row has two turns, INTERNAL for a unit that stays silent and the end of CHK_SELFTEST by a FAILED engine follow log entries
65 and 66 (DEDUCED). -/
def Obligations.NcpWaits : Prop := ∀ (s : State) (q : Fin 16) (k : Nat) (p : NcpCmd), s.Awake →
  let h := s.hw
  let started (u : Hw) : Prop := u.out = h.out ∧ ∃ c, (u.queue q).cmds[k]? = some c ∧ c.started = true ∧ c.packet = p.packet
  let answeredFrom (b u : Hw) (st d taken : Nat) (res : List Byte) : Prop :=
    let g := h.gen p.objKey
    let g' := if st ≤ 1 then (if g = 0xFFFFFFFF then 1 else g + 1) else g
    u.gen p.objKey = g' ∧ b.Answered u q k p st d (if namesObject p.object && h.feat p 0 then g' else 0) taken [] res
  let answered := answeredFrom h
  let status := otpStatus (h.get F.OTP_RESULT_CODE 0)
  let writeChk : NcpCmd → Checks := fun c =>
    { param := firstDetail [(decide (127 < c.p 0 4), ndRange)]
      life := firstDetail [((h.planProgram s.nv (0x100 + c.p 0 4) (c.p 4 4)).refused, ndNone)]
      busy := firstDetail [(h.on F.OTP_STAT_BUSY 0, ndNone)] }
  let finalChk : NcpCmd → Checks := fun c =>
    { param := firstDetail [(bytesAt c.packet 32 32 != usrRegion.digest s.nv.now, ndReadback),
        ((h.planFinalise s.nv rgUsr).code == orZero, ndNone)]
      life := firstDetail [((h.planFinalise s.nv rgUsr).refused, ndNone)]
      busy := firstDetail [(h.on F.OTP_STAT_BUSY 0, ndNone)] }
  (h.ncpAccepts q k {} opOtpWrite writeChk = some p → p.started = false → ∃ u, exec (.otpUsrWrite q k) s = .next (s.withHw u) ∧
    started u ∧ u.otpOp = some { h.planProgram s.nv (0x100 + p.p 0 4) (p.p 4 4) with target := 0 } ∧ u.on F.OTP_STAT_BUSY 0 = true) ∧
  (h.ncpAccepts q k {} opOtpFinalise finalChk = some p → p.started = false → ∃ u, exec (.otpFinalise q k) s = .next (s.withHw u) ∧
    started u ∧ u.otpOp = some (h.planFinalise s.nv rgUsr) ∧ u.on F.OTP_STAT_BUSY 0 = true) ∧
  (p.started = true → h.on F.OTP_STAT_BUSY 0 = false →
    (h.ncpCmd q k opOtpWrite = some p → ∃ u, exec (.otpUsrWrite q k) s = .next (s.withHw u) ∧ answered u status.1 status.2 0 []) ∧
    (h.ncpCmd q k opOtpFinalise = some p → ∃ u, exec (.otpFinalise q k) s = .next (s.withHw u) ∧ answered u status.1 status.2 0 []) ∧
    (h.ncpCmd q k opCfgCommission = some p → ∀ io low, ∃ u, exec (.cfgCommission q k io low) s = .next (s.withHw u) ∧
      answered u status.1 status.2 114 [])) ∧
  (∀ io low, let h' := h.updBoot fun b => { b with commLow := low }
    h'.ncpAccepts q k io opCfgCommission (h'.commissionChecks s.nv io) = some p → p.started = false → p.packet.length = 64 →
    let dig := bytesAt p.packet 32 32
    ∃ u o, exec (.cfgCommission q k io low) s = .next (s.withHw u) ∧ started u ∧ u.otpOp = some o ∧ o.op = 7 ∧ o.target = 0x20 + p.index ∧
      o.code = orOk ∧ u.cdig = dig ∧ lowestBlank s.nv.now h.life = some p.index ∧ low = true ∧ h.b.digest = dig) ∧
  (∀ timeout,
    let chk : NcpCmd → Checks := fun c =>
      { param := firstDetail [(!h.requestOk c.index (c.p 0 1), ndRange)], safety := firstDetail [(!h.requestEnabled c.index, ndEnableOff)] }
    let b := h.keepEnvReply
    ((h.ncpCmd q k opEnvSelect).isSome → (∀ j, j < 16 → (b.queue j).cmds = (h.queue j).cmds.map fun c =>
        if h.mbxFull 31 = true ∧ c.started = true ∧ c.opcode = opEnvSelect.op ∧ c.seq = (h.word .MBX_MSG 249).toNat ∧ c.reply = none
          then { c with reply := some (h.word .MBX_MSG 250).toNat } else c) ∧
      (h.mayTake 31 (svcOf (h.get F.MBX_BIND_RECV 31)) = true → h.on F.MBX_BIND_RPAIR 31 = false → b.mbxFull 31 = false)) ∧
    (b.ncpAccepts q k {} opEnvSelect chk = some p → p.started = false →
      (h.mbxFull 30 = true → exec (.envSelect q k timeout) s = .next (s.withHw b)) ∧
      (h.mbxFull 30 = false → h.maySend 30 (svcOf (h.get F.MBX_BIND_SEND 30)) = true →
        ∃ u, exec (.envSelect q k timeout) s = .next (s.withHw u) ∧ started u ∧ u.mbxFull 30 = true ∧
          (u.word .MBX_MSG 240).toNat = 1 + 256 * p.index + 4096 * p.p 0 1 ∧ (u.word .MBX_MSG 241).toNat = h.ncp.envSeq % 2 ^ 32)) ∧
    (b.ncpCmd q k opEnvSelect = some p → p.started = true →
      (∀ st, p.reply = some st → ∃ u, exec (.envSelect q k timeout) s = .next (s.withHw u) ∧
        if st ≠ 0 then answeredFrom b u 0x201 0x23 0 []
        else if (h.latchRequest .a p.index (p.p 0 1)).isSome then
          answeredFrom b u 0 0 0 [] ∧ Store.get (fun _ => none) u.evA.req p.index = some (p.p 0 1)
        else answeredFrom b u 0x201 0x24 0 []) ∧
      (p.reply = none → timeout = true →
        ∃ u, exec (.envSelect q k timeout) s = .next (s.withHw u) ∧ answeredFrom b u 0x301 0 0 []) ∧
      (p.reply = none → timeout = false → exec (.envSelect q k timeout) s = .next (s.withHw b)))) ∧
  (let chk : NcpCmd → Checks := fun c => { busy := firstDetail [(h.ceLimit c.index, ndLimit)] };
    h.ncpAccepts q k {} opChkSelftest chk = some p → p.started = false → ∃ u, exec (.chkSelftest q k) s = .next (s.withHw u) ∧
      started u ∧ u.bitOf F.CHK_CEOFF_OFF 0 p.index = true) ∧
  (h.ncpCmd q k opChkSelftest = some p → p.started = true →
    ((h.ce p.index).state = .online → ∃ u, exec (.chkSelftest q k) s = .next (s.withHw u) ∧ answered u 0 0 0 [0]) ∧
    ((h.ce p.index).state = .failed → ∃ u, exec (.chkSelftest q k) s = .next (s.withHw u) ∧ answered u 0 0 0 [3]) ∧
    ((h.ce p.index).state = .offline → h.bitOf F.CHK_CEOFF_OFF 0 p.index = true →
      exec (.chkSelftest q k) s = .next (s.withHw (ceoffWrite (nsetBit (h.get F.CHK_CEOFF_OFF 0) p.index false) h))))

/-- R412, R413, R415, R416, R419: sending. At a boundary the B-die forms its half of the frame that the connection asks
for, under the next SEQ, with ECHO from version 1.1 on; the A-die completes it to 46 bytes with its own data and check
value and sends it on every port that NPS_CFG names, or drops it where it came too late; what it receives goes to the
B-die unjudged. R420 to R422, R424, R426 to R428: receiving. A channel judges each frame on its own, one whose KIND names none of the
four alike (log entry 134): while CLOSED it takes none, and channel A records the unsound ones of a configured peer;
an unsound or repeated one changes no connection, and channel A records why; an accepted CONN takes the connection to
CONNECTING with the lower of the two versions and an answer owed, one below version 1.0 only sets its flag; a CONNACK of
the agreed version takes CONNECTING to UP; DATA gives the bits on which DATA_A and DATA_B agree and makes a connection
that is UP valid; the watchdog starts again when the connection comes UP and at each accepted DATA frame, from version
1.1 on only at one whose echo is no older than WD, and a later one sets LATE in channel A, and never once WD has passed; a CLOSE, or
WD without a restart, takes UP to CONNECTING, where the peer is not valid. That channel B runs its watchdog up to 2 % fast (log entry
115) and what CONN and CONNACK ask and change (log entry 67) is the model's reading (DEDUCED). -/
def Obligations.PeerLink : Prop :=
  (∀ (s : State) (p : Fin 16), s.Awake →
    let h := s.hw
    let x := h.conn .b p
    (x.kindDue = none → exec (.npsBoundary p) s = .next s) ∧
    (∀ kind, x.kindDue = some kind → h.b.runs = true → h.on F.XLK_STAT_XLKC_UP 0 = true →
      ∃ u f, exec (.npsBoundary p) s = .next (s.withHw u) ∧ u.toA = h.toA ++ [.npsFields f] ∧ f.peer = p.val ∧ f.kind = kind ∧
        f.seq = x.seq ∧ (u.conn .b p).seq = (x.seq + 1) % 2 ^ 32 ∧
        f.ver = (if kind = 1 then (if (h.peer .b p).v11 then 0x11 else 0x10) else x.agreed) ∧
        f.echo = (if 0x11 ≤ f.ver then x.last else 0) ∧
        f.dataB = (if kind = 3 then Store.get (fun _ => 0) h.evB.peerOut p else 0) ∧
        (u.conn .b p).sent = (f.seq, h.time) :: x.sent ∧ (u.conn .b p).answer = false ∧ (u.conn .b p).closing = false ∧
        (u.conn .b p).state = x.state ∧ u.regs = h.regs) ∧
    (∀ late, takeNpsFields p h.toA = none → exec (.npsFrameSend p late) s = .next s) ∧
    (∀ f rest, takeNpsFields p h.toA = some (f, rest) →
      exec (.npsFrameSend p true) s = .next (s.withHw { h with toA := rest }) ∧
      ∃ u pay, exec (.npsFrameSend p false) s = .next (s.withHw u) ∧ u.toA = rest ∧
        u.out = h.out ++ (((List.range 2).filter fun k => h.bitOf F.NPS_CFG_PORTS p k).map fun k => .etherFrame k (h.npsHeader p k ++ pay)) ∧
        u.get F.NPS_SEQ_TX_VALUE p = f.seq % 2 ^ 32 ∧ pay.length = 46 ∧ frameNum pay 0 1 = f.kind % 256 ∧ frameNum pay 1 1 = f.ver % 256 ∧
        frameNum pay 2 2 = h.localId .a % 2 ^ 16 ∧ frameNum pay 4 2 = (h.peer .a f.peer).remote % 2 ^ 16 ∧
        frameNum pay 12 4 = f.seq % 2 ^ 32 ∧ frameNum pay 16 4 = f.echo % 2 ^ 32 ∧
        frameNum pay 20 8 = (if f.kind = 3 then h.npsDataA f.peer else 0) % 2 ^ 64 ∧ frameNum pay 28 8 = f.dataB % 2 ^ 64 ∧
        frameNum pay 36 4 = crcOf crc32cParams (bytesLE 4 (h.peer .a f.peer).key ++ pay.take 28) ∧
        frameNum pay 40 4 = f.chkB % 2 ^ 32) ∧
    (∀ bs, npsPayloadOf bs = none → exec (.npsForward bs) s = .next s) ∧
    (∀ bs pay, npsPayloadOf bs = some pay → exec (.npsForward bs) s = .next (s.withHw
      (if h.on F.XLK_STAT_XLKC_UP 0 then { h with toB := h.toB ++ [.npsFrame pay] } else h.setB F.XLK_ERR_XLKC_DROP 0 true)))) ∧
  (∀ (s : State) (c : Chan) (p : Fin 16) (bs pay : List Byte) (h1 : Hw), s.Awake →
    let h := s.hw
    let x := h.conn c p
    let frames : List (Nat × Instr) := [(1, .npsConnReceived c p bs), (2, .npsConnackReceived c p bs), (3, .npsDataReceived c p bs),
      (4, .npsCloseReceived c p bs)]
    (∀ kind cmd, (kind, cmd) ∈ frames → h.npsNext c kind bs = none → exec cmd s = .next s) ∧
    (∀ kind cmd, (kind, cmd) ∈ frames → h.npsNext c kind bs = some (pay, h1) →
      let j := h.npsJudge c p pay
      let sound := j.chkA && j.chkB && j.addr && j.param
      let isNew := x.fresh || decide (1 ≤ j.gap ∧ j.gap ≤ 1000)
      let seq := frameNum pay 12 4
      let ver := frameNum pay 1 1
      let known := frameNum pay 0 1 = kind
      let flagged (u : Hw) : Prop := u.on F.NPS_ERR_CHK_A p = (h.on F.NPS_ERR_CHK_A p || !j.chkA) ∧
        u.on F.NPS_ERR_CHK_B p = (h.on F.NPS_ERR_CHK_B p || !j.chkB) ∧ u.on F.NPS_ERR_ADDR p = (h.on F.NPS_ERR_ADDR p || !j.addr) ∧
        u.on F.NPS_ERR_PARAM p = (h.on F.NPS_ERR_PARAM p || !j.param) ∧
        (sound = false → u.get F.NPS_CNT_BAD p = min (h.get F.NPS_CNT_BAD p + 1) 65535)
      (x.state = nsClosed → c = .b ∨ (h.peer c p).en = false ∨ sound = true → exec cmd s = .next (s.withHw h1)) ∧
      (x.state = nsClosed → c = .a → (h.peer c p).en = true → sound = false →
        ∃ u, exec cmd s = .next (s.withHw u) ∧ u.nps = h.nps ∧ flagged u) ∧
      (x.state ≠ nsClosed → sound = false ∨ isNew = false → ∃ u, exec cmd s = .next (s.withHw u) ∧ u.nps = h.nps ∧
        (c = .b → u = h1) ∧
        (c = .a → flagged u ∧
          u.on F.NPS_ERR_SEQ_OLD p = (h.on F.NPS_ERR_SEQ_OLD p || (!isNew && j.gap != 0)))) ∧
      (x.state ≠ nsClosed → sound = true → isNew = true → ¬ known →
        ∃ u, exec cmd s = .next (s.withHw u) ∧ u.conn c p = { x with last := seq, fresh := false }) ∧
      (x.state ≠ nsClosed → sound = true → isNew = true → known → ∃ u, exec cmd s = .next (s.withHw u) ∧
        (kind = 1 → ver < 0x10 → u.nps = h.nps ∧ (c = .a → u.on F.NPS_ERR_VER p = true)) ∧
        (kind = 1 → 0x10 ≤ ver → x.state ≤ 2 → (u.conn c p).state = nsConnecting ∧ (u.conn c p).answer = true ∧
          (u.conn c p).agreed = min ver (if (h.peer c p).v11 then 0x11 else 0x10)) ∧
        (kind ≠ 1 ∨ 0x10 ≤ ver → (u.conn c p).last = seq) ∧
        (kind = 2 → if x.state = nsConnecting ∧ ver = x.agreed then (u.conn c p).state = nsUp ∧ (u.conn c p).valid = false ∧ (u.conn c p).wdAt = h.time
          else (u.conn c p).state = x.state) ∧
        (kind = 3 → (u.conn c p).state = x.state ∧ (u.conn c p).rx = Nat.land (frameNum pay 20 8) (frameNum pay 28 8) ∧
          (u.conn c p).valid = decide (x.state = nsUp) ∧
          (u.conn c p).wdAt = (if h.wdPassed c p = false ∧
              (x.agreed ≠ 0x11 ∨ (h.echoAge c p (frameNum pay 16 4)).any (decide <| · ≤ (h.peer c p).wd * 100000) = true)
            then h.time else x.wdAt) ∧
          (x.agreed ≠ 0x11 → c = .a → u.on F.NPS_ERR_LATE p = h.on F.NPS_ERR_LATE p) ∧
          (x.agreed = 0x11 → c = .a → h.echoAge .a p (frameNum pay 16 4) = none → u.on F.NPS_ERR_LATE p = true) ∧
          (x.agreed = 0x11 → c = .a → ∀ a, h.echoAge .a p (frameNum pay 16 4) = some a →
            u.get F.NPS_AGE_LAST p = min (a / 1000) 0xFFFF ∧
            u.on F.NPS_ERR_LATE p = (h.on F.NPS_ERR_LATE p || !decide (a ≤ (h.peer .a p).wd * 100000)))) ∧
        (kind = 4 → (u.conn c p).state = if x.state = nsUp then nsConnecting else x.state))) ∧
    let wd := (h.peer c p).wd * 100000
    let t := h.time - x.wdAt
    let passed := match c with
      | .a => wd ≤ t
      | .b => 98 * wd ≤ 100 * t
    let expired := x.state = nsUp ∧ passed
    (h.wdPassed c p = true ↔ passed) ∧ (¬ expired → exec (.npsWatchdog c p) s = .next s) ∧
    (expired → ∃ u, exec (.npsWatchdog c p) s = .next (s.withHw u) ∧ (u.conn c p).state = nsConnecting ∧
      (u.conn c p).valid = false ∧ (u.conn c p).fresh = true ∧ (c = .a → u.on F.NPS_ERR_WDOG p = true)))

/-- R436, R440, R442, R445, R447, R450: a granted write to OTP_CMD, OTP_CMD_PROGRAM, OTP_CMD_FINALISE, OTP_CMD_RESCAN,
OTP_CMD_KEYGEN, OTP_CMD_LC_ADVANCE, OTP_CMD_RBK_ADVANCE or OTP_CMD_COMMISSION, completes. While an operation runs it only
sets REJ. Otherwise the operation starts, BUSY is set and no fuse changes; one that the lifecycle, BOOTLK or a region's state does not allow
carries its result and burns nothing; an advance of the lifecycle goes one step or to RETIRED, one of the anti-rollback
count never back, KEYGEN runs only in MANUFACTURE on a blank region, and COMMISSION needs the lowest blank slot, COMM_N
low and the B-die's digest. R430, R439, R440, R441, R473: how an operation ends. Every bit of its plan is burned in all
three copies, unless a copy does not read old value OR data afterwards, which ends it with PROG_FAIL; the result is
recorded and logged; a reset that waited for it follows; the array changes at no RESCAN. HOLDREL releases the integrity
hold unless KEY or ROT has failed. That a refused operation, too, starts, sets BUSY and ends in OTP_OPERATION_DONE is log entry 70
(DEDUCED). -/
def Obligations.FuseCommands : Prop :=
  (∀ (s : State) (m : Master) (v : Word) (low : Bool), s.Awake →
    let h0 (k : Nat) : Hw := if k = 7 then s.hw.updBoot fun b => { b with commLow := low } else s.hw
    let cmds : List (Nat × Instr) := [(1, .otpProgram m v), (2, .otpCmdFinalise m v), (3, .otpRescan m v), (4, .otpKeygen m v),
      (5, .otpLcAdvance m v), (6, .otpRbkAdvance m v), (7, .otpCommission m v low)]
    s.hw.present m = true → ∀ k c, (k, c) ∈ cmds →
    let h := (h0 k).tmrSettle
    let target := nfield v.toNat 8 8
    h.granted m .OTP_CMD 0 = true →
      (h.on F.OTP_STAT_BUSY 0 = true → exec c s = .next (s.withHw (h.setB F.OTP_STAT_REJ 0 true))) ∧
      (h.on F.OTP_STAT_BUSY 0 = false → ∃ u o, exec c s = .next (s.withHw u) ∧ u.otpOp = some o ∧ o.op = k ∧ o.target = target ∧
        u.on F.OTP_STAT_BUSY 0 = true ∧ (o.code ≠ orOk → o.plan = []) ∧
        (k = 1 → (o.code = orOk ↔ ∃ r, regionOfWord (h.get F.OTP_ADDR_VALUE 0) = some r ∧
          (if r.code = rgUsr then h.life ≠ lcRetired else h.life = lcManufacture) ∧
          (r.state s.nv.now h.life = rsBlank ∨ r.state s.nv.now h.life = rsOpen))) ∧
        (k = 2 → (o.code = orOk ↔ ∃ r, sealedRegion target = some r ∧
          (if r.code = rgUsr then h.life ≠ lcRetired else h.life = lcManufacture) ∧ r.state s.nv.now h.life = rsOpen)) ∧
        (k = 3 → o.code = orOk ∧ o.plan = []) ∧
        (k = 4 → (o.code = orOk ↔ h.life = lcManufacture ∧
          Region.state ⟨2, 0x05C, 14, 0x06A, 0x049, 1⟩ s.nv.now h.life = rsBlank)) ∧
        (k = 5 → (o.code = orOk ↔ (h.on F.OTP_CTL_BOOTLK 0 = false ∨ h.life = lcManufacture) ∧ h.life < lcRetired ∧
          (target = h.life + 1 ∨ target = lcRetired)) ∧ (o.code = orOk → o.plan = [(0x048, 2 ^ target - 1)])) ∧
        (k = 6 → (o.code = orOk ↔ (h.on F.OTP_CTL_BOOTLK 0 = false ∨ h.life = lcManufacture) ∧ h.get F.OTP_REGION_STATE 5 ≠ rsFailed ∧
          h.rbkCount ≤ target ∧ target ≤ 128)) ∧
        (k = 7 → o.code = orOk → 0x20 ≤ target ∧ (h.life = lcDevelopment ∨ h.life = lcField) ∧
          lowestBlank s.nv.now h.life = some (target - 0x20) ∧ low = true ∧ h.b.digValid = true ∧ h.b.digest = h.cdig))) ∧
  (∀ s : State, s.Awake →
    let h := s.hw
    (h.otpOp = none → h.boot.rstWaits = false → ∀ devs, exec (.otpDone devs) s = .next s) ∧
    (∀ o devs, h.otpOp = some o → o.op ≠ opRescan → h.boot.rstWaits = false → ∃ u nv, exec (.otpDone devs) s = .next { s with hw := u, nv := nv } ∧
      nv.flash = s.nv.flash ∧ u.otpOp = none ∧ u.on F.OTP_STAT_BUSY 0 = false ∧ u.get F.OTP_RESULT_OP 0 = o.op % 16 ∧
      let old (w : Nat) : Nat := (s.nv.now w).value
      u.get F.OTP_RESULT_CODE 0 = (if (s.nv.program old devs o.plan).2 then o.code else orProgFail) % 16 ∧ u.logQ.length = h.logQ.length + 1 ∧
      (∀ c w k, nbit (s.nv.copy c w) k = true → nbit (nv.copy c w) k = true) ∧
      ((s.nv.program old devs o.plan).2 = true →
        ∀ w b, (w, b) ∈ o.plan → ∀ c < 3, ∀ k, nbit b k = true → nbit (nv.copy c w) k = true) ∧
      (∀ w b rest, o.plan = (w, b) :: rest → (s.nv.program old devs o.plan).2 = true → ∀ c < 3,
        Nat.xor (Nat.lor (s.nv.copy c w) b) (misread devs c w) = Nat.lor (old w) b) ∧
      (devs = [] → (o.plan.map (·.1)).Nodup → (∀ w ∈ o.plan.map (·.1), w < 1024 ∧ ∀ c < 3, s.nv.copy c w = old w) →
        (s.nv.program old devs o.plan).2 = true)) ∧
    (∀ o devs, h.otpOp = some o → o.op = opRescan → h.boot.rstWaits = false → o.plan = [] → ∃ u, exec (.otpDone devs) s = .next (s.withHw u) ∧
      u.otpOp = none ∧ u.on F.OTP_SCAN_DONE 0 = true ∧ u.get F.OTP_RESULT_CODE 0 = orOk) ∧
    (∀ o devs, h.otpOp = some o → h.boot.rstWaits = true → ∃ u nv, exec (.otpDone devs) s = .next { s with hw := u, nv := nv } ∧
      u.on F.CLK_RSTCAUSE_REQ 0 = true ∧ u.dev = devBoot ∧ u.otpOp = none) ∧
    (∀ (m : Master) (v : Word), h.present m = true → h.tmrSettle.granted m .OTP_CTL 0 = true →
      ∃ u, exec (.otpHoldRel m v) s = .next (s.withHw u) ∧
        if h.otp.keyFailed = true ∨ h.otp.rotFailed = true then u.on F.OTP_STAT_HOLD 0 = h.on F.OTP_STAT_HOLD 0
        else u.on F.OTP_STAT_HOLD 0 = false ∧ u.on F.OTP_CTL_HOLDREL 0 = true))

/-- R430, R433 to R435, R439: sensing. A word on whose value two of its three copies agree is latched with that value;
one without agreement is latched as failed; a failed region sets INTEGRITY and the hold, and event 124; the sequence
goes on. A Rind found breached at power-up leaves no identity key and takes the device to SAFE_HOLD (R460). -/
def Obligations.FuseSensing : Prop := ∀ (s : State) (devs : List Deviation) (strap rng : Bool), s.Awake →
  (s.hw.boot.phase ≠ .locked → ∀ rind, exec (.fuseSensing devs strap rng rind) s = .next s) ∧
  (s.hw.boot.phase = .locked → s.hw.dev = devBoot → ∀ rind : Fin 256, rind ≠ 0 → ∃ u nv,
    exec (.fuseSensing devs strap rng rind) s = .next { s with hw := u, nv := nv } ∧ u.dev = devSafeHold ∧
    u.get F.GLB_STATE_HOLD_CAUSE 0 = 4 ∧ u.on F.SEC_STAT_BREACH 0 = true ∧ u.on F.SEC_STAT_IDKEY 0 = false ∧ u.idKey = [] ∧
    nv.fuses = s.nv.fuses) ∧
  (s.hw.boot.phase = .locked → s.hw.dev = devBoot → s.hw.on F.SEC_STAT_BREACH 0 = false →
    ∃ u, exec (.fuseSensing devs strap rng 0) s = .next (s.withHw u) ∧ u.boot.phase = .sensed ∧ u.on F.OTP_STAT_SENSED 0 = true ∧
      u.get F.CLK_BOOT_STAGE 0 = 1 ∧ u.on F.SEC_STAT_RNG_OK 0 = rng ∧
      (∀ w, listedWord w = true → w < 1024 →
        let a := (s.nv.reading devs 0 w).1
        let b := (s.nv.reading devs 1 w).1
        let c := (s.nv.reading devs 2 w).1
        let tight (k : Nat) : Bool := (s.nv.reading devs k w).1 == (s.nv.reading devs k w).2
        ((List.range 3).all tight = true → a = b ∨ a = c → Store.get (fun _ => 0) u.otp.words w = a ∧ w ∉ u.otp.failed) ∧
        ((List.range 3).all tight = true → a ≠ b → b = c → Store.get (fun _ => 0) u.otp.words w = b ∧ w ∉ u.otp.failed) ∧
        (a ≠ b → a ≠ c → b ≠ c → w ∈ u.otp.failed)) ∧
      (u.on F.OTP_STAT_INTEGRITY 0 = true → u.on F.OTP_STAT_HOLD 0 = true ∧ u.bitOf F.EVT_PEND_PEND 3 28 = true) ∧
      (u.on F.OTP_STAT_INTEGRITY 0 = (List.range 8).any fun k => u.get F.OTP_REGION_STATE k == rsFailed))

/-- R450 to R452, R463: SEC commands, SEC_HASH_MEM, SEC_HASH_BUF, SEC_VERIFY, SEC_SIGN_ID, SEC_RANDOM, SEC_IDPUB and
SEC_HASH_ABORT, each of which completes for a master that may write SEC_CMD. While one runs only the abort of HASH_MEM
acts, and ends it as ABORTED. Otherwise a command is refused with its result and SEC_EVT.DONE, because of its length, its
memory, its tag, its lifecycle or a missing key, or it runs with the tag, source, length and SEC_BUF that it takes at its start, so
that what is signed is what was checked (R452; log entries 71, 132); one written while the ledger has a signature standing waits for
it (R463). R47, R356, R450 to R452, R463: how SEC commands end. A hash goes to SEC_DIG over the tag and the message; VERIFY gives
KEY_MISMATCH for a key that its ROT slot does not hold, OK for a good signature and SIG_FAIL for another; SIGN_ID puts the Ed448
signature under the identity key into SEC_BUF 64 to 177; RANDOM puts 32 fresh bytes into SEC_BUF 0 to 31 or ends with RNG_FAIL; IDPUB
puts the public key for the lifecycle KEYSEL into SEC_BUF 0 to 56; HASH_MEM counts the corrected errors that it met, and an
uncorrectable one ends it with READ_ERR (log entry 73 for what R451 derives the keys from). R460, R462: a breach of the Rind, in a
module that the pin or a thermal trip holds in reset too, zeroises the identity key and SEC_BUF, is recorded with its segments and its
event, and takes the device to SAFE_HOLD. A debug unlock draws the challenge anew; one that a key in its ROT slot signed, where
the lifecycle allows it, is followed by a WARM reset with debug access, another one sets DBG_FAIL. SEC_OPERATION_DONE,
RIND_BREACH and DEBUG_UNLOCK complete in every state. -/
def Obligations.Security : Prop :=
  (∀ (s : State) (m : Master) (v : Word), s.Awake → s.hw.present m = true →
    let h := s.hw.tmrSettle
    h.granted m .SEC_CMD 0 = true →
    let cmds : List (Nat × Instr) := [(1, .secHashMem m v), (2, .secHashBuf m v), (3, .secVerify m v), (4, .secSignId m v),
      (5, .secRandom m v), (6, .secIdPub m v), (7, .secHashAbort m v)]
    let len := h.get F.SEC_LEN_VALUE 0
    let src := h.get F.SEC_SRC_LO_VALUE 0 + 2 ^ 32 * (h.get F.SEC_SRC_HI_VALUE 0 % 256)
    let key := nfield v.toNat 8 4
    let noDram : Bool := decide (m.val < 6 ∨ 0x10 ≤ m.val)
    let msg := bytesAt (h.getBytes .SEC_BUF 128) 192 len
    let refusals (k : Nat) : List (Bool × Nat) :=
      if k = 1 then [(decide (len = 0 ∨ 268435456 < len) || (noDram && touchesDram src len), 5)]
      else if k = 2 ∨ k = 3 then [(decide (320 < len), 5)]
      else if k = 4 then [(decide (320 < len), 5), (decide (bytesAt msg 0 8 ≠ tagBytes tagAttest), 4), (!h.on F.SEC_STAT_IDKEY 0, 6)]
      else if k = 6 then [(decide (h.life ≠ 0 ∨ (key ≠ 1 ∧ key ≠ 2)), 5), (decide (h.get F.OTP_REGION_STATE 2 ≠ 2), 6)]
      else []
    (∀ o, h.secOp = some o → ∀ k c, (k, c) ∈ cmds → ∃ u, exec c s = .next (s.withHw u) ∧
      if k = 7 ∧ o.op = 1 then u.secOp = none ∧ u.on F.SEC_STAT_BUSY 0 = false ∧ u.get F.SEC_RESULT_CODE 0 = 9 ∧ u.bitOf F.SEC_EVT_FLAGS 0 0 = true
      else u = h) ∧
    (h.secOp = none → exec (.secHashAbort m v) s = .next (s.withHw h) ∧
      ∀ k c, (k, c) ∈ cmds → k ≠ 7 → ∃ u, exec c s = .next (s.withHw u) ∧
      match (refusals k).find? (·.1) with
      | some r => u.secOp = none ∧ u.get F.SEC_RESULT_CODE 0 = r.2 ∧ u.bitOf F.SEC_EVT_FLAGS 0 0 = true ∧ u.on F.SEC_STAT_BUSY 0 = false
      | none => u.on F.SEC_STAT_BUSY 0 = true ∧ u.secOp = some
          { op := k, key := key, tag := bytesLE 4 (h.get F.SEC_TAG_LO_VALUE 0) ++ bytesLE 4 (h.get F.SEC_TAG_HI_VALUE 0), src := src, len := len,
            buf := h.getBytes .SEC_BUF 128, waits := h.ledger.signing.isSome })) ∧
  (∀ (s : State) bad met, s.Awake → s.hw.secOp = none → exec (.secDone bad met) s = .next s) ∧
  (∀ (s : State) (o : SecOp) bad met, s.Awake → s.hw.secOp = some o → o.waits = true → s.hw.ledger.signing.isSome = true →
    exec (.secDone bad met) s = .next s) ∧
  (∀ (s : State) (o : SecOp), s.Awake → s.hw.secOp = some o → (o.waits = true → s.hw.ledger.signing = none) →
    let h := s.hw
    let buf := h.getBytes .SEC_BUF 128
    let msg := bytesAt o.buf 192 o.len
    let secret := (List.range 14).flatMap fun k => bytesLE 4 (Store.get (fun _ => 0) h.otp.words (0x05C + k))
    ∀ (bad : Bool) (met : DramMet), ∃ u, exec (.secDone bad met) s = .next (s.withHw u) ∧ u.secOp = none ∧
      u.on F.SEC_STAT_BUSY 0 = false ∧ u.bitOf F.SEC_EVT_FLAGS 0 0 = true ∧
      (o.op = 1 → u.get F.DDR_CECNT_COUNT 0 = min (h.get F.DDR_CECNT_COUNT 0 + met.ce) (2 ^ 32 - 1) ∧
        (0 < met.ce → u.on F.DDR_EVT_CE 0 = true) ∧
        (∀ off, met.ue = some off → u.get F.SEC_RESULT_CODE 0 = 8 ∧ u.on F.DDR_EVT_UE 0 = true) ∧
        (met.ue = none → u.get F.SEC_RESULT_CODE 0 = 1 ∧
          u.getBytes .SEC_DIG 8 = shake256 (o.tag ++ (List.range o.len).map fun k => h.sysByte (o.src + k)) 32)) ∧
      (o.op = 2 → u.get F.SEC_RESULT_CODE 0 = 1 ∧ u.getBytes .SEC_DIG 8 = shake256 (o.tag ++ msg) 32) ∧
      (o.op = 3 → u.get F.SEC_RESULT_CODE 0 = (if h.keyInSlot o.key (o.buf.take 57) = false then 3
        else if ed448Verify (o.buf.take 57) msg (bytesAt o.buf 64 114) then 1 else 2) ∧
        (u.get F.SEC_RESULT_CODE 0 = 2 → u.bitOf F.SEC_EVT_FLAGS 0 1 = true)) ∧
      (o.op = 4 → if h.on F.SEC_STAT_IDKEY 0 then u.get F.SEC_RESULT_CODE 0 = 1 ∧
          u.getBytes .SEC_BUF 128 = buf.take 64 ++ ed448Sign h.idKey msg ++ buf.drop 178
        else u.get F.SEC_RESULT_CODE 0 = 6 ∧ u.getBytes .SEC_BUF 128 = buf) ∧
      (o.op = 5 → if bad = true ∨ h.on F.SEC_STAT_RNG_OK 0 = false then u.get F.SEC_RESULT_CODE 0 = 7 ∧ u.on F.SEC_STAT_RNG_OK 0 = false ∧
          u.bitOf F.SEC_EVT_FLAGS 0 3 = true
        else u.get F.SEC_RESULT_CODE 0 = 1 ∧ u.draws = h.draws + 32 ∧
          u.getBytes .SEC_BUF 8 = (List.range 32).map fun k => Config.randomByte (h.draws + k)) ∧
      (o.op = 6 → u.get F.SEC_RESULT_CODE 0 = 1 ∧
        u.getBytes .SEC_BUF 128 = ed448Public (identityKey o.key secret) ++ buf.drop 57)) ∧
  (∀ s : State,
    let h := s.hw
    exec (.rindBreach 0) s = .next s ∧
    (∀ mask, h.boot.heldPor = true → exec (.rindBreach mask) s = .next s) ∧
    (∀ mask : Fin 256, h.boot.heldPor = false → mask ≠ 0 → ∃ u nv, exec (.rindBreach mask) s = .next { s with hw := u, nv := nv } ∧ u.idKey = [] ∧
      (h.boot.held = true → u.boot.phase = h.boot.phase) ∧
      u.on F.SEC_STAT_IDKEY 0 = false ∧ u.on F.SEC_STAT_BREACH 0 = true ∧ u.on F.SEC_STAT_RIND_OK 0 = false ∧
      u.get F.SEC_RIND_SEG 0 = Nat.lor (h.get F.SEC_RIND_SEG 0) mask ∧ (∀ k < 128, u.word .SEC_BUF k = 0) ∧
      u.bitOf F.SEC_EVT_FLAGS 0 2 = true ∧ u.bitOf F.EVT_PEND_PEND 3 29 = true ∧ u.dev = devSafeHold ∧
      (h.dev ≠ devSafeHold → u.get F.GLB_STATE_HOLD_CAUSE 0 = 4) ∧ nv.fuses = s.nv.fuses) ∧
    (s.Awake → ∀ key slot sig cut,
      (h.unlockOk key slot sig = true → ∃ u nv, exec (.debugUnlock key slot sig cut) s = .next { s with hw := u, nv := nv } ∧
        u.boot.unlocked = true ∧ u.on F.CLK_RSTCAUSE_BOOTROM 0 = true ∧ u.dev = devBoot ∧ nv.flash = s.nv.flash ∧
        u.getBytes .SEC_DBGCHAL 8 = (List.range 32).map fun k => Config.randomByte (h.draws + k)) ∧
      (h.unlockOk key slot sig = false → ∃ u, exec (.debugUnlock key slot sig cut) s = .next (s.withHw u) ∧
        u.bitOf F.SEC_EVT_FLAGS 0 4 = true ∧ u.boot = h.boot ∧
        u.getBytes .SEC_DBGCHAL 8 = (List.range 32).map fun k => Config.randomByte (h.draws + k))))

/-- R464, R469, R470, R472 to R474, R481, R482, R484: resets. A supply outside its window holds the module with
everything at its reset value, and its return releases it; the pin and a thermal trip hold a WARM reset until they end, and are
kept where they come under POR; a request waits for a running fuse operation; every reset records its own cause and those of the
resets under way with it; a WARM reset leaves at its reset value every register but those that R470 keeps. A Pod that is RETIRED, or
was to retire at the end of its reset, is RETIRED after it (R308; log entry 114). The B-die's own supervisor resets only the B-die,
whose version words are then unchecked, and XLK_C goes down; neither VSYS nor its return moves VSYS_B, and none of the resets the
trip of the B-die (R484, R490). Levels and holds of NRST_IN_N, of the thermal trip and of VSYS_B follow log entry 77. -/
def Obligations.Resets : Prop := ∀ (s : State) (cut : OtpCut),
  let h := s.hw
  let kept : List Reg := [.POD_MMCNT, .POD_STAT, .CLK_RSTCAUSE, .CLK_WARMCNT, .SEC_RIND, .SEC_STAT, .CLK_STAT, .SEC_DBGCHAL]
  let recorded (u : Hw) : Prop := (h.boot.heldPin = true → u.on F.CLK_RSTCAUSE_PIN 0 = true) ∧
    (h.boot.heldHot = true → u.on F.CLK_RSTCAUSE_THERMAL 0 = true) ∧ (h.boot.rstWaits = true → u.on F.CLK_RSTCAUSE_REQ 0 = true) ∧
    (h.dev = devBoot → ∀ k < 32, nbit h.boot.causes k = true → nbit (u.word .CLK_RSTCAUSE 0).toNat k = true)
  let warm (u : Hw) (cause : Fld) : Prop := u.on cause 0 = true ∧ recorded u ∧ u.b.therm = h.b.therm ∧ u.dram = [] ∧ u.queues = [] ∧ u.ncp = {} ∧ u.otpOp = none ∧
    u.get F.CLK_WARMCNT_COUNT 0 = min (h.get F.CLK_WARMCNT_COUNT 0 + 1) 65535 ∧
    (∀ p < 6, u.word .POD_MMCNT p = h.word .POD_MMCNT p) ∧ u.word .SEC_RIND 0 = h.word .SEC_RIND 0 ∧
    (∀ p < 6, (u.podState p = podRetired ↔
      if h.podState p = podRetired then h.get F.POD_STAT_RCAUSE p ≠ 0 else (h.pod p).retire ≠ 0)) ∧ ∀ r n, r ∉ kept → u.word r n = r.resetWord
  (∀ v, v ≠ .within → ∃ u nv, exec (.powerOnReset v cut) s = .next { s with hw := u, nv := nv } ∧ u.boot.heldPor = true ∧
    (∀ r n, (r, n) ≠ (.POD_STAT, 0) → u.word r n = r.resetWord) ∧ u.dram = [] ∧ u.time = 0 ∧ u.b.vsysOk = h.b.vsysOk ∧ u.b.therm = h.b.therm ∧
    nbit u.boot.causes (if v = .under then 1 else 2) = true ∧ (h.otpOp = none → nv = s.nv)) ∧
  (h.boot.heldPor = true → ∃ u, exec (.powerOnReset .within cut) s = .next (s.withHw u) ∧ u.boot.heldPor = false ∧
    u.boot.phase = .por ∧ u.b.vsysOk = h.b.vsysOk ∧ u.b.therm = h.b.therm ∧ recorded u ∧ u.on F.CLK_RSTCAUSE_POR 0 = true ∧
    (u.word .CLK_RSTCAUSE 0).toNat = Nat.lor 1 h.causesNow % 2 ^ 32) ∧
  (h.boot.heldPor = false → exec (.powerOnReset .within cut) s = .next s) ∧
  (h.boot.heldPor = false → h.boot.heldPin = false → ∃ u nv, exec (.nrstLow cut) s = .next { s with hw := u, nv := nv } ∧
    u.boot.heldPin = true ∧ warm u F.CLK_RSTCAUSE_PIN ∧ nv.flash = s.nv.flash) ∧
  (h.boot.heldPin = true → exec (.nrstLow cut) s = .next s) ∧
  (h.boot.heldPor = true → h.otpOp = none → (h.boot.heldPin = false →
      exec (.nrstLow cut) s = .next (s.withHw { h with boot := { h.boot with heldPin := true } })) ∧
    (h.boot.heldHot = false → exec (.thermalTrip false cut) s = .next (s.withHw { h with boot := { h.boot with heldHot := true } })) ∧
    exec (.thermalTrip true cut) s = .next (s.withHw { h with b := { h.b with therm := true } })) ∧
  (h.boot.heldPor = false → h.boot.heldHot = false → ∃ u nv, exec (.thermalTrip false cut) s = .next { s with hw := u, nv := nv } ∧
    u.boot.heldHot = true ∧ warm u F.CLK_RSTCAUSE_THERMAL) ∧
  (h.boot.heldPor = false → ∃ u, exec (.thermalTrip true cut) s = .next (s.withHw u) ∧ u.b.therm = true ∧ u.b.evaluating = false ∧
    u.fio.cmdM = 0 ∧ u.dev = h.dev) ∧
  exec .nrstRelease s = .next (s.withHw { h with boot := { h.boot with heldPin := false } }) ∧
  exec .thermalRelease s =
    .next (s.withHw { h with boot := { h.boot with heldHot := false }, b := { h.b with therm := false } }) ∧
  (∀ m : Master, s.Awake → h.present m = true → h.tmrSettle.granted m .CLK_RSTREQ 0 = true →
    ∃ u, exec (.resetRequest m) s = .next (s.withHw u) ∧ if h.otpOp.isSome then u.boot.rstWaits = true ∧ u.otpOp = h.otpOp
      else warm u F.CLK_RSTCAUSE_REQ) ∧
  (∃ u, exec (.bdieSupervisor false) s = .next (s.withHw u) ∧ u.b.runs = false ∧ u.on F.XLK_STAT_XLKC_UP 0 = false ∧
    u.toA = [] ∧ u.toB = [] ∧ u.fio.cmdM = 0 ∧ u.dev = h.dev ∧ u.b.verC = none ∧ u.b.verD = none ∧ ∀ n < 16, u.seoB n = false ∧ (u.lane n).late = []) ∧
  (h.b.vsysOk = true → exec (.bdieSupervisor true) s = .next s) ∧
  (h.b.vsysOk = false → exec (.bdieSupervisor true) s = .next (s.withHw
    { h with b := { h.b with vsysOk := true, pllLock := h.b.xbOk, state := bsSelftest } }))

/-- R24, R439, R444, R447 to R449, R456, R464, R467, R471: the start up to firmware, PLL_LOCKED, BOOT_ROM_START and
FIRMWARE_START. With the PLLs locked sensing follows; the boot ROM runs on Pod 0, or Pod 1 where Pod 0 is RETIRED, and
holds with POD_BOOT where both are; it locks the regions that lack only their lock bit and verify, and a WARM reset
follows; a failed KEY or ROT holds the device; XLK_C is trained, and at its first training both dies check its version
word, with an equal version or a hold; firmware comes from the area with the higher version that verifies, sets BOOTLK
and raises the anti-rollback count, and without one the device holds with FW_VERIFY. R47, R437, R438, R446, R457, R464,
R466, R467, R482: the start from firmware to SAFE-READY, DRAM_TRAINING_DONE, CONFIG_LOAD, CONFIG_SETUP_DONE,
STARTUP_TESTS, SAFE_READY, BDIE_SELFTEST_DONE and BDIE_START_TIMEOUT. DRAM is wiped and trained, or the device holds with
DDR; the configuration decides whether the device goes on or is UNCONFIGURED; its set-up locks the configuration
registers; the start-up tests latch the pairs whose readback is wrong; SAFE-READY needs the B-die's self-test and a
digest that it may run, the newest slot's or that of a permitted trial, and takes the device to STARTUP, or TRIAL with a
trial configuration; a B-die whose self-test passes trains XLK_D, whose version word is checked likewise, and one whose
self-test fails or comes late holds the start. Each of these commands completes in every state and changes nothing where
it is not its turn. The package stands in staging whatever its verification says (R464 t7), the boot-record header follows the copies
into the event log (R410, log entry 133), and with XLK_C trained GLB_ID.BSTEP is 0xA2 (R1). What the B-die may evaluate is log entry
109, the order of regions that verify and regions that do not log entry 110, and which version word XLK_STAT shows log entry 117. -/
def Obligations.StartUp : Prop :=
  (∀ s : State, s.Awake →
    let h := s.hw
    (∀ va vb : Fin 65536, (h.boot.phase ≠ .por → exec (.pllLocked va vb) s = .next s) ∧
      (h.boot.phase = .por → ∃ u, exec (.pllLocked va vb) s = .next (s.withHw u) ∧ u.boot.phase = .locked ∧
        u.on F.CLK_STAT_REFCLK_OK 0 = true ∧ u.on F.CLK_STAT_MAIN_LOCK 0 = true ∧ u.get F.CLK_VMON_VSYS 0 = va ∧
        u.b.pllLock = (h.b.vsysOk && h.b.xbOk))) ∧
    (∀ ver low, (h.boot.phase ≠ .sensed → exec (.bootRomStart ver low) s = .next s) ∧
      (h.boot.phase = .sensed → h.podState 0 = podRetired → h.podState 1 = podRetired →
        ∃ u, exec (.bootRomStart ver low) s = .next (s.withHw u) ∧ u.dev = devSafeHold ∧ u.boot.phase = .ended ∧
          u.get F.GLB_STATE_HOLD_CAUSE 0 = (if h.dev = devSafeHold then h.get F.GLB_STATE_HOLD_CAUSE 0 else 8)) ∧
      (h.boot.phase = .sensed → h.noBootPod = false → (∃ r, (r, true) ∈ h.openEnded) →
        ∃ u nv, exec (.bootRomStart ver low) s = .next { s with hw := u, nv := nv } ∧ u.dev = devBoot ∧
          u.on F.CLK_RSTCAUSE_BOOTROM 0 = true ∧
          ∀ r, (r, true) ∈ h.openEnded → ∀ c < 3, nbit (nv.copy c r.lockW) r.lockB = true) ∧
      (h.boot.phase = .sensed → h.noBootPod = false → h.dev = devBoot → h.openEnded = [] → h.b.runs = false →
        h.otp.keyFailed = true ∨ h.otp.rotFailed = true →
        ∃ u nv, exec (.bootRomStart ver low) s = .next { s with hw := u, nv := nv } ∧ u.dev = devSafeHold ∧
          u.get F.GLB_STATE_HOLD_CAUSE 0 = 2 ∧ u.boot.phase = .ended) ∧
      (h.boot.phase = .sensed → h.dev = devBoot → h.podState 0 ≠ podRetired → h.b.runs = true → h.b.verC = none →
        h.otp.keyFailed = false → h.otp.rotFailed = false → h.openEnded = [] → s.nv.flash.life = [] → h.life ≠ lcRetired →
        ∃ u nv, exec (.bootRomStart ver low) s = .next { s with hw := u, nv := nv } ∧ u.boot.phase = .rom ∧
          u.boot.commLow = low ∧ u.podState 0 = podPrimary ∧ u.on F.POD_STAT_VOTE 0 = true ∧ u.on F.XLK_STAT_XLKC_UP 0 = true ∧
          u.get F.GLB_ID_BSTEP 0 = 0xA2 ∧ nv.fuses = s.nv.fuses ∧ u.b.verC = some (ver % 16) ∧
          u.on F.XLK_STAT_VER_OK 0 = decide (ver % 16 = h.get F.GLB_IFVER_XLK 0 ∧ h.b.verD = some (h.get F.GLB_IFVER_XLK 0)) ∧
          if ver % 16 = h.get F.GLB_IFVER_XLK 0 then u.dev = devBoot ∧ nv = s.nv
          else u.dev = devSafeHold ∧ u.get F.GLB_STATE_HOLD_CAUSE 0 = 1 ∧ u.on F.XLK_ERR_VERSION 0 = true)) ∧
    (h.boot.phase ≠ .rom ∨ h.firmwareMayRun = false → exec .firmwareStart s = .next s) ∧
    (h.boot.phase = .rom → h.firmwareMayRun = true →
      let ok (b : List Byte) : Bool := (h.verifyPkg .firmware b).isNone
      (ok s.nv.flash.fw0 = false → ok s.nv.flash.fw1 = false → ∃ u nv, exec .firmwareStart s = .next { s with hw := u, nv := nv } ∧
        u.dev = devSafeHold ∧ (h.dev = devBoot → u.get F.GLB_STATE_HOLD_CAUSE 0 = 3) ∧ u.boot.svcUp = h.boot.svcUp ∧
        u.boot.phase = .ended ∧ nv.fuses = s.nv.fuses) ∧
      (ok s.nv.flash.fw0 = true ∨ ok s.nv.flash.fw1 = true → ∃ u nv a, exec .firmwareStart s = .next { s with hw := u, nv := nv } ∧
        ok (s.nv.flash.fw a) = true ∧ (a = 0 ∨ a = 1) ∧
        (ok (s.nv.flash.fw (1 - a)) = true → pkgVersion (s.nv.flash.fw (1 - a)) ≤ pkgVersion (s.nv.flash.fw a)) ∧
        u.boot.area = a ∧ u.boot.svcUp = true ∧ u.boot.phase = .firmware ∧ u.on F.OTP_CTL_BOOTLK 0 = true ∧ u.dev = h.dev ∧
        u.boot.fwDigest = pkgBodyDig (s.nv.flash.fw a) ∧ (h.dev = devBoot → u.get F.CLK_BOOT_STAGE 0 = 3) ∧
        nv.flash.copied = s.nv.flash.copied ∧ (∀ r ∈ nv.flash.records, nv.flash.copied < r.seq → ∃ i ∈ u.logQ, i.seq = r.seq ∧ i.cls = 2) ∧
        (h.rbkCount < pkgRbk (s.nv.flash.fw a) → h.get F.OTP_REGION_STATE 5 ≠ rsFailed →
          ∀ k < 128, k < pkgRbk (s.nv.flash.fw a) → ∀ c < 3, nbit (nv.copy c (0x04C + k / 32)) (k % 32) = true)))) ∧
  (∀ s : State, s.Awake →
    let h := s.hw
    (∀ ok, h.boot.phase ≠ .firmware → exec (.dramTrained ok) s = .next s) ∧
    (h.boot.phase = .firmware →
      (∃ u, exec (.dramTrained true) s = .next (s.withHw u) ∧ u.dram = [] ∧ u.on F.DDR_STAT_TRAINED 0 = true ∧ u.on F.DDR_STAT_WIPED 0 = true ∧
        u.on F.DDR_STAT_ECC_ON 0 = true ∧ u.dev = h.dev ∧ u.boot.phase = (if h.dev = devBoot then .dram else .ended) ∧
        (h.dev = devBoot → u.get F.CLK_BOOT_STAGE 0 = 4)) ∧
      (∃ u, exec (.dramTrained false) s = .next (s.withHw u) ∧ u.dev = devSafeHold ∧ u.boot.phase = .ended ∧
        (h.dev ≠ devSafeHold → u.get F.GLB_STATE_HOLD_CAUSE 0 = 7) ∧ u.on F.DDR_EVT_TRAIN_FAIL 0 = true ∧
        u.on F.DDR_STAT_TRAINED 0 = h.on F.DDR_STAT_TRAINED 0)) ∧
    (∀ c, h.boot.phase ≠ .dram → exec (.configLoad c) s = .next s) ∧
    (∀ c, h.boot.phase = .dram → ∃ u, exec (.configLoad c) s = .next (s.withHw u) ∧
      let st := h.chosenState s.nv.flash c
      u.dramBytes stagingBase s.nv.flash.cfg.length = s.nv.flash.cfg ∧
      (st = devUnconfigured → u.dev = devUnconfigured ∧ u.boot.phase = .ended ∧ u.b.state = bsUnconfigured) ∧
      (st ≠ devUnconfigured → u.cfg = c ∧ u.b.cfg = c ∧ u.boot.phase = .config ∧ u.boot.trial = decide (st = devTrial) ∧
        u.getBytes .GLB_CFGDIG 8 = pkgBodyDig s.nv.flash.cfg ∧ (h.dev = devBoot → u.get F.CLK_BOOT_STAGE 0 = 5))) ∧
    (∀ w, (h.boot.phase ≠ .config ∨ h.dev ≠ devBoot → exec (.configSetup w) s = .next s) ∧
      (h.boot.phase = .config → h.dev = devBoot → ∃ u, exec (.configSetup w) s = .next (s.withHw u) ∧ u.boot.phase = .setup ∧
        (∀ n < 16, u.on F.LANE_CTL_CFGLK n = true) ∧ u.on F.CHK_CTL_CFGLK 0 = true ∧ u.on F.LDG_CTL_CFGLK 0 = true ∧
        u.on F.SFN_CTL_CFGLK 0 = true ∧ u.on F.TPG_CTL_CFGLK 0 = true ∧ u.on F.SUP_CTL_CFGLK 0 = true ∧ u.on F.NPS_GCTL_CFGLK 0 = true)) ∧
    (∀ fp fm tp, (h.boot.phase ≠ .setup ∨ h.dev ≠ devBoot → exec (.startupTests fp fm tp) s = .next s) ∧
      (h.boot.phase = .setup → h.dev = devBoot → ∃ u, exec (.startupTests fp fm tp) s = .next (s.withHw u) ∧ u.boot.phase = .tested ∧
        (∀ n < 16, nbit h.drivenPairs n = true → nbit fp n = true ∨ nbit fm n = true → (u.so n).state = .latched) ∧
        ∀ j < 16, nbit tp j = true → h.on F.TP_CFG_EN j = true → u.on F.TP_FLT_SRC_LOW j = true)) ∧
    (let may := h.b.digValid = true ∧ (h.b.cfgOk = true ∨ (h.life = lcDevelopment ∧ h.crit 5 = true));
      (h.boot.phase ≠ .tested ∨ h.dev ≠ devBoot ∨ h.b.selftestOk = false ∨ ¬ may → exec .safeReady s = .next s) ∧
      (h.boot.phase = .tested → h.dev = devBoot → h.b.selftestOk = true → may → ∃ u, exec .safeReady s = .next (s.withHw u) ∧
        u.dev = (if h.boot.trial then devTrial else devStartup) ∧ u.boot.phase = .ended ∧ u.boot.ready = true ∧
        (h.b.therm = false → u.b.evaluating = true ∧ u.b.state = (if h.b.cfgOk then bsEval else bsTrial)) ∧
        (h.b.therm = true → u.b.evaluating = h.b.evaluating ∧ u.b.state = h.b.state))) ∧
    (∀ ok ver, h.b.state ≠ bsSelftest → exec (.bdieSelftest ⟨ok, ver⟩) s = .next s) ∧
    (h.b.state = bsSelftest → h.dev = devBoot →
      (∀ ver, ∃ u nv, exec (.bdieSelftest ⟨true, ver⟩) s = .next { s with hw := u, nv := nv } ∧ u.b.selftestOk = true ∧
        u.on F.XLK_STAT_XLKD_UP 0 = true ∧
        (h.b.verD ≠ none ∨ ver % 16 = h.get F.GLB_IFVER_XLK 0 → u.dev = devBoot ∧ u.b.state = bsWaitCfg ∧ nv = s.nv) ∧
        (h.b.verD = none → u.b.verD = some (ver % 16) ∧
          (ver % 16 ≠ h.get F.GLB_IFVER_XLK 0 → u.dev = devSafeHold ∧ u.get F.GLB_STATE_HOLD_CAUSE 0 = 1 ∧
            u.on F.XLK_ERR_VERSION 0 = true ∧ nv.fuses = s.nv.fuses))) ∧
      ∀ ver, ∃ u nv, exec (.bdieSelftest ⟨false, ver⟩) s = .next { s with hw := u, nv := nv } ∧ u.b.selftestOk = false ∧ u.dev = devSafeHold ∧
        u.get F.GLB_STATE_HOLD_CAUSE 0 = 5) ∧
    (h.bLate = false → exec .bdieStartTimeout s = .next s) ∧
    (h.bLate = true → ∃ u nv, exec .bdieStartTimeout s = .next { s with hw := u, nv := nv } ∧ u.dev = devSafeHold ∧
      u.get F.GLB_STATE_HOLD_CAUSE 0 = 5))

/-- R477 to R481, R483: clocks, supply and temperature, REFCLK_LOSS, PLL_SER_LOSS, PLL_DDR_LOSS, PLL_DDR_RELOCK, XB_LOSS,
CLOCK_CHECK_WINDOW, CLK_GATE_WRITE, VSYS_WARN, THERMAL_WARN and THERMAL_WARN_REARM, each of which completes; and R488: the lands of the boot flash, of Ethernet and of the console. The loss of
REFCLK or PLL_MAIN, or a second clock window in a row outside its limits, holds the device with the cause CLOCK; without
XLK_C or the B-die no window is judged; a quad whose PLL fails loses block lock on its lanes; the DRAM PLL can relock; XB
holds the B-die off; CLK_GATE keeps DOSE after activation and a quad with an enabled lane, before activation as after it and with the
whole QUAD field of the write (log entry 78); low supply and temperature set
their flag, the latter once until every sensor is 5 K below WARN. In BOOT the Ethernet PHY is in reset, UART_TX and JTAG_TDO are pulled
up and octal SPI is driven from the boot ROM on; in SAFE_HOLD octal SPI idles and the PHY stays in reset without firmware; in every
other state these lands are driven. -/
def Obligations.ClocksAndMonitors : Prop := ∀ s : State, s.Awake →
  let h := s.hw
  (h.dev = devBoot → h.ethRst = .low ∧ h.ethLands = .highZ ∧ h.consoleLands = .pullUp ∧
    h.ospiLands = if h.boot.phase = .por ∨ h.boot.phase = .locked ∨ h.boot.phase = .sensed then .highZ else .driven) ∧
  (h.dev ≠ devBoot → h.ethLands = .driven ∧ h.consoleLands = .driven ∧
    if h.dev = devSafeHold ∧ h.boot.svcUp = false then h.ethRst = .low ∧ h.ospiLands = .idle
    else h.ethRst = .driven ∧ h.ospiLands = .driven) ∧
  (∀ pll, ∃ u nv, exec (.refclkLoss pll) s = .next { s with hw := u, nv := nv } ∧ u.dev = devSafeHold ∧
    (h.dev ≠ devSafeHold → u.get F.GLB_STATE_HOLD_CAUSE 0 = 6 ∧ u.fio.cmdP = 0 ∧ u.fio.cmdM = 0) ∧
    (h.dev = devSafeHold → nv = s.nv ∧ u.get F.GLB_STATE_HOLD_CAUSE 0 = h.get F.GLB_STATE_HOLD_CAUSE 0) ∧
    (if pll then u.on F.CLK_STAT_MAIN_LOCK 0 = false ∧ u.on F.CLK_EVT_MAIN_LOL 0 = true
      else u.on F.CLK_STAT_REFCLK_OK 0 = false ∧ u.on F.CLK_EVT_REFCLK 0 = true) ∧ u.bitOf F.EVT_PEND_PEND 3 31 = true) ∧
  (∀ quad : Fin 4, ∃ u, exec (.pllSerLoss quad) s = .next (s.withHw u) ∧ u.on F.CLK_STAT_SER_LOCK 0 = false ∧
    u.on F.CLK_EVT_SER_LOL 0 = true ∧
    ∀ n < 16, ∀ d, u.on (lockFld d) n = (h.on (lockFld d) n && !decide (n / 4 = quad.val)) ∧
      (n / 4 = quad.val → h.on (lockFld d) n = true → laneLive (h.laneState n d) = true → u.laneState n d = laneTraining)) ∧
  (∃ u, exec .pllDdrLoss s = .next (s.withHw u) ∧ u.on F.CLK_STAT_DDR_LOCK 0 = false ∧ u.on F.CLK_EVT_DDR_LOL 0 = true) ∧
  exec .pllDdrRelock s = .next (s.withHw (h.setB F.CLK_STAT_DDR_LOCK 0 true)) ∧
  (∀ pll, ∃ u, exec (.xbLoss pll) s = .next (s.withHw u) ∧ u.b.pllLock = false ∧ u.b.xbOk = (pll && h.b.xbOk) ∧ u.b.runs = false ∧
    u.b.evaluating = false ∧ u.fio.cmdM = 0) ∧
  (∀ a b, h.on F.XLK_STAT_XLKC_UP 0 = false ∨ h.b.runs = false → exec (.clockWindow a b) s = .next s) ∧
  (∀ a b, h.on F.XLK_STAT_XLKC_UP 0 = true → h.b.runs = true →
    let okA := decide (98000 ≤ a ∧ a ≤ 102000)
    let okB := decide (196000 ≤ b ∧ b ≤ 204000)
    let fault : Bool := (!okA && decide (h.get F.CLK_XMON_AFAIL 0 = 1)) || (!okB && decide (h.get F.CLK_XMON_BFAIL 0 = 1))
    ∃ u nv, exec (.clockWindow a b) s = .next { s with hw := u, nv := nv } ∧ u.on F.CLK_STAT_XMON_OK 0 = (okA && okB) ∧
      u.get F.CLK_XMON_AFAIL 0 = (if okA then 0 else min (h.get F.CLK_XMON_AFAIL 0 + 1) 2) ∧
      u.get F.CLK_XMON_BFAIL 0 = (if okB then 0 else min (h.get F.CLK_XMON_BFAIL 0 + 1) 2) ∧
      (fault = false → u.dev = h.dev ∧ nv = s.nv) ∧
      (fault = true → h.dev ≠ devSafeHold → u.dev = devSafeHold ∧ u.get F.GLB_STATE_HOLD_CAUSE 0 = 6 ∧ u.bitOf F.EVT_PEND_PEND 1 13 = true)) ∧
  (∀ (m : Master) (v : Word), h.present m = true → let h := h.tmrSettle; h.granted m .CLK_GATE 0 = true →
    let busy (q : Nat) : Bool := h.bitOf F.CLK_GATE_QUAD 0 q && !wbit v (q + 1) && (List.range 4).any fun k => h.on F.LANE_CTL_EN (4 * q + k)
    ∃ u, exec (.clkGateWrite m v) s = .next (s.withHw u) ∧
      u.get F.CLK_GATE_QUAD 0 = (if (List.range 4).any busy then h.get F.CLK_GATE_QUAD 0 else nfield v.toNat 1 4) ∧
      u.on F.CLK_GATE_DOSE 0 = (if h.on F.CHK_STAT_ACTIVE 0 = true ∧ wbit v 0 = false then h.on F.CLK_GATE_DOSE 0 else wbit v 0)) ∧
  (∀ mv : Fin 65536, (∃ u, exec (.vsysWarn false mv) s = .next (s.withHw u) ∧ u.on F.CLK_STAT_VSYS_OK 0 = false ∧
      u.get F.CLK_VMON_VSYS 0 = mv ∧ u.on F.CLK_EVT_VSYS_WARN 0 = true) ∧
    ∃ u, exec (.vsysWarn true mv) s = .next (s.withHw u) ∧ u.b.vsysWarn = true ∧ u.b.vsysMv = mv ∧ u.on F.CLK_EVT_VSYSB_WARN 0 = true) ∧
  (∀ (k : Fin 7) (t : Int), -32768 ≤ t → t < 32768 → ∃ u, exec (.thermalWarn k t) s = .next (s.withHw u) ∧ u.temp k = t ∧
    (16 * (h.get F.CLK_THCFG_WARN 0 : Int) ≤ t → u.boot.thermFired = true ∧ (h.boot.thermFired = false → u.on F.CLK_EVT_THERM_WARN 0 = true)) ∧
    (h.boot.thermFired = true → u.on F.CLK_EVT_THERM_WARN 0 = h.on F.CLK_EVT_THERM_WARN 0)) ∧
  (∀ ts : List Int, ts.length = 7 → (∀ t ∈ ts, -32768 ≤ t ∧ t < 32768) → ∃ u, exec (.thermalRearm ts) s = .next (s.withHw u) ∧
    u.boot.thermFired = (h.boot.thermFired && !ts.all fun t => decide (t ≤ 16 * (h.get F.CLK_THCFG_WARN 0 : Int) - 80)))
end

