-- ==== Sys2Proof/Laws/Store.lean ====
section
/-! SUPPORT. The laws of sparse stores: reading after writing, and that every operation keeps the canonical form. -/

namespace Sys2Proof.Machine

variable {V : Type} {d : Nat → V}

theorem Store.get_erase_same (m : Store V) (k : Nat) : (m.erase k).get d k = d k := by
  induction m with
  | nil => rfl
  | cons p m ih =>
    obtain ⟨j, v⟩ := p
    by_cases h : j = k <;> simp [Store.erase, Store.get, h, ih]

theorem Store.get_erase_other (m : Store V) {k j : Nat} (h : j ≠ k) : (m.erase k).get d j = m.get d j := by
  induction m with
  | nil => rfl
  | cons p m ih =>
    obtain ⟨i, v⟩ := p
    by_cases hk : i = k
    · subst hk; simp [Store.erase, Store.get, ih, Ne.symm h]
    · simp [Store.erase, Store.get, hk, ih]

theorem Store.get_insert_same (m : Store V) (k : Nat) (v : V) : (m.insert k v).get d k = v := by
  induction m with
  | nil => simp [Store.insert, Store.get]
  | cons p m ih =>
    obtain ⟨j, w⟩ := p
    simp only [Store.insert]
    split
    · next h => simp [Store.get, Nat.ne_of_lt h, ih]
    · split <;> simp [Store.get]

theorem Store.get_insert_other (m : Store V) {k j : Nat} (v : V) (h : j ≠ k) :
    (m.insert k v).get d j = m.get d j := by
  induction m with
  | nil => simp [Store.insert, Store.get, Ne.symm h]
  | cons p m ih =>
    obtain ⟨i, w⟩ := p
    simp only [Store.insert]
    split
    · simp [Store.get, ih]
    · split
      · next h2 => simp [Store.get, Ne.symm h, h2]
      · simp [Store.get, Ne.symm h]

/-- Reading after a write: the written key reads as the value, every other key as before. -/
theorem Store.get_put [DecidableEq V] (m : Store V) (k j : Nat) (v : V) :
    (m.put d k v).get d j = if j = k then v else m.get d j := by
  unfold Store.put
  split
  · next hv =>
    split
    · next h => rw [h, Store.get_erase_same, hv]
    · next h => exact Store.get_erase_other m h
  · split
    · next h => rw [h, Store.get_insert_same]
    · next h => exact Store.get_insert_other m v h

@[simp] theorem Store.get_put_same [DecidableEq V] (m : Store V) (k : Nat) (v : V) : (m.put d k v).get d k = v := by
  simp [Store.get_put]

theorem Store.get_put_other [DecidableEq V] (m : Store V) {k j : Nat} (v : V) (h : j ≠ k) :
    (m.put d k v).get d j = m.get d j := by simp [Store.get_put, h]

@[simp] theorem Store.get_upd_same [DecidableEq V] (m : Store V) (k : Nat) (f : V → V) :
    (m.upd d k f).get d k = f (m.get d k) := by simp [Store.upd]

theorem Store.get_upd_other [DecidableEq V] (m : Store V) {k j : Nat} (f : V → V) (h : j ≠ k) :
    (m.upd d k f).get d j = m.get d j := by simp [Store.upd, Store.get_put, h]

/-! ### The canonical form -/

theorem Store.sortedFrom_weaken {m : Store V} {a : Nat} {lo : Option Nat} (h : Store.sortedFrom (some a) m)
    (hl : ∀ l, lo = some l → l ≤ a) : Store.sortedFrom lo m := by
  cases m with
  | nil => rfl
  | cons p m =>
    obtain ⟨j, v⟩ := p
    cases lo with
    | none => simp_all [Store.sortedFrom]
    | some l =>
      have := hl l rfl
      simp [Store.sortedFrom] at h ⊢
      exact ⟨by omega, h.2⟩

theorem Store.sortedFrom_insert {m : Store V} {lo : Option Nat} {k : Nat} (v : V) (h : Store.sortedFrom lo m)
    (hk : ∀ l, lo = some l → l < k) : Store.sortedFrom lo (m.insert k v) := by
  induction m generalizing lo with
  | nil => cases lo <;> simp_all [Store.insert, Store.sortedFrom]
  | cons p m ih =>
    obtain ⟨j, w⟩ := p
    simp only [Store.sortedFrom, Bool.and_eq_true] at h
    simp only [Store.insert]
    split
    · next hj =>
      simp only [Store.sortedFrom, Bool.and_eq_true]
      exact ⟨h.1, ih h.2 (by intro l hl; cases hl; exact hj)⟩
    · split
      · next hj =>
        subst hj
        simp only [Store.sortedFrom, Bool.and_eq_true]
        exact h
      · next h1 h2 =>
        simp only [Store.sortedFrom, Bool.and_eq_true]
        refine ⟨?_, by simp; omega, h.2⟩
        cases lo with
        | none => rfl
        | some l => simpa using hk l rfl

theorem Store.sortedFrom_erase {m : Store V} {lo : Option Nat} {k : Nat} (h : Store.sortedFrom lo m) :
    Store.sortedFrom lo (m.erase k) := by
  induction m generalizing lo with
  | nil => exact h
  | cons p m ih =>
    obtain ⟨j, w⟩ := p
    simp only [Store.sortedFrom, Bool.and_eq_true] at h
    simp only [Store.erase]
    split
    · refine Store.sortedFrom_weaken (a := j) (ih h.2) ?_
      intro l hl
      subst hl
      have := h.1
      simp at this
      omega
    · simp only [Store.sortedFrom, Bool.and_eq_true]
      exact ⟨h.1, ih h.2⟩

theorem Store.mem_erase {m : Store V} {k : Nat} {p : Nat × V} (h : p ∈ m.erase k) : p ∈ m := by
  induction m with
  | nil => exact h
  | cons q m ih =>
    obtain ⟨j, w⟩ := q
    simp only [Store.erase] at h
    split at h
    · exact List.mem_cons_of_mem _ (ih h)
    · rcases List.mem_cons.1 h with h | h
      · exact h ▸ List.mem_cons_self
      · exact List.mem_cons_of_mem _ (ih h)

theorem Store.mem_insert {m : Store V} {k : Nat} {v : V} {p : Nat × V} (h : p ∈ m.insert k v) : p = (k, v) ∨ p ∈ m := by
  induction m with
  | nil => simpa [Store.insert] using h
  | cons q m ih =>
    obtain ⟨j, w⟩ := q
    simp only [Store.insert] at h
    split at h
    · rcases List.mem_cons.1 h with h | h
      · exact .inr (h ▸ List.mem_cons_self)
      · exact (ih h).imp_right (List.mem_cons_of_mem _)
    · split at h
      · rcases List.mem_cons.1 h with h | h
        · exact .inl h
        · exact .inr (List.mem_cons_of_mem _ h)
      · rcases List.mem_cons.1 h with h | h
        · exact .inl h
        · exact .inr h

/-- A write keeps the canonical form. -/
theorem Store.wf_put [DecidableEq V] {m : Store V} (h : m.wf d) (k : Nat) (v : V) : (m.put d k v).wf d := by
  simp only [Store.wf, Bool.and_eq_true, List.all_eq_true, decide_eq_true_eq] at h ⊢
  unfold Store.put
  split
  · exact ⟨Store.sortedFrom_erase h.1, fun p hp => h.2 p (Store.mem_erase hp)⟩
  · next hv =>
    refine ⟨Store.sortedFrom_insert v h.1 (by simp), fun p hp => ?_⟩
    rcases Store.mem_insert hp with rfl | hp
    · exact hv
    · exact h.2 p hp

theorem Store.wf_nil [DecidableEq V] : Store.wf d ([] : Store V) := by rfl

theorem Store.wf_upd [DecidableEq V] {m : Store V} (h : m.wf d) (k : Nat) (f : V → V) : (m.upd d k f).wf d :=
  Store.wf_put h k _

theorem Store.wf_putList [DecidableEq V] {m : Store V} (h : m.wf d) (k : Nat) (vs : List V) : (m.putList d k vs).wf d := by
  induction vs generalizing m k with
  | nil => exact h
  | cons v vs ih => exact ih (Store.wf_put h k v) (k + 1)

theorem Store.wf_ofFn [DecidableEq V] (base : Nat) (f : Nat → V) (n : Nat) : (Store.ofFn d base f n).wf d := by
  induction n with
  | zero => rfl
  | succ n ih => exact Store.wf_put ih _ _

end Sys2Proof.Machine
end

