-- ==== Sys2Proof/Laws/State.lean ====
section
/-! SUPPORT. The laws of registers and fields: what a read gives after a write. -/

namespace Sys2Proof.Machine

theorem Reg.idx_lt (r : Reg) : r.idx < 512 := by cases r <;> decide

theorem Reg.idx_inj {r q : Reg} (h : r.idx = q.idx) : r = q := by
  have := congrArg (fun n => Reg.ofNat n) h
  simpa [Reg.idx, Reg.ofNat_ctorIdx] using this

theorem Reg.key_inj {r q : Reg} {n m : Nat} : r.key n = q.key m ↔ r = q ∧ n = m := by
  constructor
  · intro h
    have h1 := r.idx_lt
    have h2 := q.idx_lt
    unfold Reg.key at h
    exact ⟨Reg.idx_inj (by omega), by omega⟩
  · rintro ⟨rfl, rfl⟩; rfl

@[simp] theorem Hw.word_putWord_same (h : Hw) (r : Reg) (n : Nat) (v : Word) : (h.putWord r n v).word r n = v :=
  Store.get_put_same _ _ _

theorem Hw.word_putWord_reg (h : Hw) {r q : Reg} (n m : Nat) (v : Word) (hr : r ≠ q) :
    (h.putWord r n v).word q m = h.word q m :=
  Store.get_put_other _ _ fun e => hr (Reg.key_inj.1 e).1.symm

theorem Hw.word_putWord_idx (h : Hw) (r : Reg) {n m : Nat} (v : Word) (hn : n ≠ m) :
    (h.putWord r n v).word r m = h.word r m :=
  Store.get_put_other _ _ fun e => hn (Reg.key_inj.1 e).2.symm

/-! ### Fields -/

theorem putBits_same (x : Word) (lo w v : Nat) (hf : lo + w ≤ 32) :
    ((putBits x lo w v).extractLsb' lo w).toNat = v % 2 ^ w := by
  have : (putBits x lo w v).extractLsb' lo w = BitVec.ofNat w v := by
    ext k hk
    have h1 : lo + k < 32 := by omega
    have h2 : ¬(lo + k < lo) := by omega
    simp [putBits, hk, h1, h2, BitVec.getLsbD_eq_getElem]
  simp [this]

theorem putBits_other (x : Word) (lo w v lo' w' : Nat) (hd : lo + w ≤ lo' ∨ lo' + w' ≤ lo) :
    (putBits x lo w v).extractLsb' lo' w' = x.extractLsb' lo' w' := by
  ext k hk
  by_cases h1 : lo' + k < 32
  · by_cases h2 : lo' + k < lo
    · simp [putBits, h1, h2]
    · have h3 : ¬(lo' + k - lo < w) := by omega
      simp [putBits, h1, h2, BitVec.getLsbD_of_ge _ _ (Nat.le_of_not_lt h3)]
  · simp [BitVec.getLsbD_of_ge _ _ (Nat.le_of_not_lt h1)]

theorem Hw.get_set_same (h : Hw) (f : Fld) (n v : Nat) (hf : f.lo + f.w ≤ 32) :
    (h.set f n v).get f n = v % 2 ^ f.w := by
  simp [Hw.get, Hw.set, putBits_same _ _ _ _ hf]

theorem Hw.get_set_reg (h : Hw) {f g : Fld} (n m v : Nat) (hr : f.reg ≠ g.reg) : (h.set f n v).get g m = h.get g m := by
  simp [Hw.get, Hw.set, Hw.word_putWord_reg _ _ _ _ hr]

theorem Hw.get_set_idx (h : Hw) {f g : Fld} {n m : Nat} (v : Nat) (hn : n ≠ m) : (h.set f n v).get g m = h.get g m := by
  by_cases hr : f.reg = g.reg
  · simp only [Hw.get, Hw.set, ← hr, Hw.word_putWord_idx _ _ _ hn]
  · exact Hw.get_set_reg h n m v hr

theorem Hw.get_set_field (h : Hw) {f g : Fld} (n m v : Nat) (hd : f.lo + f.w ≤ g.lo ∨ g.lo + g.w ≤ f.lo) :
    (h.set f n v).get g m = h.get g m := by
  by_cases hr : f.reg = g.reg
  · by_cases hn : n = m
    · subst hn
      simp only [Hw.get, Hw.set, ← hr, Hw.word_putWord_same]
      rw [putBits_other _ _ _ _ _ _ hd]
    · exact Hw.get_set_idx h v hn
  · exact Hw.get_set_reg h n m v hr

/-! ### What a field write leaves unchanged: everything but the registers -/

@[simp] theorem Hw.set_time (h : Hw) (f : Fld) (n v : Nat) : (h.set f n v).time = h.time := rfl
@[simp] theorem Hw.set_base (h : Hw) (f : Fld) (n v : Nat) : (h.set f n v).base = h.base := rfl
@[simp] theorem Hw.set_draws (h : Hw) (f : Fld) (n v : Nat) : (h.set f n v).draws = h.draws := rfl
@[simp] theorem Hw.set_images (h : Hw) (f : Fld) (n v : Nat) : (h.set f n v).images = h.images := rfl
@[simp] theorem Hw.set_msixQ (h : Hw) (f : Fld) (n v : Nat) : (h.set f n v).msixQ = h.msixQ := rfl
@[simp] theorem Hw.set_logQ (h : Hw) (f : Fld) (n v : Nat) : (h.set f n v).logQ = h.logQ := rfl
@[simp] theorem Hw.set_out (h : Hw) (f : Fld) (n v : Nat) : (h.set f n v).out = h.out := rfl
@[simp] theorem Hw.set_lanes (h : Hw) (f : Fld) (n v : Nat) : (h.set f n v).lanes = h.lanes := rfl
@[simp] theorem Hw.set_pool (h : Hw) (f : Fld) (n v : Nat) : (h.set f n v).pool = h.pool := rfl
@[simp] theorem Hw.set_env (h : Hw) (f : Fld) (n v : Nat) : (h.set f n v).env = h.env := rfl
@[simp] theorem Hw.set_envRes (h : Hw) (f : Fld) (n v : Nat) : (h.set f n v).envRes = h.envRes := rfl
@[simp] theorem Hw.set_ledger (h : Hw) (f : Fld) (n v : Nat) : (h.set f n v).ledger = h.ledger := rfl
@[simp] theorem Hw.set_dram (h : Hw) (f : Fld) (n v : Nat) : (h.set f n v).dram = h.dram := rfl
@[simp] theorem Hw.set_xlkD (h : Hw) (f : Fld) (n v : Nat) : (h.set f n v).xlkD = h.xlkD := rfl
@[simp] theorem Hw.set_toB (h : Hw) (f : Fld) (n v : Nat) : (h.set f n v).toB = h.toB := rfl
@[simp] theorem Hw.set_toA (h : Hw) (f : Fld) (n v : Nat) : (h.set f n v).toA = h.toA := rfl
@[simp] theorem Hw.set_cfg (h : Hw) (f : Fld) (n v : Nat) : (h.set f n v).cfg = h.cfg := rfl
@[simp] theorem Hw.set_b (h : Hw) (f : Fld) (n v : Nat) : (h.set f n v).b = h.b := rfl
@[simp] theorem Hw.set_fio (h : Hw) (f : Fld) (n v : Nat) : (h.set f n v).fio = h.fio := rfl
@[simp] theorem Hw.set_applied (h : Hw) (f : Fld) (n v : Nat) : (h.set f n v).applied = h.applied := rfl
@[simp] theorem Hw.set_evA (h : Hw) (f : Fld) (n v : Nat) : (h.set f n v).evA = h.evA := rfl
@[simp] theorem Hw.set_evB (h : Hw) (f : Fld) (n v : Nat) : (h.set f n v).evB = h.evB := rfl
@[simp] theorem Hw.set_pods (h : Hw) (f : Fld) (n v : Nat) : (h.set f n v).pods = h.pods := rfl
@[simp] theorem Hw.set_priv (h : Hw) (f : Fld) (n v : Nat) : (h.set f n v).priv = h.priv := rfl
@[simp] theorem Hw.set_nps (h : Hw) (f : Fld) (n v : Nat) : (h.set f n v).nps = h.nps := rfl
@[simp] theorem Hw.set_tmr (h : Hw) (f : Fld) (n v : Nat) : (h.set f n v).tmr = h.tmr := rfl
@[simp] theorem Hw.set_crcRead (h : Hw) (f : Fld) (n v : Nat) : (h.set f n v).crcRead = h.crcRead := rfl
@[simp] theorem Hw.set_msixTbl (h : Hw) (f : Fld) (n v : Nat) : (h.set f n v).msixTbl = h.msixTbl := rfl
@[simp] theorem Hw.set_msixPba (h : Hw) (f : Fld) (n v : Nat) : (h.set f n v).msixPba = h.msixPba := rfl
@[simp] theorem Hw.set_queues (h : Hw) (f : Fld) (n v : Nat) : (h.set f n v).queues = h.queues := rfl
@[simp] theorem Hw.set_ncp (h : Hw) (f : Fld) (n v : Nat) : (h.set f n v).ncp = h.ncp := rfl
@[simp] theorem Hw.set_boot (h : Hw) (f : Fld) (n v : Nat) : (h.set f n v).boot = h.boot := rfl
@[simp] theorem Hw.set_otp (h : Hw) (f : Fld) (n v : Nat) : (h.set f n v).otp = h.otp := rfl
@[simp] theorem Hw.set_otpOp (h : Hw) (f : Fld) (n v : Nat) : (h.set f n v).otpOp = h.otpOp := rfl
@[simp] theorem Hw.set_secOp (h : Hw) (f : Fld) (n v : Nat) : (h.set f n v).secOp = h.secOp := rfl
@[simp] theorem Hw.set_logNext (h : Hw) (f : Fld) (n v : Nat) : (h.set f n v).logNext = h.logNext := rfl
@[simp] theorem Hw.set_logLost (h : Hw) (f : Fld) (n v : Nat) : (h.set f n v).logLost = h.logLost := rfl
@[simp] theorem Hw.set_bus (h : Hw) (f : Fld) (n v : Nat) : (h.set f n v).bus = h.bus := rfl
@[simp] theorem Hw.set_resp (h : Hw) (f : Fld) (n v : Nat) : (h.set f n v).resp = h.resp := rfl
@[simp] theorem Hw.set_pulses (h : Hw) (f : Fld) (n v : Nat) : (h.set f n v).pulses = h.pulses := rfl
@[simp] theorem Hw.set_idKey (h : Hw) (f : Fld) (n v : Nat) : (h.set f n v).idKey = h.idKey := rfl

@[simp] theorem Hw.putWord_time (h : Hw) (r : Reg) (n : Nat) (v : Word) : (h.putWord r n v).time = h.time := rfl
@[simp] theorem Hw.putWord_base (h : Hw) (r : Reg) (n : Nat) (v : Word) : (h.putWord r n v).base = h.base := rfl
@[simp] theorem Hw.putWord_draws (h : Hw) (r : Reg) (n : Nat) (v : Word) : (h.putWord r n v).draws = h.draws := rfl
@[simp] theorem Hw.putWord_images (h : Hw) (r : Reg) (n : Nat) (v : Word) : (h.putWord r n v).images = h.images := rfl
@[simp] theorem Hw.putWord_msixQ (h : Hw) (r : Reg) (n : Nat) (v : Word) : (h.putWord r n v).msixQ = h.msixQ := rfl
@[simp] theorem Hw.putWord_logQ (h : Hw) (r : Reg) (n : Nat) (v : Word) : (h.putWord r n v).logQ = h.logQ := rfl
@[simp] theorem Hw.putWord_out (h : Hw) (r : Reg) (n : Nat) (v : Word) : (h.putWord r n v).out = h.out := rfl
@[simp] theorem Hw.putWord_lanes (h : Hw) (r : Reg) (n : Nat) (v : Word) : (h.putWord r n v).lanes = h.lanes := rfl
@[simp] theorem Hw.putWord_pool (h : Hw) (r : Reg) (n : Nat) (v : Word) : (h.putWord r n v).pool = h.pool := rfl
@[simp] theorem Hw.putWord_env (h : Hw) (r : Reg) (n : Nat) (v : Word) : (h.putWord r n v).env = h.env := rfl
@[simp] theorem Hw.putWord_envRes (h : Hw) (r : Reg) (n : Nat) (v : Word) : (h.putWord r n v).envRes = h.envRes := rfl
@[simp] theorem Hw.putWord_ledger (h : Hw) (r : Reg) (n : Nat) (v : Word) : (h.putWord r n v).ledger = h.ledger := rfl
@[simp] theorem Hw.putWord_dram (h : Hw) (r : Reg) (n : Nat) (v : Word) : (h.putWord r n v).dram = h.dram := rfl
@[simp] theorem Hw.putWord_xlkD (h : Hw) (r : Reg) (n : Nat) (v : Word) : (h.putWord r n v).xlkD = h.xlkD := rfl
@[simp] theorem Hw.putWord_toB (h : Hw) (r : Reg) (n : Nat) (v : Word) : (h.putWord r n v).toB = h.toB := rfl
@[simp] theorem Hw.putWord_toA (h : Hw) (r : Reg) (n : Nat) (v : Word) : (h.putWord r n v).toA = h.toA := rfl
@[simp] theorem Hw.putWord_cfg (h : Hw) (r : Reg) (n : Nat) (v : Word) : (h.putWord r n v).cfg = h.cfg := rfl
@[simp] theorem Hw.putWord_b (h : Hw) (r : Reg) (n : Nat) (v : Word) : (h.putWord r n v).b = h.b := rfl
@[simp] theorem Hw.putWord_fio (h : Hw) (r : Reg) (n : Nat) (v : Word) : (h.putWord r n v).fio = h.fio := rfl
@[simp] theorem Hw.putWord_applied (h : Hw) (r : Reg) (n : Nat) (v : Word) : (h.putWord r n v).applied = h.applied := rfl
@[simp] theorem Hw.putWord_evA (h : Hw) (r : Reg) (n : Nat) (v : Word) : (h.putWord r n v).evA = h.evA := rfl
@[simp] theorem Hw.putWord_evB (h : Hw) (r : Reg) (n : Nat) (v : Word) : (h.putWord r n v).evB = h.evB := rfl
@[simp] theorem Hw.putWord_pods (h : Hw) (r : Reg) (n : Nat) (v : Word) : (h.putWord r n v).pods = h.pods := rfl
@[simp] theorem Hw.putWord_priv (h : Hw) (r : Reg) (n : Nat) (v : Word) : (h.putWord r n v).priv = h.priv := rfl
@[simp] theorem Hw.putWord_nps (h : Hw) (r : Reg) (n : Nat) (v : Word) : (h.putWord r n v).nps = h.nps := rfl
@[simp] theorem Hw.putWord_tmr (h : Hw) (r : Reg) (n : Nat) (v : Word) : (h.putWord r n v).tmr = h.tmr := rfl
@[simp] theorem Hw.putWord_crcRead (h : Hw) (r : Reg) (n : Nat) (v : Word) : (h.putWord r n v).crcRead = h.crcRead := rfl
@[simp] theorem Hw.putWord_msixTbl (h : Hw) (r : Reg) (n : Nat) (v : Word) : (h.putWord r n v).msixTbl = h.msixTbl := rfl
@[simp] theorem Hw.putWord_msixPba (h : Hw) (r : Reg) (n : Nat) (v : Word) : (h.putWord r n v).msixPba = h.msixPba := rfl
@[simp] theorem Hw.putWord_queues (h : Hw) (r : Reg) (n : Nat) (v : Word) : (h.putWord r n v).queues = h.queues := rfl
@[simp] theorem Hw.putWord_ncp (h : Hw) (r : Reg) (n : Nat) (v : Word) : (h.putWord r n v).ncp = h.ncp := rfl
@[simp] theorem Hw.putWord_boot (h : Hw) (r : Reg) (n : Nat) (v : Word) : (h.putWord r n v).boot = h.boot := rfl
@[simp] theorem Hw.putWord_otp (h : Hw) (r : Reg) (n : Nat) (v : Word) : (h.putWord r n v).otp = h.otp := rfl
@[simp] theorem Hw.putWord_otpOp (h : Hw) (r : Reg) (n : Nat) (v : Word) : (h.putWord r n v).otpOp = h.otpOp := rfl
@[simp] theorem Hw.putWord_secOp (h : Hw) (r : Reg) (n : Nat) (v : Word) : (h.putWord r n v).secOp = h.secOp := rfl
@[simp] theorem Hw.putWord_logNext (h : Hw) (r : Reg) (n : Nat) (v : Word) : (h.putWord r n v).logNext = h.logNext := rfl
@[simp] theorem Hw.putWord_logLost (h : Hw) (r : Reg) (n : Nat) (v : Word) : (h.putWord r n v).logLost = h.logLost := rfl
@[simp] theorem Hw.putWord_bus (h : Hw) (r : Reg) (n : Nat) (v : Word) : (h.putWord r n v).bus = h.bus := rfl
@[simp] theorem Hw.putWord_resp (h : Hw) (r : Reg) (n : Nat) (v : Word) : (h.putWord r n v).resp = h.resp := rfl
@[simp] theorem Hw.putWord_pulses (h : Hw) (r : Reg) (n : Nat) (v : Word) : (h.putWord r n v).pulses = h.pulses := rfl
@[simp] theorem Hw.putWord_idKey (h : Hw) (r : Reg) (n : Nat) (v : Word) : (h.putWord r n v).idKey = h.idKey := rfl

end Sys2Proof.Machine
end

