-- ==== Sys2Proof/Laws/Ops.lean ====
section
/-! SUPPORT. What the named operations over the hardware leave unchanged, and what they write. -/

namespace Sys2Proof.Machine

/-! ### Words and fields after a field write -/

theorem Hw.word_set_reg (h : Hw) {f : Fld} {r : Reg} (n m v : Nat) (hr : f.reg ≠ r) : (h.set f n v).word r m = h.word r m :=
  Hw.word_putWord_reg _ _ _ _ hr

theorem Hw.word_set_idx (h : Hw) {f : Fld} {r : Reg} {n m : Nat} (v : Nat) (hn : n ≠ m) :
    (h.set f n v).word r m = h.word r m := by
  by_cases hr : f.reg = r
  · subst hr; exact Hw.word_putWord_idx _ _ _ hn
  · exact Hw.word_set_reg h n m v hr

theorem Hw.word_set_same (h : Hw) (f : Fld) (n v : Nat) :
    (h.set f n v).word f.reg n = putBits (h.word f.reg n) f.lo f.w v := by simp [Hw.set]

theorem Hw.get_of_word {h u : Hw} {f : Fld} {n : Nat} (e : u.word f.reg n = h.word f.reg n) : u.get f n = h.get f n := by
  simp [Hw.get, e]

theorem Hw.get_putWord_reg (h : Hw) {f : Fld} {r : Reg} (n m : Nat) (v : Word) (hr : r ≠ f.reg) :
    (h.putWord r n v).get f m = h.get f m := Hw.get_of_word (Hw.word_putWord_reg _ _ _ _ hr)

theorem Hw.get_putWord_idx (h : Hw) {f : Fld} {r : Reg} {n m : Nat} (v : Word) (hn : n ≠ m) :
    (h.putWord r n v).get f m = h.get f m := by
  by_cases hr : r = f.reg
  · subst hr; exact Hw.get_of_word (Hw.word_putWord_idx _ _ _ hn)
  · exact Hw.get_putWord_reg h n m v hr

/-! ### Loops and conditions -/

@[simp] theorem Hw.when_true (h : Hw) (f : Hw → Hw) : h.when true f = f h := rfl
@[simp] theorem Hw.when_false (h : Hw) (f : Hw → Hw) : h.when false f = h := rfl

/-- What every pass of a loop keeps, the loop keeps. -/
theorem Hw.forEach_keeps {α β : Type} (p : Hw → β) {l : List α} {f : α → Hw → Hw} (hf : ∀ x ∈ l, ∀ h, p (f x h) = p h)
    (h : Hw) : p (h.forEach l f) = p h := by
  unfold Hw.forEach
  induction l generalizing h with
  | nil => rfl
  | cons x l ih =>
    simp only [List.foldl_cons]
    rw [ih (fun y hy => hf y (List.mem_cons_of_mem _ hy)), hf x List.mem_cons_self]

theorem Hw.forUpTo_keeps {β : Type} (p : Hw → β) {n : Nat} {f : Nat → Hw → Hw} (hf : ∀ k < n, ∀ h, p (f k h) = p h)
    (h : Hw) : p (h.forUpTo n f) = p h := by
  have : h.forUpTo n f = h.forEach (List.range n) f := rfl
  rw [this]
  exact Hw.forEach_keeps p (fun x hx => hf x (List.mem_range.1 hx)) h

theorem Hw.when_keeps {β : Type} (p : Hw → β) {c : Bool} {f : Hw → Hw} (hf : ∀ h, p (f h) = p h) (h : Hw) :
    p (h.when c f) = p h := by
  cases c
  · rfl
  · exact hf h

/-! ### updLane -/

@[simp] theorem Hw.word_updLane (h : Hw) (n : Nat) (k : Lane → Lane) (r : Reg) (j' : Nat) : (h.updLane n k).word r j' = h.word r j' := rfl
@[simp] theorem Hw.get_updLane (h : Hw) (n : Nat) (k : Lane → Lane) (f : Fld) (j' : Nat) : (h.updLane n k).get f j' = h.get f j' := rfl
@[simp] theorem Hw.updLane_regs (h : Hw) (n : Nat) (k : Lane → Lane) : (h.updLane n k).regs = h.regs := rfl
@[simp] theorem Hw.updLane_time (h : Hw) (n : Nat) (k : Lane → Lane) : (h.updLane n k).time = h.time := rfl
@[simp] theorem Hw.updLane_base (h : Hw) (n : Nat) (k : Lane → Lane) : (h.updLane n k).base = h.base := rfl
@[simp] theorem Hw.updLane_draws (h : Hw) (n : Nat) (k : Lane → Lane) : (h.updLane n k).draws = h.draws := rfl
@[simp] theorem Hw.updLane_images (h : Hw) (n : Nat) (k : Lane → Lane) : (h.updLane n k).images = h.images := rfl
@[simp] theorem Hw.updLane_msixQ (h : Hw) (n : Nat) (k : Lane → Lane) : (h.updLane n k).msixQ = h.msixQ := rfl
@[simp] theorem Hw.updLane_logQ (h : Hw) (n : Nat) (k : Lane → Lane) : (h.updLane n k).logQ = h.logQ := rfl
@[simp] theorem Hw.updLane_out (h : Hw) (n : Nat) (k : Lane → Lane) : (h.updLane n k).out = h.out := rfl
@[simp] theorem Hw.updLane_pool (h : Hw) (n : Nat) (k : Lane → Lane) : (h.updLane n k).pool = h.pool := rfl
@[simp] theorem Hw.updLane_env (h : Hw) (n : Nat) (k : Lane → Lane) : (h.updLane n k).env = h.env := rfl
@[simp] theorem Hw.updLane_envRes (h : Hw) (n : Nat) (k : Lane → Lane) : (h.updLane n k).envRes = h.envRes := rfl
@[simp] theorem Hw.updLane_ledger (h : Hw) (n : Nat) (k : Lane → Lane) : (h.updLane n k).ledger = h.ledger := rfl
@[simp] theorem Hw.updLane_dram (h : Hw) (n : Nat) (k : Lane → Lane) : (h.updLane n k).dram = h.dram := rfl
@[simp] theorem Hw.updLane_xlkD (h : Hw) (n : Nat) (k : Lane → Lane) : (h.updLane n k).xlkD = h.xlkD := rfl
@[simp] theorem Hw.updLane_toB (h : Hw) (n : Nat) (k : Lane → Lane) : (h.updLane n k).toB = h.toB := rfl
@[simp] theorem Hw.updLane_toA (h : Hw) (n : Nat) (k : Lane → Lane) : (h.updLane n k).toA = h.toA := rfl
@[simp] theorem Hw.updLane_cfg (h : Hw) (n : Nat) (k : Lane → Lane) : (h.updLane n k).cfg = h.cfg := rfl
@[simp] theorem Hw.updLane_b (h : Hw) (n : Nat) (k : Lane → Lane) : (h.updLane n k).b = h.b := rfl
@[simp] theorem Hw.updLane_fio (h : Hw) (n : Nat) (k : Lane → Lane) : (h.updLane n k).fio = h.fio := rfl
@[simp] theorem Hw.updLane_applied (h : Hw) (n : Nat) (k : Lane → Lane) : (h.updLane n k).applied = h.applied := rfl
@[simp] theorem Hw.updLane_evA (h : Hw) (n : Nat) (k : Lane → Lane) : (h.updLane n k).evA = h.evA := rfl
@[simp] theorem Hw.updLane_evB (h : Hw) (n : Nat) (k : Lane → Lane) : (h.updLane n k).evB = h.evB := rfl
@[simp] theorem Hw.updLane_pods (h : Hw) (n : Nat) (k : Lane → Lane) : (h.updLane n k).pods = h.pods := rfl
@[simp] theorem Hw.updLane_priv (h : Hw) (n : Nat) (k : Lane → Lane) : (h.updLane n k).priv = h.priv := rfl
@[simp] theorem Hw.updLane_nps (h : Hw) (n : Nat) (k : Lane → Lane) : (h.updLane n k).nps = h.nps := rfl
@[simp] theorem Hw.updLane_tmr (h : Hw) (n : Nat) (k : Lane → Lane) : (h.updLane n k).tmr = h.tmr := rfl
@[simp] theorem Hw.updLane_crcRead (h : Hw) (n : Nat) (k : Lane → Lane) : (h.updLane n k).crcRead = h.crcRead := rfl
@[simp] theorem Hw.updLane_msixTbl (h : Hw) (n : Nat) (k : Lane → Lane) : (h.updLane n k).msixTbl = h.msixTbl := rfl
@[simp] theorem Hw.updLane_msixPba (h : Hw) (n : Nat) (k : Lane → Lane) : (h.updLane n k).msixPba = h.msixPba := rfl
@[simp] theorem Hw.updLane_queues (h : Hw) (n : Nat) (k : Lane → Lane) : (h.updLane n k).queues = h.queues := rfl
@[simp] theorem Hw.updLane_ncp (h : Hw) (n : Nat) (k : Lane → Lane) : (h.updLane n k).ncp = h.ncp := rfl
@[simp] theorem Hw.updLane_boot (h : Hw) (n : Nat) (k : Lane → Lane) : (h.updLane n k).boot = h.boot := rfl
@[simp] theorem Hw.updLane_otp (h : Hw) (n : Nat) (k : Lane → Lane) : (h.updLane n k).otp = h.otp := rfl
@[simp] theorem Hw.updLane_otpOp (h : Hw) (n : Nat) (k : Lane → Lane) : (h.updLane n k).otpOp = h.otpOp := rfl
@[simp] theorem Hw.updLane_secOp (h : Hw) (n : Nat) (k : Lane → Lane) : (h.updLane n k).secOp = h.secOp := rfl
@[simp] theorem Hw.updLane_logNext (h : Hw) (n : Nat) (k : Lane → Lane) : (h.updLane n k).logNext = h.logNext := rfl
@[simp] theorem Hw.updLane_logLost (h : Hw) (n : Nat) (k : Lane → Lane) : (h.updLane n k).logLost = h.logLost := rfl
@[simp] theorem Hw.updLane_bus (h : Hw) (n : Nat) (k : Lane → Lane) : (h.updLane n k).bus = h.bus := rfl
@[simp] theorem Hw.updLane_resp (h : Hw) (n : Nat) (k : Lane → Lane) : (h.updLane n k).resp = h.resp := rfl
@[simp] theorem Hw.updLane_pulses (h : Hw) (n : Nat) (k : Lane → Lane) : (h.updLane n k).pulses = h.pulses := rfl
@[simp] theorem Hw.updLane_idKey (h : Hw) (n : Nat) (k : Lane → Lane) : (h.updLane n k).idKey = h.idKey := rfl

/-! ### updCe -/

@[simp] theorem Hw.word_updCe (h : Hw) (m : Nat) (k : CheckEngine → CheckEngine) (r : Reg) (j' : Nat) : (h.updCe m k).word r j' = h.word r j' := rfl
@[simp] theorem Hw.get_updCe (h : Hw) (m : Nat) (k : CheckEngine → CheckEngine) (f : Fld) (j' : Nat) : (h.updCe m k).get f j' = h.get f j' := rfl
@[simp] theorem Hw.updCe_regs (h : Hw) (m : Nat) (k : CheckEngine → CheckEngine) : (h.updCe m k).regs = h.regs := rfl
@[simp] theorem Hw.updCe_time (h : Hw) (m : Nat) (k : CheckEngine → CheckEngine) : (h.updCe m k).time = h.time := rfl
@[simp] theorem Hw.updCe_base (h : Hw) (m : Nat) (k : CheckEngine → CheckEngine) : (h.updCe m k).base = h.base := rfl
@[simp] theorem Hw.updCe_draws (h : Hw) (m : Nat) (k : CheckEngine → CheckEngine) : (h.updCe m k).draws = h.draws := rfl
@[simp] theorem Hw.updCe_images (h : Hw) (m : Nat) (k : CheckEngine → CheckEngine) : (h.updCe m k).images = h.images := rfl
@[simp] theorem Hw.updCe_msixQ (h : Hw) (m : Nat) (k : CheckEngine → CheckEngine) : (h.updCe m k).msixQ = h.msixQ := rfl
@[simp] theorem Hw.updCe_logQ (h : Hw) (m : Nat) (k : CheckEngine → CheckEngine) : (h.updCe m k).logQ = h.logQ := rfl
@[simp] theorem Hw.updCe_out (h : Hw) (m : Nat) (k : CheckEngine → CheckEngine) : (h.updCe m k).out = h.out := rfl
@[simp] theorem Hw.updCe_lanes (h : Hw) (m : Nat) (k : CheckEngine → CheckEngine) : (h.updCe m k).lanes = h.lanes := rfl
@[simp] theorem Hw.updCe_env (h : Hw) (m : Nat) (k : CheckEngine → CheckEngine) : (h.updCe m k).env = h.env := rfl
@[simp] theorem Hw.updCe_envRes (h : Hw) (m : Nat) (k : CheckEngine → CheckEngine) : (h.updCe m k).envRes = h.envRes := rfl
@[simp] theorem Hw.updCe_ledger (h : Hw) (m : Nat) (k : CheckEngine → CheckEngine) : (h.updCe m k).ledger = h.ledger := rfl
@[simp] theorem Hw.updCe_dram (h : Hw) (m : Nat) (k : CheckEngine → CheckEngine) : (h.updCe m k).dram = h.dram := rfl
@[simp] theorem Hw.updCe_xlkD (h : Hw) (m : Nat) (k : CheckEngine → CheckEngine) : (h.updCe m k).xlkD = h.xlkD := rfl
@[simp] theorem Hw.updCe_toB (h : Hw) (m : Nat) (k : CheckEngine → CheckEngine) : (h.updCe m k).toB = h.toB := rfl
@[simp] theorem Hw.updCe_toA (h : Hw) (m : Nat) (k : CheckEngine → CheckEngine) : (h.updCe m k).toA = h.toA := rfl
@[simp] theorem Hw.updCe_cfg (h : Hw) (m : Nat) (k : CheckEngine → CheckEngine) : (h.updCe m k).cfg = h.cfg := rfl
@[simp] theorem Hw.updCe_b (h : Hw) (m : Nat) (k : CheckEngine → CheckEngine) : (h.updCe m k).b = h.b := rfl
@[simp] theorem Hw.updCe_fio (h : Hw) (m : Nat) (k : CheckEngine → CheckEngine) : (h.updCe m k).fio = h.fio := rfl
@[simp] theorem Hw.updCe_applied (h : Hw) (m : Nat) (k : CheckEngine → CheckEngine) : (h.updCe m k).applied = h.applied := rfl
@[simp] theorem Hw.updCe_evA (h : Hw) (m : Nat) (k : CheckEngine → CheckEngine) : (h.updCe m k).evA = h.evA := rfl
@[simp] theorem Hw.updCe_evB (h : Hw) (m : Nat) (k : CheckEngine → CheckEngine) : (h.updCe m k).evB = h.evB := rfl
@[simp] theorem Hw.updCe_pods (h : Hw) (m : Nat) (k : CheckEngine → CheckEngine) : (h.updCe m k).pods = h.pods := rfl
@[simp] theorem Hw.updCe_priv (h : Hw) (m : Nat) (k : CheckEngine → CheckEngine) : (h.updCe m k).priv = h.priv := rfl
@[simp] theorem Hw.updCe_nps (h : Hw) (m : Nat) (k : CheckEngine → CheckEngine) : (h.updCe m k).nps = h.nps := rfl
@[simp] theorem Hw.updCe_tmr (h : Hw) (m : Nat) (k : CheckEngine → CheckEngine) : (h.updCe m k).tmr = h.tmr := rfl
@[simp] theorem Hw.updCe_crcRead (h : Hw) (m : Nat) (k : CheckEngine → CheckEngine) : (h.updCe m k).crcRead = h.crcRead := rfl
@[simp] theorem Hw.updCe_msixTbl (h : Hw) (m : Nat) (k : CheckEngine → CheckEngine) : (h.updCe m k).msixTbl = h.msixTbl := rfl
@[simp] theorem Hw.updCe_msixPba (h : Hw) (m : Nat) (k : CheckEngine → CheckEngine) : (h.updCe m k).msixPba = h.msixPba := rfl
@[simp] theorem Hw.updCe_queues (h : Hw) (m : Nat) (k : CheckEngine → CheckEngine) : (h.updCe m k).queues = h.queues := rfl
@[simp] theorem Hw.updCe_ncp (h : Hw) (m : Nat) (k : CheckEngine → CheckEngine) : (h.updCe m k).ncp = h.ncp := rfl
@[simp] theorem Hw.updCe_boot (h : Hw) (m : Nat) (k : CheckEngine → CheckEngine) : (h.updCe m k).boot = h.boot := rfl
@[simp] theorem Hw.updCe_otp (h : Hw) (m : Nat) (k : CheckEngine → CheckEngine) : (h.updCe m k).otp = h.otp := rfl
@[simp] theorem Hw.updCe_otpOp (h : Hw) (m : Nat) (k : CheckEngine → CheckEngine) : (h.updCe m k).otpOp = h.otpOp := rfl
@[simp] theorem Hw.updCe_secOp (h : Hw) (m : Nat) (k : CheckEngine → CheckEngine) : (h.updCe m k).secOp = h.secOp := rfl
@[simp] theorem Hw.updCe_logNext (h : Hw) (m : Nat) (k : CheckEngine → CheckEngine) : (h.updCe m k).logNext = h.logNext := rfl
@[simp] theorem Hw.updCe_logLost (h : Hw) (m : Nat) (k : CheckEngine → CheckEngine) : (h.updCe m k).logLost = h.logLost := rfl
@[simp] theorem Hw.updCe_bus (h : Hw) (m : Nat) (k : CheckEngine → CheckEngine) : (h.updCe m k).bus = h.bus := rfl
@[simp] theorem Hw.updCe_resp (h : Hw) (m : Nat) (k : CheckEngine → CheckEngine) : (h.updCe m k).resp = h.resp := rfl
@[simp] theorem Hw.updCe_pulses (h : Hw) (m : Nat) (k : CheckEngine → CheckEngine) : (h.updCe m k).pulses = h.pulses := rfl
@[simp] theorem Hw.updCe_idKey (h : Hw) (m : Nat) (k : CheckEngine → CheckEngine) : (h.updCe m k).idKey = h.idKey := rfl

/-! ### updBEng -/

@[simp] theorem Hw.word_updBEng (h : Hw) (n : Nat) (k : BEngine → BEngine) (r : Reg) (j' : Nat) : (h.updBEng n k).word r j' = h.word r j' := rfl
@[simp] theorem Hw.get_updBEng (h : Hw) (n : Nat) (k : BEngine → BEngine) (f : Fld) (j' : Nat) : (h.updBEng n k).get f j' = h.get f j' := rfl
@[simp] theorem Hw.updBEng_regs (h : Hw) (n : Nat) (k : BEngine → BEngine) : (h.updBEng n k).regs = h.regs := rfl
@[simp] theorem Hw.updBEng_time (h : Hw) (n : Nat) (k : BEngine → BEngine) : (h.updBEng n k).time = h.time := rfl
@[simp] theorem Hw.updBEng_base (h : Hw) (n : Nat) (k : BEngine → BEngine) : (h.updBEng n k).base = h.base := rfl
@[simp] theorem Hw.updBEng_draws (h : Hw) (n : Nat) (k : BEngine → BEngine) : (h.updBEng n k).draws = h.draws := rfl
@[simp] theorem Hw.updBEng_images (h : Hw) (n : Nat) (k : BEngine → BEngine) : (h.updBEng n k).images = h.images := rfl
@[simp] theorem Hw.updBEng_msixQ (h : Hw) (n : Nat) (k : BEngine → BEngine) : (h.updBEng n k).msixQ = h.msixQ := rfl
@[simp] theorem Hw.updBEng_logQ (h : Hw) (n : Nat) (k : BEngine → BEngine) : (h.updBEng n k).logQ = h.logQ := rfl
@[simp] theorem Hw.updBEng_out (h : Hw) (n : Nat) (k : BEngine → BEngine) : (h.updBEng n k).out = h.out := rfl
@[simp] theorem Hw.updBEng_lanes (h : Hw) (n : Nat) (k : BEngine → BEngine) : (h.updBEng n k).lanes = h.lanes := rfl
@[simp] theorem Hw.updBEng_pool (h : Hw) (n : Nat) (k : BEngine → BEngine) : (h.updBEng n k).pool = h.pool := rfl
@[simp] theorem Hw.updBEng_env (h : Hw) (n : Nat) (k : BEngine → BEngine) : (h.updBEng n k).env = h.env := rfl
@[simp] theorem Hw.updBEng_envRes (h : Hw) (n : Nat) (k : BEngine → BEngine) : (h.updBEng n k).envRes = h.envRes := rfl
@[simp] theorem Hw.updBEng_ledger (h : Hw) (n : Nat) (k : BEngine → BEngine) : (h.updBEng n k).ledger = h.ledger := rfl
@[simp] theorem Hw.updBEng_dram (h : Hw) (n : Nat) (k : BEngine → BEngine) : (h.updBEng n k).dram = h.dram := rfl
@[simp] theorem Hw.updBEng_xlkD (h : Hw) (n : Nat) (k : BEngine → BEngine) : (h.updBEng n k).xlkD = h.xlkD := rfl
@[simp] theorem Hw.updBEng_toB (h : Hw) (n : Nat) (k : BEngine → BEngine) : (h.updBEng n k).toB = h.toB := rfl
@[simp] theorem Hw.updBEng_toA (h : Hw) (n : Nat) (k : BEngine → BEngine) : (h.updBEng n k).toA = h.toA := rfl
@[simp] theorem Hw.updBEng_cfg (h : Hw) (n : Nat) (k : BEngine → BEngine) : (h.updBEng n k).cfg = h.cfg := rfl
@[simp] theorem Hw.updBEng_fio (h : Hw) (n : Nat) (k : BEngine → BEngine) : (h.updBEng n k).fio = h.fio := rfl
@[simp] theorem Hw.updBEng_applied (h : Hw) (n : Nat) (k : BEngine → BEngine) : (h.updBEng n k).applied = h.applied := rfl
@[simp] theorem Hw.updBEng_evA (h : Hw) (n : Nat) (k : BEngine → BEngine) : (h.updBEng n k).evA = h.evA := rfl
@[simp] theorem Hw.updBEng_evB (h : Hw) (n : Nat) (k : BEngine → BEngine) : (h.updBEng n k).evB = h.evB := rfl
@[simp] theorem Hw.updBEng_pods (h : Hw) (n : Nat) (k : BEngine → BEngine) : (h.updBEng n k).pods = h.pods := rfl
@[simp] theorem Hw.updBEng_priv (h : Hw) (n : Nat) (k : BEngine → BEngine) : (h.updBEng n k).priv = h.priv := rfl
@[simp] theorem Hw.updBEng_nps (h : Hw) (n : Nat) (k : BEngine → BEngine) : (h.updBEng n k).nps = h.nps := rfl
@[simp] theorem Hw.updBEng_tmr (h : Hw) (n : Nat) (k : BEngine → BEngine) : (h.updBEng n k).tmr = h.tmr := rfl
@[simp] theorem Hw.updBEng_crcRead (h : Hw) (n : Nat) (k : BEngine → BEngine) : (h.updBEng n k).crcRead = h.crcRead := rfl
@[simp] theorem Hw.updBEng_msixTbl (h : Hw) (n : Nat) (k : BEngine → BEngine) : (h.updBEng n k).msixTbl = h.msixTbl := rfl
@[simp] theorem Hw.updBEng_msixPba (h : Hw) (n : Nat) (k : BEngine → BEngine) : (h.updBEng n k).msixPba = h.msixPba := rfl
@[simp] theorem Hw.updBEng_queues (h : Hw) (n : Nat) (k : BEngine → BEngine) : (h.updBEng n k).queues = h.queues := rfl
@[simp] theorem Hw.updBEng_ncp (h : Hw) (n : Nat) (k : BEngine → BEngine) : (h.updBEng n k).ncp = h.ncp := rfl
@[simp] theorem Hw.updBEng_boot (h : Hw) (n : Nat) (k : BEngine → BEngine) : (h.updBEng n k).boot = h.boot := rfl
@[simp] theorem Hw.updBEng_otp (h : Hw) (n : Nat) (k : BEngine → BEngine) : (h.updBEng n k).otp = h.otp := rfl
@[simp] theorem Hw.updBEng_otpOp (h : Hw) (n : Nat) (k : BEngine → BEngine) : (h.updBEng n k).otpOp = h.otpOp := rfl
@[simp] theorem Hw.updBEng_secOp (h : Hw) (n : Nat) (k : BEngine → BEngine) : (h.updBEng n k).secOp = h.secOp := rfl
@[simp] theorem Hw.updBEng_logNext (h : Hw) (n : Nat) (k : BEngine → BEngine) : (h.updBEng n k).logNext = h.logNext := rfl
@[simp] theorem Hw.updBEng_logLost (h : Hw) (n : Nat) (k : BEngine → BEngine) : (h.updBEng n k).logLost = h.logLost := rfl
@[simp] theorem Hw.updBEng_bus (h : Hw) (n : Nat) (k : BEngine → BEngine) : (h.updBEng n k).bus = h.bus := rfl
@[simp] theorem Hw.updBEng_resp (h : Hw) (n : Nat) (k : BEngine → BEngine) : (h.updBEng n k).resp = h.resp := rfl
@[simp] theorem Hw.updBEng_pulses (h : Hw) (n : Nat) (k : BEngine → BEngine) : (h.updBEng n k).pulses = h.pulses := rfl
@[simp] theorem Hw.updBEng_idKey (h : Hw) (n : Nat) (k : BEngine → BEngine) : (h.updBEng n k).idKey = h.idKey := rfl

/-! ### updFio -/

@[simp] theorem Hw.word_updFio (h : Hw) (k : Fio → Fio) (r : Reg) (j' : Nat) : (h.updFio k).word r j' = h.word r j' := rfl
@[simp] theorem Hw.get_updFio (h : Hw) (k : Fio → Fio) (f : Fld) (j' : Nat) : (h.updFio k).get f j' = h.get f j' := rfl
@[simp] theorem Hw.updFio_regs (h : Hw) (k : Fio → Fio) : (h.updFio k).regs = h.regs := rfl
@[simp] theorem Hw.updFio_time (h : Hw) (k : Fio → Fio) : (h.updFio k).time = h.time := rfl
@[simp] theorem Hw.updFio_base (h : Hw) (k : Fio → Fio) : (h.updFio k).base = h.base := rfl
@[simp] theorem Hw.updFio_draws (h : Hw) (k : Fio → Fio) : (h.updFio k).draws = h.draws := rfl
@[simp] theorem Hw.updFio_images (h : Hw) (k : Fio → Fio) : (h.updFio k).images = h.images := rfl
@[simp] theorem Hw.updFio_msixQ (h : Hw) (k : Fio → Fio) : (h.updFio k).msixQ = h.msixQ := rfl
@[simp] theorem Hw.updFio_logQ (h : Hw) (k : Fio → Fio) : (h.updFio k).logQ = h.logQ := rfl
@[simp] theorem Hw.updFio_out (h : Hw) (k : Fio → Fio) : (h.updFio k).out = h.out := rfl
@[simp] theorem Hw.updFio_lanes (h : Hw) (k : Fio → Fio) : (h.updFio k).lanes = h.lanes := rfl
@[simp] theorem Hw.updFio_pool (h : Hw) (k : Fio → Fio) : (h.updFio k).pool = h.pool := rfl
@[simp] theorem Hw.updFio_env (h : Hw) (k : Fio → Fio) : (h.updFio k).env = h.env := rfl
@[simp] theorem Hw.updFio_envRes (h : Hw) (k : Fio → Fio) : (h.updFio k).envRes = h.envRes := rfl
@[simp] theorem Hw.updFio_ledger (h : Hw) (k : Fio → Fio) : (h.updFio k).ledger = h.ledger := rfl
@[simp] theorem Hw.updFio_dram (h : Hw) (k : Fio → Fio) : (h.updFio k).dram = h.dram := rfl
@[simp] theorem Hw.updFio_xlkD (h : Hw) (k : Fio → Fio) : (h.updFio k).xlkD = h.xlkD := rfl
@[simp] theorem Hw.updFio_toB (h : Hw) (k : Fio → Fio) : (h.updFio k).toB = h.toB := rfl
@[simp] theorem Hw.updFio_toA (h : Hw) (k : Fio → Fio) : (h.updFio k).toA = h.toA := rfl
@[simp] theorem Hw.updFio_cfg (h : Hw) (k : Fio → Fio) : (h.updFio k).cfg = h.cfg := rfl
@[simp] theorem Hw.updFio_b (h : Hw) (k : Fio → Fio) : (h.updFio k).b = h.b := rfl
@[simp] theorem Hw.updFio_applied (h : Hw) (k : Fio → Fio) : (h.updFio k).applied = h.applied := rfl
@[simp] theorem Hw.updFio_evA (h : Hw) (k : Fio → Fio) : (h.updFio k).evA = h.evA := rfl
@[simp] theorem Hw.updFio_evB (h : Hw) (k : Fio → Fio) : (h.updFio k).evB = h.evB := rfl
@[simp] theorem Hw.updFio_pods (h : Hw) (k : Fio → Fio) : (h.updFio k).pods = h.pods := rfl
@[simp] theorem Hw.updFio_priv (h : Hw) (k : Fio → Fio) : (h.updFio k).priv = h.priv := rfl
@[simp] theorem Hw.updFio_nps (h : Hw) (k : Fio → Fio) : (h.updFio k).nps = h.nps := rfl
@[simp] theorem Hw.updFio_tmr (h : Hw) (k : Fio → Fio) : (h.updFio k).tmr = h.tmr := rfl
@[simp] theorem Hw.updFio_crcRead (h : Hw) (k : Fio → Fio) : (h.updFio k).crcRead = h.crcRead := rfl
@[simp] theorem Hw.updFio_msixTbl (h : Hw) (k : Fio → Fio) : (h.updFio k).msixTbl = h.msixTbl := rfl
@[simp] theorem Hw.updFio_msixPba (h : Hw) (k : Fio → Fio) : (h.updFio k).msixPba = h.msixPba := rfl
@[simp] theorem Hw.updFio_queues (h : Hw) (k : Fio → Fio) : (h.updFio k).queues = h.queues := rfl
@[simp] theorem Hw.updFio_ncp (h : Hw) (k : Fio → Fio) : (h.updFio k).ncp = h.ncp := rfl
@[simp] theorem Hw.updFio_boot (h : Hw) (k : Fio → Fio) : (h.updFio k).boot = h.boot := rfl
@[simp] theorem Hw.updFio_otp (h : Hw) (k : Fio → Fio) : (h.updFio k).otp = h.otp := rfl
@[simp] theorem Hw.updFio_otpOp (h : Hw) (k : Fio → Fio) : (h.updFio k).otpOp = h.otpOp := rfl
@[simp] theorem Hw.updFio_secOp (h : Hw) (k : Fio → Fio) : (h.updFio k).secOp = h.secOp := rfl
@[simp] theorem Hw.updFio_logNext (h : Hw) (k : Fio → Fio) : (h.updFio k).logNext = h.logNext := rfl
@[simp] theorem Hw.updFio_logLost (h : Hw) (k : Fio → Fio) : (h.updFio k).logLost = h.logLost := rfl
@[simp] theorem Hw.updFio_bus (h : Hw) (k : Fio → Fio) : (h.updFio k).bus = h.bus := rfl
@[simp] theorem Hw.updFio_resp (h : Hw) (k : Fio → Fio) : (h.updFio k).resp = h.resp := rfl
@[simp] theorem Hw.updFio_pulses (h : Hw) (k : Fio → Fio) : (h.updFio k).pulses = h.pulses := rfl
@[simp] theorem Hw.updFio_idKey (h : Hw) (k : Fio → Fio) : (h.updFio k).idKey = h.idKey := rfl

/-! ### putImage -/

@[simp] theorem Hw.word_putImage (h : Hw) (p k v : Nat) (r : Reg) (j' : Nat) : (h.putImage p k v).word r j' = h.word r j' := rfl
@[simp] theorem Hw.get_putImage (h : Hw) (p k v : Nat) (f : Fld) (j' : Nat) : (h.putImage p k v).get f j' = h.get f j' := rfl
@[simp] theorem Hw.putImage_regs (h : Hw) (p k v : Nat) : (h.putImage p k v).regs = h.regs := rfl
@[simp] theorem Hw.putImage_time (h : Hw) (p k v : Nat) : (h.putImage p k v).time = h.time := rfl
@[simp] theorem Hw.putImage_base (h : Hw) (p k v : Nat) : (h.putImage p k v).base = h.base := rfl
@[simp] theorem Hw.putImage_draws (h : Hw) (p k v : Nat) : (h.putImage p k v).draws = h.draws := rfl
@[simp] theorem Hw.putImage_msixQ (h : Hw) (p k v : Nat) : (h.putImage p k v).msixQ = h.msixQ := rfl
@[simp] theorem Hw.putImage_logQ (h : Hw) (p k v : Nat) : (h.putImage p k v).logQ = h.logQ := rfl
@[simp] theorem Hw.putImage_out (h : Hw) (p k v : Nat) : (h.putImage p k v).out = h.out := rfl
@[simp] theorem Hw.putImage_lanes (h : Hw) (p k v : Nat) : (h.putImage p k v).lanes = h.lanes := rfl
@[simp] theorem Hw.putImage_pool (h : Hw) (p k v : Nat) : (h.putImage p k v).pool = h.pool := rfl
@[simp] theorem Hw.putImage_env (h : Hw) (p k v : Nat) : (h.putImage p k v).env = h.env := rfl
@[simp] theorem Hw.putImage_envRes (h : Hw) (p k v : Nat) : (h.putImage p k v).envRes = h.envRes := rfl
@[simp] theorem Hw.putImage_ledger (h : Hw) (p k v : Nat) : (h.putImage p k v).ledger = h.ledger := rfl
@[simp] theorem Hw.putImage_dram (h : Hw) (p k v : Nat) : (h.putImage p k v).dram = h.dram := rfl
@[simp] theorem Hw.putImage_xlkD (h : Hw) (p k v : Nat) : (h.putImage p k v).xlkD = h.xlkD := rfl
@[simp] theorem Hw.putImage_toB (h : Hw) (p k v : Nat) : (h.putImage p k v).toB = h.toB := rfl
@[simp] theorem Hw.putImage_toA (h : Hw) (p k v : Nat) : (h.putImage p k v).toA = h.toA := rfl
@[simp] theorem Hw.putImage_cfg (h : Hw) (p k v : Nat) : (h.putImage p k v).cfg = h.cfg := rfl
@[simp] theorem Hw.putImage_b (h : Hw) (p k v : Nat) : (h.putImage p k v).b = h.b := rfl
@[simp] theorem Hw.putImage_fio (h : Hw) (p k v : Nat) : (h.putImage p k v).fio = h.fio := rfl
@[simp] theorem Hw.putImage_applied (h : Hw) (p k v : Nat) : (h.putImage p k v).applied = h.applied := rfl
@[simp] theorem Hw.putImage_evA (h : Hw) (p k v : Nat) : (h.putImage p k v).evA = h.evA := rfl
@[simp] theorem Hw.putImage_evB (h : Hw) (p k v : Nat) : (h.putImage p k v).evB = h.evB := rfl
@[simp] theorem Hw.putImage_pods (h : Hw) (p k v : Nat) : (h.putImage p k v).pods = h.pods := rfl
@[simp] theorem Hw.putImage_priv (h : Hw) (p k v : Nat) : (h.putImage p k v).priv = h.priv := rfl
@[simp] theorem Hw.putImage_nps (h : Hw) (p k v : Nat) : (h.putImage p k v).nps = h.nps := rfl
@[simp] theorem Hw.putImage_tmr (h : Hw) (p k v : Nat) : (h.putImage p k v).tmr = h.tmr := rfl
@[simp] theorem Hw.putImage_crcRead (h : Hw) (p k v : Nat) : (h.putImage p k v).crcRead = h.crcRead := rfl
@[simp] theorem Hw.putImage_msixTbl (h : Hw) (p k v : Nat) : (h.putImage p k v).msixTbl = h.msixTbl := rfl
@[simp] theorem Hw.putImage_msixPba (h : Hw) (p k v : Nat) : (h.putImage p k v).msixPba = h.msixPba := rfl
@[simp] theorem Hw.putImage_queues (h : Hw) (p k v : Nat) : (h.putImage p k v).queues = h.queues := rfl
@[simp] theorem Hw.putImage_ncp (h : Hw) (p k v : Nat) : (h.putImage p k v).ncp = h.ncp := rfl
@[simp] theorem Hw.putImage_boot (h : Hw) (p k v : Nat) : (h.putImage p k v).boot = h.boot := rfl
@[simp] theorem Hw.putImage_otp (h : Hw) (p k v : Nat) : (h.putImage p k v).otp = h.otp := rfl
@[simp] theorem Hw.putImage_otpOp (h : Hw) (p k v : Nat) : (h.putImage p k v).otpOp = h.otpOp := rfl
@[simp] theorem Hw.putImage_secOp (h : Hw) (p k v : Nat) : (h.putImage p k v).secOp = h.secOp := rfl
@[simp] theorem Hw.putImage_logNext (h : Hw) (p k v : Nat) : (h.putImage p k v).logNext = h.logNext := rfl
@[simp] theorem Hw.putImage_logLost (h : Hw) (p k v : Nat) : (h.putImage p k v).logLost = h.logLost := rfl
@[simp] theorem Hw.putImage_bus (h : Hw) (p k v : Nat) : (h.putImage p k v).bus = h.bus := rfl
@[simp] theorem Hw.putImage_resp (h : Hw) (p k v : Nat) : (h.putImage p k v).resp = h.resp := rfl
@[simp] theorem Hw.putImage_pulses (h : Hw) (p k v : Nat) : (h.putImage p k v).pulses = h.pulses := rfl
@[simp] theorem Hw.putImage_idKey (h : Hw) (p k v : Nat) : (h.putImage p k v).idKey = h.idKey := rfl

/-! ### putApplied -/

@[simp] theorem Hw.word_putApplied (h : Hw) (k v : Nat) (r : Reg) (j' : Nat) : (h.putApplied k v).word r j' = h.word r j' := rfl
@[simp] theorem Hw.get_putApplied (h : Hw) (k v : Nat) (f : Fld) (j' : Nat) : (h.putApplied k v).get f j' = h.get f j' := rfl
@[simp] theorem Hw.putApplied_regs (h : Hw) (k v : Nat) : (h.putApplied k v).regs = h.regs := rfl
@[simp] theorem Hw.putApplied_time (h : Hw) (k v : Nat) : (h.putApplied k v).time = h.time := rfl
@[simp] theorem Hw.putApplied_base (h : Hw) (k v : Nat) : (h.putApplied k v).base = h.base := rfl
@[simp] theorem Hw.putApplied_draws (h : Hw) (k v : Nat) : (h.putApplied k v).draws = h.draws := rfl
@[simp] theorem Hw.putApplied_images (h : Hw) (k v : Nat) : (h.putApplied k v).images = h.images := rfl
@[simp] theorem Hw.putApplied_msixQ (h : Hw) (k v : Nat) : (h.putApplied k v).msixQ = h.msixQ := rfl
@[simp] theorem Hw.putApplied_logQ (h : Hw) (k v : Nat) : (h.putApplied k v).logQ = h.logQ := rfl
@[simp] theorem Hw.putApplied_out (h : Hw) (k v : Nat) : (h.putApplied k v).out = h.out := rfl
@[simp] theorem Hw.putApplied_lanes (h : Hw) (k v : Nat) : (h.putApplied k v).lanes = h.lanes := rfl
@[simp] theorem Hw.putApplied_pool (h : Hw) (k v : Nat) : (h.putApplied k v).pool = h.pool := rfl
@[simp] theorem Hw.putApplied_env (h : Hw) (k v : Nat) : (h.putApplied k v).env = h.env := rfl
@[simp] theorem Hw.putApplied_envRes (h : Hw) (k v : Nat) : (h.putApplied k v).envRes = h.envRes := rfl
@[simp] theorem Hw.putApplied_ledger (h : Hw) (k v : Nat) : (h.putApplied k v).ledger = h.ledger := rfl
@[simp] theorem Hw.putApplied_dram (h : Hw) (k v : Nat) : (h.putApplied k v).dram = h.dram := rfl
@[simp] theorem Hw.putApplied_xlkD (h : Hw) (k v : Nat) : (h.putApplied k v).xlkD = h.xlkD := rfl
@[simp] theorem Hw.putApplied_toB (h : Hw) (k v : Nat) : (h.putApplied k v).toB = h.toB := rfl
@[simp] theorem Hw.putApplied_toA (h : Hw) (k v : Nat) : (h.putApplied k v).toA = h.toA := rfl
@[simp] theorem Hw.putApplied_cfg (h : Hw) (k v : Nat) : (h.putApplied k v).cfg = h.cfg := rfl
@[simp] theorem Hw.putApplied_b (h : Hw) (k v : Nat) : (h.putApplied k v).b = h.b := rfl
@[simp] theorem Hw.putApplied_fio (h : Hw) (k v : Nat) : (h.putApplied k v).fio = h.fio := rfl
@[simp] theorem Hw.putApplied_evA (h : Hw) (k v : Nat) : (h.putApplied k v).evA = h.evA := rfl
@[simp] theorem Hw.putApplied_evB (h : Hw) (k v : Nat) : (h.putApplied k v).evB = h.evB := rfl
@[simp] theorem Hw.putApplied_pods (h : Hw) (k v : Nat) : (h.putApplied k v).pods = h.pods := rfl
@[simp] theorem Hw.putApplied_priv (h : Hw) (k v : Nat) : (h.putApplied k v).priv = h.priv := rfl
@[simp] theorem Hw.putApplied_nps (h : Hw) (k v : Nat) : (h.putApplied k v).nps = h.nps := rfl
@[simp] theorem Hw.putApplied_tmr (h : Hw) (k v : Nat) : (h.putApplied k v).tmr = h.tmr := rfl
@[simp] theorem Hw.putApplied_crcRead (h : Hw) (k v : Nat) : (h.putApplied k v).crcRead = h.crcRead := rfl
@[simp] theorem Hw.putApplied_msixTbl (h : Hw) (k v : Nat) : (h.putApplied k v).msixTbl = h.msixTbl := rfl
@[simp] theorem Hw.putApplied_msixPba (h : Hw) (k v : Nat) : (h.putApplied k v).msixPba = h.msixPba := rfl
@[simp] theorem Hw.putApplied_queues (h : Hw) (k v : Nat) : (h.putApplied k v).queues = h.queues := rfl
@[simp] theorem Hw.putApplied_ncp (h : Hw) (k v : Nat) : (h.putApplied k v).ncp = h.ncp := rfl
@[simp] theorem Hw.putApplied_boot (h : Hw) (k v : Nat) : (h.putApplied k v).boot = h.boot := rfl
@[simp] theorem Hw.putApplied_otp (h : Hw) (k v : Nat) : (h.putApplied k v).otp = h.otp := rfl
@[simp] theorem Hw.putApplied_otpOp (h : Hw) (k v : Nat) : (h.putApplied k v).otpOp = h.otpOp := rfl
@[simp] theorem Hw.putApplied_secOp (h : Hw) (k v : Nat) : (h.putApplied k v).secOp = h.secOp := rfl
@[simp] theorem Hw.putApplied_logNext (h : Hw) (k v : Nat) : (h.putApplied k v).logNext = h.logNext := rfl
@[simp] theorem Hw.putApplied_logLost (h : Hw) (k v : Nat) : (h.putApplied k v).logLost = h.logLost := rfl
@[simp] theorem Hw.putApplied_bus (h : Hw) (k v : Nat) : (h.putApplied k v).bus = h.bus := rfl
@[simp] theorem Hw.putApplied_resp (h : Hw) (k v : Nat) : (h.putApplied k v).resp = h.resp := rfl
@[simp] theorem Hw.putApplied_pulses (h : Hw) (k v : Nat) : (h.putApplied k v).pulses = h.pulses := rfl
@[simp] theorem Hw.putApplied_idKey (h : Hw) (k v : Nat) : (h.putApplied k v).idKey = h.idKey := rfl

/-! ### emit -/

@[simp] theorem Hw.word_emit (h : Hw) (o : Output) (r : Reg) (j' : Nat) : (h.emit o).word r j' = h.word r j' := rfl
@[simp] theorem Hw.get_emit (h : Hw) (o : Output) (f : Fld) (j' : Nat) : (h.emit o).get f j' = h.get f j' := rfl
@[simp] theorem Hw.emit_regs (h : Hw) (o : Output) : (h.emit o).regs = h.regs := rfl
@[simp] theorem Hw.emit_time (h : Hw) (o : Output) : (h.emit o).time = h.time := rfl
@[simp] theorem Hw.emit_base (h : Hw) (o : Output) : (h.emit o).base = h.base := rfl
@[simp] theorem Hw.emit_draws (h : Hw) (o : Output) : (h.emit o).draws = h.draws := rfl
@[simp] theorem Hw.emit_images (h : Hw) (o : Output) : (h.emit o).images = h.images := rfl
@[simp] theorem Hw.emit_msixQ (h : Hw) (o : Output) : (h.emit o).msixQ = h.msixQ := rfl
@[simp] theorem Hw.emit_logQ (h : Hw) (o : Output) : (h.emit o).logQ = h.logQ := rfl
@[simp] theorem Hw.emit_lanes (h : Hw) (o : Output) : (h.emit o).lanes = h.lanes := rfl
@[simp] theorem Hw.emit_pool (h : Hw) (o : Output) : (h.emit o).pool = h.pool := rfl
@[simp] theorem Hw.emit_env (h : Hw) (o : Output) : (h.emit o).env = h.env := rfl
@[simp] theorem Hw.emit_envRes (h : Hw) (o : Output) : (h.emit o).envRes = h.envRes := rfl
@[simp] theorem Hw.emit_ledger (h : Hw) (o : Output) : (h.emit o).ledger = h.ledger := rfl
@[simp] theorem Hw.emit_dram (h : Hw) (o : Output) : (h.emit o).dram = h.dram := rfl
@[simp] theorem Hw.emit_xlkD (h : Hw) (o : Output) : (h.emit o).xlkD = h.xlkD := rfl
@[simp] theorem Hw.emit_toB (h : Hw) (o : Output) : (h.emit o).toB = h.toB := rfl
@[simp] theorem Hw.emit_toA (h : Hw) (o : Output) : (h.emit o).toA = h.toA := rfl
@[simp] theorem Hw.emit_cfg (h : Hw) (o : Output) : (h.emit o).cfg = h.cfg := rfl
@[simp] theorem Hw.emit_b (h : Hw) (o : Output) : (h.emit o).b = h.b := rfl
@[simp] theorem Hw.emit_fio (h : Hw) (o : Output) : (h.emit o).fio = h.fio := rfl
@[simp] theorem Hw.emit_applied (h : Hw) (o : Output) : (h.emit o).applied = h.applied := rfl
@[simp] theorem Hw.emit_evA (h : Hw) (o : Output) : (h.emit o).evA = h.evA := rfl
@[simp] theorem Hw.emit_evB (h : Hw) (o : Output) : (h.emit o).evB = h.evB := rfl
@[simp] theorem Hw.emit_pods (h : Hw) (o : Output) : (h.emit o).pods = h.pods := rfl
@[simp] theorem Hw.emit_priv (h : Hw) (o : Output) : (h.emit o).priv = h.priv := rfl
@[simp] theorem Hw.emit_nps (h : Hw) (o : Output) : (h.emit o).nps = h.nps := rfl
@[simp] theorem Hw.emit_tmr (h : Hw) (o : Output) : (h.emit o).tmr = h.tmr := rfl
@[simp] theorem Hw.emit_crcRead (h : Hw) (o : Output) : (h.emit o).crcRead = h.crcRead := rfl
@[simp] theorem Hw.emit_msixTbl (h : Hw) (o : Output) : (h.emit o).msixTbl = h.msixTbl := rfl
@[simp] theorem Hw.emit_msixPba (h : Hw) (o : Output) : (h.emit o).msixPba = h.msixPba := rfl
@[simp] theorem Hw.emit_queues (h : Hw) (o : Output) : (h.emit o).queues = h.queues := rfl
@[simp] theorem Hw.emit_ncp (h : Hw) (o : Output) : (h.emit o).ncp = h.ncp := rfl
@[simp] theorem Hw.emit_boot (h : Hw) (o : Output) : (h.emit o).boot = h.boot := rfl
@[simp] theorem Hw.emit_otp (h : Hw) (o : Output) : (h.emit o).otp = h.otp := rfl
@[simp] theorem Hw.emit_otpOp (h : Hw) (o : Output) : (h.emit o).otpOp = h.otpOp := rfl
@[simp] theorem Hw.emit_secOp (h : Hw) (o : Output) : (h.emit o).secOp = h.secOp := rfl
@[simp] theorem Hw.emit_logNext (h : Hw) (o : Output) : (h.emit o).logNext = h.logNext := rfl
@[simp] theorem Hw.emit_logLost (h : Hw) (o : Output) : (h.emit o).logLost = h.logLost := rfl
@[simp] theorem Hw.emit_bus (h : Hw) (o : Output) : (h.emit o).bus = h.bus := rfl
@[simp] theorem Hw.emit_resp (h : Hw) (o : Output) : (h.emit o).resp = h.resp := rfl
@[simp] theorem Hw.emit_pulses (h : Hw) (o : Output) : (h.emit o).pulses = h.pulses := rfl
@[simp] theorem Hw.emit_idKey (h : Hw) (o : Output) : (h.emit o).idKey = h.idKey := rfl

/-! ### draw -/

@[simp] theorem Hw.word_draw (h : Hw) (r : Reg) (j' : Nat) : (h.draw).word r j' = h.word r j' := rfl
@[simp] theorem Hw.get_draw (h : Hw) (f : Fld) (j' : Nat) : (h.draw).get f j' = h.get f j' := rfl
@[simp] theorem Hw.draw_regs (h : Hw) : (h.draw).regs = h.regs := rfl
@[simp] theorem Hw.draw_time (h : Hw) : (h.draw).time = h.time := rfl
@[simp] theorem Hw.draw_base (h : Hw) : (h.draw).base = h.base := rfl
@[simp] theorem Hw.draw_images (h : Hw) : (h.draw).images = h.images := rfl
@[simp] theorem Hw.draw_msixQ (h : Hw) : (h.draw).msixQ = h.msixQ := rfl
@[simp] theorem Hw.draw_logQ (h : Hw) : (h.draw).logQ = h.logQ := rfl
@[simp] theorem Hw.draw_out (h : Hw) : (h.draw).out = h.out := rfl
@[simp] theorem Hw.draw_lanes (h : Hw) : (h.draw).lanes = h.lanes := rfl
@[simp] theorem Hw.draw_pool (h : Hw) : (h.draw).pool = h.pool := rfl
@[simp] theorem Hw.draw_env (h : Hw) : (h.draw).env = h.env := rfl
@[simp] theorem Hw.draw_envRes (h : Hw) : (h.draw).envRes = h.envRes := rfl
@[simp] theorem Hw.draw_ledger (h : Hw) : (h.draw).ledger = h.ledger := rfl
@[simp] theorem Hw.draw_dram (h : Hw) : (h.draw).dram = h.dram := rfl
@[simp] theorem Hw.draw_xlkD (h : Hw) : (h.draw).xlkD = h.xlkD := rfl
@[simp] theorem Hw.draw_toB (h : Hw) : (h.draw).toB = h.toB := rfl
@[simp] theorem Hw.draw_toA (h : Hw) : (h.draw).toA = h.toA := rfl
@[simp] theorem Hw.draw_cfg (h : Hw) : (h.draw).cfg = h.cfg := rfl
@[simp] theorem Hw.draw_b (h : Hw) : (h.draw).b = h.b := rfl
@[simp] theorem Hw.draw_fio (h : Hw) : (h.draw).fio = h.fio := rfl
@[simp] theorem Hw.draw_applied (h : Hw) : (h.draw).applied = h.applied := rfl
@[simp] theorem Hw.draw_evA (h : Hw) : (h.draw).evA = h.evA := rfl
@[simp] theorem Hw.draw_evB (h : Hw) : (h.draw).evB = h.evB := rfl
@[simp] theorem Hw.draw_pods (h : Hw) : (h.draw).pods = h.pods := rfl
@[simp] theorem Hw.draw_priv (h : Hw) : (h.draw).priv = h.priv := rfl
@[simp] theorem Hw.draw_nps (h : Hw) : (h.draw).nps = h.nps := rfl
@[simp] theorem Hw.draw_tmr (h : Hw) : (h.draw).tmr = h.tmr := rfl
@[simp] theorem Hw.draw_crcRead (h : Hw) : (h.draw).crcRead = h.crcRead := rfl
@[simp] theorem Hw.draw_msixTbl (h : Hw) : (h.draw).msixTbl = h.msixTbl := rfl
@[simp] theorem Hw.draw_msixPba (h : Hw) : (h.draw).msixPba = h.msixPba := rfl
@[simp] theorem Hw.draw_queues (h : Hw) : (h.draw).queues = h.queues := rfl
@[simp] theorem Hw.draw_ncp (h : Hw) : (h.draw).ncp = h.ncp := rfl
@[simp] theorem Hw.draw_boot (h : Hw) : (h.draw).boot = h.boot := rfl
@[simp] theorem Hw.draw_otp (h : Hw) : (h.draw).otp = h.otp := rfl
@[simp] theorem Hw.draw_otpOp (h : Hw) : (h.draw).otpOp = h.otpOp := rfl
@[simp] theorem Hw.draw_secOp (h : Hw) : (h.draw).secOp = h.secOp := rfl
@[simp] theorem Hw.draw_logNext (h : Hw) : (h.draw).logNext = h.logNext := rfl
@[simp] theorem Hw.draw_logLost (h : Hw) : (h.draw).logLost = h.logLost := rfl
@[simp] theorem Hw.draw_bus (h : Hw) : (h.draw).bus = h.bus := rfl
@[simp] theorem Hw.draw_resp (h : Hw) : (h.draw).resp = h.resp := rfl
@[simp] theorem Hw.draw_pulses (h : Hw) : (h.draw).pulses = h.pulses := rfl
@[simp] theorem Hw.draw_idKey (h : Hw) : (h.draw).idKey = h.idKey := rfl

/-! ### log -/

@[simp] theorem Hw.word_log (h : Hw) (c k j : Nat) (d : List Byte) (r : Reg) (j' : Nat) : (h.log c k j d).word r j' = h.word r j' := rfl
@[simp] theorem Hw.get_log (h : Hw) (c k j : Nat) (d : List Byte) (f : Fld) (j' : Nat) : (h.log c k j d).get f j' = h.get f j' := rfl
@[simp] theorem Hw.log_regs (h : Hw) (c k j : Nat) (d : List Byte) : (h.log c k j d).regs = h.regs := rfl
@[simp] theorem Hw.log_time (h : Hw) (c k j : Nat) (d : List Byte) : (h.log c k j d).time = h.time := rfl
@[simp] theorem Hw.log_base (h : Hw) (c k j : Nat) (d : List Byte) : (h.log c k j d).base = h.base := rfl
@[simp] theorem Hw.log_draws (h : Hw) (c k j : Nat) (d : List Byte) : (h.log c k j d).draws = h.draws := rfl
@[simp] theorem Hw.log_images (h : Hw) (c k j : Nat) (d : List Byte) : (h.log c k j d).images = h.images := rfl
@[simp] theorem Hw.log_msixQ (h : Hw) (c k j : Nat) (d : List Byte) : (h.log c k j d).msixQ = h.msixQ := rfl
@[simp] theorem Hw.log_out (h : Hw) (c k j : Nat) (d : List Byte) : (h.log c k j d).out = h.out := rfl
@[simp] theorem Hw.log_lanes (h : Hw) (c k j : Nat) (d : List Byte) : (h.log c k j d).lanes = h.lanes := rfl
@[simp] theorem Hw.log_pool (h : Hw) (c k j : Nat) (d : List Byte) : (h.log c k j d).pool = h.pool := rfl
@[simp] theorem Hw.log_env (h : Hw) (c k j : Nat) (d : List Byte) : (h.log c k j d).env = h.env := rfl
@[simp] theorem Hw.log_envRes (h : Hw) (c k j : Nat) (d : List Byte) : (h.log c k j d).envRes = h.envRes := rfl
@[simp] theorem Hw.log_ledger (h : Hw) (c k j : Nat) (d : List Byte) : (h.log c k j d).ledger = h.ledger := rfl
@[simp] theorem Hw.log_dram (h : Hw) (c k j : Nat) (d : List Byte) : (h.log c k j d).dram = h.dram := rfl
@[simp] theorem Hw.log_xlkD (h : Hw) (c k j : Nat) (d : List Byte) : (h.log c k j d).xlkD = h.xlkD := rfl
@[simp] theorem Hw.log_toB (h : Hw) (c k j : Nat) (d : List Byte) : (h.log c k j d).toB = h.toB := rfl
@[simp] theorem Hw.log_toA (h : Hw) (c k j : Nat) (d : List Byte) : (h.log c k j d).toA = h.toA := rfl
@[simp] theorem Hw.log_cfg (h : Hw) (c k j : Nat) (d : List Byte) : (h.log c k j d).cfg = h.cfg := rfl
@[simp] theorem Hw.log_b (h : Hw) (c k j : Nat) (d : List Byte) : (h.log c k j d).b = h.b := rfl
@[simp] theorem Hw.log_fio (h : Hw) (c k j : Nat) (d : List Byte) : (h.log c k j d).fio = h.fio := rfl
@[simp] theorem Hw.log_applied (h : Hw) (c k j : Nat) (d : List Byte) : (h.log c k j d).applied = h.applied := rfl
@[simp] theorem Hw.log_evA (h : Hw) (c k j : Nat) (d : List Byte) : (h.log c k j d).evA = h.evA := rfl
@[simp] theorem Hw.log_evB (h : Hw) (c k j : Nat) (d : List Byte) : (h.log c k j d).evB = h.evB := rfl
@[simp] theorem Hw.log_pods (h : Hw) (c k j : Nat) (d : List Byte) : (h.log c k j d).pods = h.pods := rfl
@[simp] theorem Hw.log_priv (h : Hw) (c k j : Nat) (d : List Byte) : (h.log c k j d).priv = h.priv := rfl
@[simp] theorem Hw.log_nps (h : Hw) (c k j : Nat) (d : List Byte) : (h.log c k j d).nps = h.nps := rfl
@[simp] theorem Hw.log_tmr (h : Hw) (c k j : Nat) (d : List Byte) : (h.log c k j d).tmr = h.tmr := rfl
@[simp] theorem Hw.log_crcRead (h : Hw) (c k j : Nat) (d : List Byte) : (h.log c k j d).crcRead = h.crcRead := rfl
@[simp] theorem Hw.log_msixTbl (h : Hw) (c k j : Nat) (d : List Byte) : (h.log c k j d).msixTbl = h.msixTbl := rfl
@[simp] theorem Hw.log_msixPba (h : Hw) (c k j : Nat) (d : List Byte) : (h.log c k j d).msixPba = h.msixPba := rfl
@[simp] theorem Hw.log_queues (h : Hw) (c k j : Nat) (d : List Byte) : (h.log c k j d).queues = h.queues := rfl
@[simp] theorem Hw.log_ncp (h : Hw) (c k j : Nat) (d : List Byte) : (h.log c k j d).ncp = h.ncp := rfl
@[simp] theorem Hw.log_boot (h : Hw) (c k j : Nat) (d : List Byte) : (h.log c k j d).boot = h.boot := rfl
@[simp] theorem Hw.log_otp (h : Hw) (c k j : Nat) (d : List Byte) : (h.log c k j d).otp = h.otp := rfl
@[simp] theorem Hw.log_otpOp (h : Hw) (c k j : Nat) (d : List Byte) : (h.log c k j d).otpOp = h.otpOp := rfl
@[simp] theorem Hw.log_secOp (h : Hw) (c k j : Nat) (d : List Byte) : (h.log c k j d).secOp = h.secOp := rfl
@[simp] theorem Hw.log_logNext (h : Hw) (c k j : Nat) (d : List Byte) : (h.log c k j d).logNext = h.logNext := rfl
@[simp] theorem Hw.log_logLost (h : Hw) (c k j : Nat) (d : List Byte) : (h.log c k j d).logLost = h.logLost := rfl
@[simp] theorem Hw.log_bus (h : Hw) (c k j : Nat) (d : List Byte) : (h.log c k j d).bus = h.bus := rfl
@[simp] theorem Hw.log_resp (h : Hw) (c k j : Nat) (d : List Byte) : (h.log c k j d).resp = h.resp := rfl
@[simp] theorem Hw.log_pulses (h : Hw) (c k j : Nat) (d : List Byte) : (h.log c k j d).pulses = h.pulses := rfl
@[simp] theorem Hw.log_idKey (h : Hw) (c k j : Nat) (d : List Byte) : (h.log c k j d).idKey = h.idKey := rfl

/-! ### Events -/

@[simp] theorem Hw.queueMsix_regs (h : Hw) (e : Nat) : (h.queueMsix e).regs = h.regs := by unfold Hw.queueMsix; split <;> rfl

@[simp] theorem Hw.word_pulse (h : Hw) (e : Nat) (r : Reg) (n : Nat) : (h.pulse e).word r n = h.word r n := rfl
@[simp] theorem Hw.get_pulse (h : Hw) (e : Nat) (f : Fld) (n : Nat) : (h.pulse e).get f n = h.get f n := rfl

/-- Raising an event changes the pending bits or the merge count, the queues of event messages and log records, and the pulses
that timers look at. -/
theorem Hw.raiseAt_eq (h : Hw) (e i : Nat) :
    h.raiseAt e i =
      { h with
        regs := (h.raiseAt e i).regs, msixQ := (h.raiseAt e i).msixQ, logQ := (h.raiseAt e i).logQ,
        pulses := (h.raiseAt e i).pulses } := by
  unfold Hw.raiseAt Hw.queueMsix
  split
  · rfl
  · split <;> rfl

theorem Hw.word_raiseAt (h : Hw) (e i : Nat) {r : Reg} (n : Nat) (h1 : r ≠ .EVT_PEND) (h2 : r ≠ .EVT_MERGECNT) :
    (h.raiseAt e i).word r n = h.word r n := by
  unfold Hw.raiseAt
  split
  · rw [Hw.word_pulse]; exact Hw.word_set_reg _ _ _ _ (Ne.symm h2)
  · simp only [Hw.word_pulse, Hw.word_log, Hw.setBit]
    rw [show ∀ x : Hw, (x.queueMsix e).word r n = x.word r n from fun x => by simp [Hw.word]]
    exact Hw.word_set_reg _ _ _ _ (Ne.symm h1)

theorem Hw.get_raiseAt (h : Hw) (e i : Nat) {f : Fld} (n : Nat) (h1 : f.reg ≠ .EVT_PEND) (h2 : f.reg ≠ .EVT_MERGECNT) :
    (h.raiseAt e i).get f n = h.get f n := Hw.get_of_word (Hw.word_raiseAt h e i n h1 h2)

theorem Hw.word_raise (h : Hw) (e : Nat) {r : Reg} (n : Nat) (h1 : r ≠ .EVT_PEND) (h2 : r ≠ .EVT_MERGECNT) :
    (h.raise e).word r n = h.word r n := Hw.word_raiseAt h e _ n h1 h2

theorem Hw.get_raise (h : Hw) (e : Nat) {f : Fld} (n : Nat) (h1 : f.reg ≠ .EVT_PEND) (h2 : f.reg ≠ .EVT_MERGECNT) :
    (h.raise e).get f n = h.get f n := Hw.get_of_word (Hw.word_raise h e n h1 h2)

@[simp] theorem Hw.raiseAt_time (h : Hw) (e i : Nat) : (h.raiseAt e i).time = h.time := by rw [Hw.raiseAt_eq]
@[simp] theorem Hw.raise_time (h : Hw) (e : Nat) : (h.raise e).time = h.time := Hw.raiseAt_time h e _
@[simp] theorem Hw.raiseAt_base (h : Hw) (e i : Nat) : (h.raiseAt e i).base = h.base := by rw [Hw.raiseAt_eq]
@[simp] theorem Hw.raise_base (h : Hw) (e : Nat) : (h.raise e).base = h.base := Hw.raiseAt_base h e _
@[simp] theorem Hw.raiseAt_draws (h : Hw) (e i : Nat) : (h.raiseAt e i).draws = h.draws := by rw [Hw.raiseAt_eq]
@[simp] theorem Hw.raise_draws (h : Hw) (e : Nat) : (h.raise e).draws = h.draws := Hw.raiseAt_draws h e _
@[simp] theorem Hw.raiseAt_images (h : Hw) (e i : Nat) : (h.raiseAt e i).images = h.images := by rw [Hw.raiseAt_eq]
@[simp] theorem Hw.raise_images (h : Hw) (e : Nat) : (h.raise e).images = h.images := Hw.raiseAt_images h e _
@[simp] theorem Hw.raiseAt_out (h : Hw) (e i : Nat) : (h.raiseAt e i).out = h.out := by rw [Hw.raiseAt_eq]
@[simp] theorem Hw.raise_out (h : Hw) (e : Nat) : (h.raise e).out = h.out := Hw.raiseAt_out h e _
@[simp] theorem Hw.raiseAt_lanes (h : Hw) (e i : Nat) : (h.raiseAt e i).lanes = h.lanes := by rw [Hw.raiseAt_eq]
@[simp] theorem Hw.raise_lanes (h : Hw) (e : Nat) : (h.raise e).lanes = h.lanes := Hw.raiseAt_lanes h e _
@[simp] theorem Hw.raiseAt_pool (h : Hw) (e i : Nat) : (h.raiseAt e i).pool = h.pool := by rw [Hw.raiseAt_eq]
@[simp] theorem Hw.raise_pool (h : Hw) (e : Nat) : (h.raise e).pool = h.pool := Hw.raiseAt_pool h e _
@[simp] theorem Hw.raiseAt_env (h : Hw) (e i : Nat) : (h.raiseAt e i).env = h.env := by rw [Hw.raiseAt_eq]
@[simp] theorem Hw.raise_env (h : Hw) (e : Nat) : (h.raise e).env = h.env := Hw.raiseAt_env h e _
@[simp] theorem Hw.raiseAt_envRes (h : Hw) (e i : Nat) : (h.raiseAt e i).envRes = h.envRes := by rw [Hw.raiseAt_eq]
@[simp] theorem Hw.raise_envRes (h : Hw) (e : Nat) : (h.raise e).envRes = h.envRes := Hw.raiseAt_envRes h e _
@[simp] theorem Hw.raiseAt_ledger (h : Hw) (e i : Nat) : (h.raiseAt e i).ledger = h.ledger := by rw [Hw.raiseAt_eq]
@[simp] theorem Hw.raise_ledger (h : Hw) (e : Nat) : (h.raise e).ledger = h.ledger := Hw.raiseAt_ledger h e _
@[simp] theorem Hw.raiseAt_dram (h : Hw) (e i : Nat) : (h.raiseAt e i).dram = h.dram := by rw [Hw.raiseAt_eq]
@[simp] theorem Hw.raise_dram (h : Hw) (e : Nat) : (h.raise e).dram = h.dram := Hw.raiseAt_dram h e _
@[simp] theorem Hw.raiseAt_xlkD (h : Hw) (e i : Nat) : (h.raiseAt e i).xlkD = h.xlkD := by rw [Hw.raiseAt_eq]
@[simp] theorem Hw.raise_xlkD (h : Hw) (e : Nat) : (h.raise e).xlkD = h.xlkD := Hw.raiseAt_xlkD h e _
@[simp] theorem Hw.raiseAt_toB (h : Hw) (e i : Nat) : (h.raiseAt e i).toB = h.toB := by rw [Hw.raiseAt_eq]
@[simp] theorem Hw.raise_toB (h : Hw) (e : Nat) : (h.raise e).toB = h.toB := Hw.raiseAt_toB h e _
@[simp] theorem Hw.raiseAt_toA (h : Hw) (e i : Nat) : (h.raiseAt e i).toA = h.toA := by rw [Hw.raiseAt_eq]
@[simp] theorem Hw.raise_toA (h : Hw) (e : Nat) : (h.raise e).toA = h.toA := Hw.raiseAt_toA h e _
@[simp] theorem Hw.raiseAt_cfg (h : Hw) (e i : Nat) : (h.raiseAt e i).cfg = h.cfg := by rw [Hw.raiseAt_eq]
@[simp] theorem Hw.raise_cfg (h : Hw) (e : Nat) : (h.raise e).cfg = h.cfg := Hw.raiseAt_cfg h e _
@[simp] theorem Hw.raiseAt_b (h : Hw) (e i : Nat) : (h.raiseAt e i).b = h.b := by rw [Hw.raiseAt_eq]
@[simp] theorem Hw.raise_b (h : Hw) (e : Nat) : (h.raise e).b = h.b := Hw.raiseAt_b h e _
@[simp] theorem Hw.raiseAt_fio (h : Hw) (e i : Nat) : (h.raiseAt e i).fio = h.fio := by rw [Hw.raiseAt_eq]
@[simp] theorem Hw.raise_fio (h : Hw) (e : Nat) : (h.raise e).fio = h.fio := Hw.raiseAt_fio h e _
@[simp] theorem Hw.raiseAt_applied (h : Hw) (e i : Nat) : (h.raiseAt e i).applied = h.applied := by rw [Hw.raiseAt_eq]
@[simp] theorem Hw.raise_applied (h : Hw) (e : Nat) : (h.raise e).applied = h.applied := Hw.raiseAt_applied h e _
@[simp] theorem Hw.raiseAt_evA (h : Hw) (e i : Nat) : (h.raiseAt e i).evA = h.evA := by rw [Hw.raiseAt_eq]
@[simp] theorem Hw.raise_evA (h : Hw) (e : Nat) : (h.raise e).evA = h.evA := Hw.raiseAt_evA h e _
@[simp] theorem Hw.raiseAt_evB (h : Hw) (e i : Nat) : (h.raiseAt e i).evB = h.evB := by rw [Hw.raiseAt_eq]
@[simp] theorem Hw.raise_evB (h : Hw) (e : Nat) : (h.raise e).evB = h.evB := Hw.raiseAt_evB h e _
@[simp] theorem Hw.raiseAt_pods (h : Hw) (e i : Nat) : (h.raiseAt e i).pods = h.pods := by rw [Hw.raiseAt_eq]
@[simp] theorem Hw.raise_pods (h : Hw) (e : Nat) : (h.raise e).pods = h.pods := Hw.raiseAt_pods h e _
@[simp] theorem Hw.raiseAt_priv (h : Hw) (e i : Nat) : (h.raiseAt e i).priv = h.priv := by rw [Hw.raiseAt_eq]
@[simp] theorem Hw.raise_priv (h : Hw) (e : Nat) : (h.raise e).priv = h.priv := Hw.raiseAt_priv h e _
@[simp] theorem Hw.raiseAt_nps (h : Hw) (e i : Nat) : (h.raiseAt e i).nps = h.nps := by rw [Hw.raiseAt_eq]
@[simp] theorem Hw.raise_nps (h : Hw) (e : Nat) : (h.raise e).nps = h.nps := Hw.raiseAt_nps h e _
@[simp] theorem Hw.raiseAt_tmr (h : Hw) (e i : Nat) : (h.raiseAt e i).tmr = h.tmr := by rw [Hw.raiseAt_eq]
@[simp] theorem Hw.raise_tmr (h : Hw) (e : Nat) : (h.raise e).tmr = h.tmr := Hw.raiseAt_tmr h e _
@[simp] theorem Hw.raiseAt_crcRead (h : Hw) (e i : Nat) : (h.raiseAt e i).crcRead = h.crcRead := by rw [Hw.raiseAt_eq]
@[simp] theorem Hw.raise_crcRead (h : Hw) (e : Nat) : (h.raise e).crcRead = h.crcRead := Hw.raiseAt_crcRead h e _
@[simp] theorem Hw.raiseAt_msixTbl (h : Hw) (e i : Nat) : (h.raiseAt e i).msixTbl = h.msixTbl := by rw [Hw.raiseAt_eq]
@[simp] theorem Hw.raise_msixTbl (h : Hw) (e : Nat) : (h.raise e).msixTbl = h.msixTbl := Hw.raiseAt_msixTbl h e _
@[simp] theorem Hw.raiseAt_msixPba (h : Hw) (e i : Nat) : (h.raiseAt e i).msixPba = h.msixPba := by rw [Hw.raiseAt_eq]
@[simp] theorem Hw.raise_msixPba (h : Hw) (e : Nat) : (h.raise e).msixPba = h.msixPba := Hw.raiseAt_msixPba h e _
@[simp] theorem Hw.raiseAt_queues (h : Hw) (e i : Nat) : (h.raiseAt e i).queues = h.queues := by rw [Hw.raiseAt_eq]
@[simp] theorem Hw.raise_queues (h : Hw) (e : Nat) : (h.raise e).queues = h.queues := Hw.raiseAt_queues h e _
@[simp] theorem Hw.raiseAt_ncp (h : Hw) (e i : Nat) : (h.raiseAt e i).ncp = h.ncp := by rw [Hw.raiseAt_eq]
@[simp] theorem Hw.raise_ncp (h : Hw) (e : Nat) : (h.raise e).ncp = h.ncp := Hw.raiseAt_ncp h e _
@[simp] theorem Hw.raiseAt_boot (h : Hw) (e i : Nat) : (h.raiseAt e i).boot = h.boot := by rw [Hw.raiseAt_eq]
@[simp] theorem Hw.raise_boot (h : Hw) (e : Nat) : (h.raise e).boot = h.boot := Hw.raiseAt_boot h e _
@[simp] theorem Hw.raiseAt_otp (h : Hw) (e i : Nat) : (h.raiseAt e i).otp = h.otp := by rw [Hw.raiseAt_eq]
@[simp] theorem Hw.raise_otp (h : Hw) (e : Nat) : (h.raise e).otp = h.otp := Hw.raiseAt_otp h e _
@[simp] theorem Hw.raiseAt_otpOp (h : Hw) (e i : Nat) : (h.raiseAt e i).otpOp = h.otpOp := by rw [Hw.raiseAt_eq]
@[simp] theorem Hw.raise_otpOp (h : Hw) (e : Nat) : (h.raise e).otpOp = h.otpOp := Hw.raiseAt_otpOp h e _
@[simp] theorem Hw.raiseAt_secOp (h : Hw) (e i : Nat) : (h.raiseAt e i).secOp = h.secOp := by rw [Hw.raiseAt_eq]
@[simp] theorem Hw.raise_secOp (h : Hw) (e : Nat) : (h.raise e).secOp = h.secOp := Hw.raiseAt_secOp h e _
@[simp] theorem Hw.raiseAt_logNext (h : Hw) (e i : Nat) : (h.raiseAt e i).logNext = h.logNext := by rw [Hw.raiseAt_eq]
@[simp] theorem Hw.raise_logNext (h : Hw) (e : Nat) : (h.raise e).logNext = h.logNext := Hw.raiseAt_logNext h e _
@[simp] theorem Hw.raiseAt_logLost (h : Hw) (e i : Nat) : (h.raiseAt e i).logLost = h.logLost := by rw [Hw.raiseAt_eq]
@[simp] theorem Hw.raise_logLost (h : Hw) (e : Nat) : (h.raise e).logLost = h.logLost := Hw.raiseAt_logLost h e _
@[simp] theorem Hw.raiseAt_bus (h : Hw) (e i : Nat) : (h.raiseAt e i).bus = h.bus := by rw [Hw.raiseAt_eq]
@[simp] theorem Hw.raiseAt_resp (h : Hw) (e i : Nat) : (h.raiseAt e i).resp = h.resp := by rw [Hw.raiseAt_eq]
@[simp] theorem Hw.raise_bus (h : Hw) (e : Nat) : (h.raise e).bus = h.bus := Hw.raiseAt_bus h e _
@[simp] theorem Hw.raise_resp (h : Hw) (e : Nat) : (h.raise e).resp = h.resp := Hw.raiseAt_resp h e _
@[simp] theorem Hw.raiseAt_idKey (h : Hw) (e i : Nat) : (h.raiseAt e i).idKey = h.idKey := by rw [Hw.raiseAt_eq]
@[simp] theorem Hw.raise_idKey (h : Hw) (e : Nat) : (h.raise e).idKey = h.idKey := Hw.raiseAt_idKey h e _

theorem nsetBit_testBit (v k : Nat) (b : Bool) : (nsetBit v k b).testBit k = b := by
  unfold nsetBit nbit
  split
  · assumption
  · next h =>
    cases b
    · have hk : v.testBit k = true := by simpa using h
      simp only [Bool.false_eq_true, if_false]
      have := Nat.testBit_two_pow_add_eq (v - 2 ^ k) k
      rw [Nat.add_sub_cancel' (Nat.ge_two_pow_of_testBit hk)] at this
      rw [hk] at this
      simpa using this
    · have hk : v.testBit k = false := by simpa using h
      simp only [if_true]
      rw [Nat.add_comm, Nat.testBit_two_pow_add_eq, hk]
      rfl

/-- A raised event is pending (R375). -/
theorem Hw.raiseAt_pending (h : Hw) (e i : Nat) : (h.raiseAt e i).bitOf F.EVT_PEND_PEND (e / 32) (e % 32) = true := by
  have hlt : e % 32 < 32 := Nat.mod_lt _ (by decide)
  unfold Hw.raiseAt
  split
  · next hp =>
    simp only [Hw.bitOf, Hw.bump, Hw.get_pulse] at hp ⊢
    rw [Hw.get_set_reg _ _ _ _ (by decide)]
    exact hp
  · simp only [Hw.bitOf, Hw.get_pulse, Hw.get_log]
    rw [show ∀ x : Hw, (x.queueMsix e).get F.EVT_PEND_PEND (e / 32) = x.get F.EVT_PEND_PEND (e / 32) from fun x => by
      simp [Hw.get, Hw.word]]
    rw [Hw.setBit, Hw.get_set_same _ _ _ _ (by decide)]
    have : F.EVT_PEND_PEND.w = 32 := rfl
    rw [this, Nat.testBit_mod_two_pow]
    simp [hlt, nsetBit_testBit]

theorem Hw.raise_pending (h : Hw) (e : Nat) : (h.raise e).bitOf F.EVT_PEND_PEND (e / 32) (e % 32) = true :=
  Hw.raiseAt_pending h e _

/-! ### Messages between the dies, and lane transmitters -/

@[simp] theorem Hw.sendB_time (h : Hw) (m : AtoB) : (h.sendB m).time = h.time := by unfold Hw.sendB; split <;> (try split) <;> rfl
@[simp] theorem Hw.sendB_base (h : Hw) (m : AtoB) : (h.sendB m).base = h.base := by unfold Hw.sendB; split <;> (try split) <;> rfl
@[simp] theorem Hw.sendB_draws (h : Hw) (m : AtoB) : (h.sendB m).draws = h.draws := by unfold Hw.sendB; split <;> (try split) <;> rfl
@[simp] theorem Hw.sendB_images (h : Hw) (m : AtoB) : (h.sendB m).images = h.images := by unfold Hw.sendB; split <;> (try split) <;> rfl
@[simp] theorem Hw.sendB_msixQ (h : Hw) (m : AtoB) : (h.sendB m).msixQ = h.msixQ := by unfold Hw.sendB; split <;> (try split) <;> rfl
@[simp] theorem Hw.sendB_logQ (h : Hw) (m : AtoB) : (h.sendB m).logQ = h.logQ := by unfold Hw.sendB; split <;> (try split) <;> rfl
@[simp] theorem Hw.sendB_out (h : Hw) (m : AtoB) : (h.sendB m).out = h.out := by unfold Hw.sendB; split <;> (try split) <;> rfl
@[simp] theorem Hw.sendB_lanes (h : Hw) (m : AtoB) : (h.sendB m).lanes = h.lanes := by unfold Hw.sendB; split <;> (try split) <;> rfl
@[simp] theorem Hw.sendB_pool (h : Hw) (m : AtoB) : (h.sendB m).pool = h.pool := by unfold Hw.sendB; split <;> (try split) <;> rfl
@[simp] theorem Hw.sendB_env (h : Hw) (m : AtoB) : (h.sendB m).env = h.env := by unfold Hw.sendB; split <;> (try split) <;> rfl
@[simp] theorem Hw.sendB_envRes (h : Hw) (m : AtoB) : (h.sendB m).envRes = h.envRes := by unfold Hw.sendB; split <;> (try split) <;> rfl
@[simp] theorem Hw.sendB_ledger (h : Hw) (m : AtoB) : (h.sendB m).ledger = h.ledger := by unfold Hw.sendB; split <;> (try split) <;> rfl
@[simp] theorem Hw.sendB_dram (h : Hw) (m : AtoB) : (h.sendB m).dram = h.dram := by unfold Hw.sendB; split <;> (try split) <;> rfl
@[simp] theorem Hw.sendB_xlkD (h : Hw) (m : AtoB) : (h.sendB m).xlkD = h.xlkD := by unfold Hw.sendB; split <;> (try split) <;> rfl
@[simp] theorem Hw.sendB_toA (h : Hw) (m : AtoB) : (h.sendB m).toA = h.toA := by unfold Hw.sendB; split <;> (try split) <;> rfl
@[simp] theorem Hw.sendB_cfg (h : Hw) (m : AtoB) : (h.sendB m).cfg = h.cfg := by unfold Hw.sendB; split <;> (try split) <;> rfl
@[simp] theorem Hw.sendB_b (h : Hw) (m : AtoB) : (h.sendB m).b = h.b := by unfold Hw.sendB; split <;> (try split) <;> rfl
@[simp] theorem Hw.sendB_fio (h : Hw) (m : AtoB) : (h.sendB m).fio = h.fio := by unfold Hw.sendB; split <;> (try split) <;> rfl
@[simp] theorem Hw.sendB_applied (h : Hw) (m : AtoB) : (h.sendB m).applied = h.applied := by unfold Hw.sendB; split <;> (try split) <;> rfl
@[simp] theorem Hw.sendB_evA (h : Hw) (m : AtoB) : (h.sendB m).evA = h.evA := by unfold Hw.sendB; split <;> (try split) <;> rfl
@[simp] theorem Hw.sendB_evB (h : Hw) (m : AtoB) : (h.sendB m).evB = h.evB := by unfold Hw.sendB; split <;> (try split) <;> rfl
@[simp] theorem Hw.sendB_pods (h : Hw) (m : AtoB) : (h.sendB m).pods = h.pods := by unfold Hw.sendB; split <;> (try split) <;> rfl
@[simp] theorem Hw.sendB_priv (h : Hw) (m : AtoB) : (h.sendB m).priv = h.priv := by unfold Hw.sendB; split <;> (try split) <;> rfl
@[simp] theorem Hw.sendB_nps (h : Hw) (m : AtoB) : (h.sendB m).nps = h.nps := by unfold Hw.sendB; split <;> (try split) <;> rfl
@[simp] theorem Hw.sendB_tmr (h : Hw) (m : AtoB) : (h.sendB m).tmr = h.tmr := by unfold Hw.sendB; split <;> (try split) <;> rfl
@[simp] theorem Hw.sendB_crcRead (h : Hw) (m : AtoB) : (h.sendB m).crcRead = h.crcRead := by unfold Hw.sendB; split <;> (try split) <;> rfl
@[simp] theorem Hw.sendB_msixTbl (h : Hw) (m : AtoB) : (h.sendB m).msixTbl = h.msixTbl := by unfold Hw.sendB; split <;> (try split) <;> rfl
@[simp] theorem Hw.sendB_msixPba (h : Hw) (m : AtoB) : (h.sendB m).msixPba = h.msixPba := by unfold Hw.sendB; split <;> (try split) <;> rfl
@[simp] theorem Hw.sendB_queues (h : Hw) (m : AtoB) : (h.sendB m).queues = h.queues := by unfold Hw.sendB; split <;> (try split) <;> rfl
@[simp] theorem Hw.sendB_ncp (h : Hw) (m : AtoB) : (h.sendB m).ncp = h.ncp := by unfold Hw.sendB; split <;> (try split) <;> rfl
@[simp] theorem Hw.sendB_boot (h : Hw) (m : AtoB) : (h.sendB m).boot = h.boot := by unfold Hw.sendB; split <;> (try split) <;> rfl
@[simp] theorem Hw.sendB_otp (h : Hw) (m : AtoB) : (h.sendB m).otp = h.otp := by unfold Hw.sendB; split <;> (try split) <;> rfl
@[simp] theorem Hw.sendB_otpOp (h : Hw) (m : AtoB) : (h.sendB m).otpOp = h.otpOp := by unfold Hw.sendB; split <;> (try split) <;> rfl
@[simp] theorem Hw.sendB_secOp (h : Hw) (m : AtoB) : (h.sendB m).secOp = h.secOp := by unfold Hw.sendB; split <;> (try split) <;> rfl
@[simp] theorem Hw.sendB_logNext (h : Hw) (m : AtoB) : (h.sendB m).logNext = h.logNext := by unfold Hw.sendB; split <;> (try split) <;> rfl
@[simp] theorem Hw.sendB_logLost (h : Hw) (m : AtoB) : (h.sendB m).logLost = h.logLost := by unfold Hw.sendB; split <;> (try split) <;> rfl
@[simp] theorem Hw.sendB_bus (h : Hw) (m : AtoB) : (h.sendB m).bus = h.bus := by unfold Hw.sendB; split <;> (try split) <;> rfl
@[simp] theorem Hw.sendB_resp (h : Hw) (m : AtoB) : (h.sendB m).resp = h.resp := by unfold Hw.sendB; split <;> (try split) <;> rfl
@[simp] theorem Hw.sendB_pulses (h : Hw) (m : AtoB) : (h.sendB m).pulses = h.pulses := by unfold Hw.sendB; split <;> (try split) <;> rfl
@[simp] theorem Hw.sendB_idKey (h : Hw) (m : AtoB) : (h.sendB m).idKey = h.idKey := by unfold Hw.sendB; split <;> (try split) <;> rfl
@[simp] theorem Hw.sendA_time (h : Hw) (m : BtoA) : (h.sendA m).time = h.time := by unfold Hw.sendA; split <;> (try split) <;> rfl
@[simp] theorem Hw.sendA_base (h : Hw) (m : BtoA) : (h.sendA m).base = h.base := by unfold Hw.sendA; split <;> (try split) <;> rfl
@[simp] theorem Hw.sendA_draws (h : Hw) (m : BtoA) : (h.sendA m).draws = h.draws := by unfold Hw.sendA; split <;> (try split) <;> rfl
@[simp] theorem Hw.sendA_images (h : Hw) (m : BtoA) : (h.sendA m).images = h.images := by unfold Hw.sendA; split <;> (try split) <;> rfl
@[simp] theorem Hw.sendA_msixQ (h : Hw) (m : BtoA) : (h.sendA m).msixQ = h.msixQ := by unfold Hw.sendA; split <;> (try split) <;> rfl
@[simp] theorem Hw.sendA_logQ (h : Hw) (m : BtoA) : (h.sendA m).logQ = h.logQ := by unfold Hw.sendA; split <;> (try split) <;> rfl
@[simp] theorem Hw.sendA_out (h : Hw) (m : BtoA) : (h.sendA m).out = h.out := by unfold Hw.sendA; split <;> (try split) <;> rfl
@[simp] theorem Hw.sendA_lanes (h : Hw) (m : BtoA) : (h.sendA m).lanes = h.lanes := by unfold Hw.sendA; split <;> (try split) <;> rfl
@[simp] theorem Hw.sendA_pool (h : Hw) (m : BtoA) : (h.sendA m).pool = h.pool := by unfold Hw.sendA; split <;> (try split) <;> rfl
@[simp] theorem Hw.sendA_env (h : Hw) (m : BtoA) : (h.sendA m).env = h.env := by unfold Hw.sendA; split <;> (try split) <;> rfl
@[simp] theorem Hw.sendA_envRes (h : Hw) (m : BtoA) : (h.sendA m).envRes = h.envRes := by unfold Hw.sendA; split <;> (try split) <;> rfl
@[simp] theorem Hw.sendA_ledger (h : Hw) (m : BtoA) : (h.sendA m).ledger = h.ledger := by unfold Hw.sendA; split <;> (try split) <;> rfl
@[simp] theorem Hw.sendA_dram (h : Hw) (m : BtoA) : (h.sendA m).dram = h.dram := by unfold Hw.sendA; split <;> (try split) <;> rfl
@[simp] theorem Hw.sendA_xlkD (h : Hw) (m : BtoA) : (h.sendA m).xlkD = h.xlkD := by unfold Hw.sendA; split <;> (try split) <;> rfl
@[simp] theorem Hw.sendA_toB (h : Hw) (m : BtoA) : (h.sendA m).toB = h.toB := by unfold Hw.sendA; split <;> (try split) <;> rfl
@[simp] theorem Hw.sendA_cfg (h : Hw) (m : BtoA) : (h.sendA m).cfg = h.cfg := by unfold Hw.sendA; split <;> (try split) <;> rfl
@[simp] theorem Hw.sendA_b (h : Hw) (m : BtoA) : (h.sendA m).b = h.b := by unfold Hw.sendA; split <;> (try split) <;> rfl
@[simp] theorem Hw.sendA_fio (h : Hw) (m : BtoA) : (h.sendA m).fio = h.fio := by unfold Hw.sendA; split <;> (try split) <;> rfl
@[simp] theorem Hw.sendA_applied (h : Hw) (m : BtoA) : (h.sendA m).applied = h.applied := by unfold Hw.sendA; split <;> (try split) <;> rfl
@[simp] theorem Hw.sendA_evA (h : Hw) (m : BtoA) : (h.sendA m).evA = h.evA := by unfold Hw.sendA; split <;> (try split) <;> rfl
@[simp] theorem Hw.sendA_evB (h : Hw) (m : BtoA) : (h.sendA m).evB = h.evB := by unfold Hw.sendA; split <;> (try split) <;> rfl
@[simp] theorem Hw.sendA_pods (h : Hw) (m : BtoA) : (h.sendA m).pods = h.pods := by unfold Hw.sendA; split <;> (try split) <;> rfl
@[simp] theorem Hw.sendA_priv (h : Hw) (m : BtoA) : (h.sendA m).priv = h.priv := by unfold Hw.sendA; split <;> (try split) <;> rfl
@[simp] theorem Hw.sendA_nps (h : Hw) (m : BtoA) : (h.sendA m).nps = h.nps := by unfold Hw.sendA; split <;> (try split) <;> rfl
@[simp] theorem Hw.sendA_tmr (h : Hw) (m : BtoA) : (h.sendA m).tmr = h.tmr := by unfold Hw.sendA; split <;> (try split) <;> rfl
@[simp] theorem Hw.sendA_crcRead (h : Hw) (m : BtoA) : (h.sendA m).crcRead = h.crcRead := by unfold Hw.sendA; split <;> (try split) <;> rfl
@[simp] theorem Hw.sendA_msixTbl (h : Hw) (m : BtoA) : (h.sendA m).msixTbl = h.msixTbl := by unfold Hw.sendA; split <;> (try split) <;> rfl
@[simp] theorem Hw.sendA_msixPba (h : Hw) (m : BtoA) : (h.sendA m).msixPba = h.msixPba := by unfold Hw.sendA; split <;> (try split) <;> rfl
@[simp] theorem Hw.sendA_queues (h : Hw) (m : BtoA) : (h.sendA m).queues = h.queues := by unfold Hw.sendA; split <;> (try split) <;> rfl
@[simp] theorem Hw.sendA_ncp (h : Hw) (m : BtoA) : (h.sendA m).ncp = h.ncp := by unfold Hw.sendA; split <;> (try split) <;> rfl
@[simp] theorem Hw.sendA_boot (h : Hw) (m : BtoA) : (h.sendA m).boot = h.boot := by unfold Hw.sendA; split <;> (try split) <;> rfl
@[simp] theorem Hw.sendA_otp (h : Hw) (m : BtoA) : (h.sendA m).otp = h.otp := by unfold Hw.sendA; split <;> (try split) <;> rfl
@[simp] theorem Hw.sendA_otpOp (h : Hw) (m : BtoA) : (h.sendA m).otpOp = h.otpOp := by unfold Hw.sendA; split <;> (try split) <;> rfl
@[simp] theorem Hw.sendA_secOp (h : Hw) (m : BtoA) : (h.sendA m).secOp = h.secOp := by unfold Hw.sendA; split <;> (try split) <;> rfl
@[simp] theorem Hw.sendA_logNext (h : Hw) (m : BtoA) : (h.sendA m).logNext = h.logNext := by unfold Hw.sendA; split <;> (try split) <;> rfl
@[simp] theorem Hw.sendA_logLost (h : Hw) (m : BtoA) : (h.sendA m).logLost = h.logLost := by unfold Hw.sendA; split <;> (try split) <;> rfl
@[simp] theorem Hw.sendA_bus (h : Hw) (m : BtoA) : (h.sendA m).bus = h.bus := by unfold Hw.sendA; split <;> (try split) <;> rfl
@[simp] theorem Hw.sendA_resp (h : Hw) (m : BtoA) : (h.sendA m).resp = h.resp := by unfold Hw.sendA; split <;> (try split) <;> rfl
@[simp] theorem Hw.sendA_pulses (h : Hw) (m : BtoA) : (h.sendA m).pulses = h.pulses := by unfold Hw.sendA; split <;> (try split) <;> rfl
@[simp] theorem Hw.sendA_idKey (h : Hw) (m : BtoA) : (h.sendA m).idKey = h.idKey := by unfold Hw.sendA; split <;> (try split) <;> rfl
@[simp] theorem Hw.emitLane_regs (h : Hw) (o : Output) : (h.emitLane o).regs = h.regs := by unfold Hw.emitLane; split <;> (try split) <;> rfl
@[simp] theorem Hw.emitLane_time (h : Hw) (o : Output) : (h.emitLane o).time = h.time := by unfold Hw.emitLane; split <;> (try split) <;> rfl
@[simp] theorem Hw.emitLane_base (h : Hw) (o : Output) : (h.emitLane o).base = h.base := by unfold Hw.emitLane; split <;> (try split) <;> rfl
@[simp] theorem Hw.emitLane_draws (h : Hw) (o : Output) : (h.emitLane o).draws = h.draws := by unfold Hw.emitLane; split <;> (try split) <;> rfl
@[simp] theorem Hw.emitLane_images (h : Hw) (o : Output) : (h.emitLane o).images = h.images := by unfold Hw.emitLane; split <;> (try split) <;> rfl
@[simp] theorem Hw.emitLane_msixQ (h : Hw) (o : Output) : (h.emitLane o).msixQ = h.msixQ := by unfold Hw.emitLane; split <;> (try split) <;> rfl
@[simp] theorem Hw.emitLane_logQ (h : Hw) (o : Output) : (h.emitLane o).logQ = h.logQ := by unfold Hw.emitLane; split <;> (try split) <;> rfl
@[simp] theorem Hw.emitLane_lanes (h : Hw) (o : Output) : (h.emitLane o).lanes = h.lanes := by unfold Hw.emitLane; split <;> (try split) <;> rfl
@[simp] theorem Hw.emitLane_pool (h : Hw) (o : Output) : (h.emitLane o).pool = h.pool := by unfold Hw.emitLane; split <;> (try split) <;> rfl
@[simp] theorem Hw.emitLane_env (h : Hw) (o : Output) : (h.emitLane o).env = h.env := by unfold Hw.emitLane; split <;> (try split) <;> rfl
@[simp] theorem Hw.emitLane_envRes (h : Hw) (o : Output) : (h.emitLane o).envRes = h.envRes := by unfold Hw.emitLane; split <;> (try split) <;> rfl
@[simp] theorem Hw.emitLane_ledger (h : Hw) (o : Output) : (h.emitLane o).ledger = h.ledger := by unfold Hw.emitLane; split <;> (try split) <;> rfl
@[simp] theorem Hw.emitLane_dram (h : Hw) (o : Output) : (h.emitLane o).dram = h.dram := by unfold Hw.emitLane; split <;> (try split) <;> rfl
@[simp] theorem Hw.emitLane_xlkD (h : Hw) (o : Output) : (h.emitLane o).xlkD = h.xlkD := by unfold Hw.emitLane; split <;> (try split) <;> rfl
@[simp] theorem Hw.emitLane_toB (h : Hw) (o : Output) : (h.emitLane o).toB = h.toB := by unfold Hw.emitLane; split <;> (try split) <;> rfl
@[simp] theorem Hw.emitLane_toA (h : Hw) (o : Output) : (h.emitLane o).toA = h.toA := by unfold Hw.emitLane; split <;> (try split) <;> rfl
@[simp] theorem Hw.emitLane_cfg (h : Hw) (o : Output) : (h.emitLane o).cfg = h.cfg := by unfold Hw.emitLane; split <;> (try split) <;> rfl
@[simp] theorem Hw.emitLane_b (h : Hw) (o : Output) : (h.emitLane o).b = h.b := by unfold Hw.emitLane; split <;> (try split) <;> rfl
@[simp] theorem Hw.emitLane_fio (h : Hw) (o : Output) : (h.emitLane o).fio = h.fio := by unfold Hw.emitLane; split <;> (try split) <;> rfl
@[simp] theorem Hw.emitLane_applied (h : Hw) (o : Output) : (h.emitLane o).applied = h.applied := by unfold Hw.emitLane; split <;> (try split) <;> rfl
@[simp] theorem Hw.emitLane_evA (h : Hw) (o : Output) : (h.emitLane o).evA = h.evA := by unfold Hw.emitLane; split <;> (try split) <;> rfl
@[simp] theorem Hw.emitLane_evB (h : Hw) (o : Output) : (h.emitLane o).evB = h.evB := by unfold Hw.emitLane; split <;> (try split) <;> rfl
@[simp] theorem Hw.emitLane_pods (h : Hw) (o : Output) : (h.emitLane o).pods = h.pods := by unfold Hw.emitLane; split <;> (try split) <;> rfl
@[simp] theorem Hw.emitLane_priv (h : Hw) (o : Output) : (h.emitLane o).priv = h.priv := by unfold Hw.emitLane; split <;> (try split) <;> rfl
@[simp] theorem Hw.emitLane_nps (h : Hw) (o : Output) : (h.emitLane o).nps = h.nps := by unfold Hw.emitLane; split <;> (try split) <;> rfl
@[simp] theorem Hw.emitLane_tmr (h : Hw) (o : Output) : (h.emitLane o).tmr = h.tmr := by unfold Hw.emitLane; split <;> (try split) <;> rfl
@[simp] theorem Hw.emitLane_crcRead (h : Hw) (o : Output) : (h.emitLane o).crcRead = h.crcRead := by unfold Hw.emitLane; split <;> (try split) <;> rfl
@[simp] theorem Hw.emitLane_msixTbl (h : Hw) (o : Output) : (h.emitLane o).msixTbl = h.msixTbl := by unfold Hw.emitLane; split <;> (try split) <;> rfl
@[simp] theorem Hw.emitLane_msixPba (h : Hw) (o : Output) : (h.emitLane o).msixPba = h.msixPba := by unfold Hw.emitLane; split <;> (try split) <;> rfl
@[simp] theorem Hw.emitLane_queues (h : Hw) (o : Output) : (h.emitLane o).queues = h.queues := by unfold Hw.emitLane; split <;> (try split) <;> rfl
@[simp] theorem Hw.emitLane_ncp (h : Hw) (o : Output) : (h.emitLane o).ncp = h.ncp := by unfold Hw.emitLane; split <;> (try split) <;> rfl
@[simp] theorem Hw.emitLane_boot (h : Hw) (o : Output) : (h.emitLane o).boot = h.boot := by unfold Hw.emitLane; split <;> (try split) <;> rfl
@[simp] theorem Hw.emitLane_otp (h : Hw) (o : Output) : (h.emitLane o).otp = h.otp := by unfold Hw.emitLane; split <;> (try split) <;> rfl
@[simp] theorem Hw.emitLane_otpOp (h : Hw) (o : Output) : (h.emitLane o).otpOp = h.otpOp := by unfold Hw.emitLane; split <;> (try split) <;> rfl
@[simp] theorem Hw.emitLane_secOp (h : Hw) (o : Output) : (h.emitLane o).secOp = h.secOp := by unfold Hw.emitLane; split <;> (try split) <;> rfl
@[simp] theorem Hw.emitLane_logNext (h : Hw) (o : Output) : (h.emitLane o).logNext = h.logNext := by unfold Hw.emitLane; split <;> (try split) <;> rfl
@[simp] theorem Hw.emitLane_logLost (h : Hw) (o : Output) : (h.emitLane o).logLost = h.logLost := by unfold Hw.emitLane; split <;> (try split) <;> rfl
@[simp] theorem Hw.emitLane_bus (h : Hw) (o : Output) : (h.emitLane o).bus = h.bus := by unfold Hw.emitLane; split <;> (try split) <;> rfl
@[simp] theorem Hw.emitLane_resp (h : Hw) (o : Output) : (h.emitLane o).resp = h.resp := by unfold Hw.emitLane; split <;> (try split) <;> rfl
@[simp] theorem Hw.emitLane_pulses (h : Hw) (o : Output) : (h.emitLane o).pulses = h.pulses := by unfold Hw.emitLane; split <;> (try split) <;> rfl
@[simp] theorem Hw.emitLane_idKey (h : Hw) (o : Output) : (h.emitLane o).idKey = h.idKey := by unfold Hw.emitLane; split <;> (try split) <;> rfl

@[simp] theorem Hw.word_emitLane (h : Hw) (o : Output) (r : Reg) (n : Nat) : (h.emitLane o).word r n = h.word r n := by
  simp [Hw.word]
@[simp] theorem Hw.get_emitLane (h : Hw) (o : Output) (f : Fld) (n : Nat) : (h.emitLane o).get f n = h.get f n := by
  simp [Hw.get]

theorem Hw.word_sendB (h : Hw) (m : AtoB) {r : Reg} (n : Nat) (hr : r ≠ .XLK_ERR) : (h.sendB m).word r n = h.word r n := by
  unfold Hw.sendB; split
  · rfl
  · exact Hw.word_set_reg _ _ _ _ (Ne.symm hr)
theorem Hw.get_sendB (h : Hw) (m : AtoB) {f : Fld} (n : Nat) (hr : f.reg ≠ .XLK_ERR) : (h.sendB m).get f n = h.get f n :=
  Hw.get_of_word (Hw.word_sendB h m n hr)

theorem Hw.word_sendA (h : Hw) (m : BtoA) {r : Reg} (n : Nat) (hr : r ≠ .XLK_ERR) : (h.sendA m).word r n = h.word r n := by
  unfold Hw.sendA; split
  · rfl
  · split
    · rfl
    · exact Hw.word_set_reg _ _ _ _ (Ne.symm hr)
theorem Hw.get_sendA (h : Hw) (m : BtoA) {f : Fld} (n : Nat) (hr : f.reg ≠ .XLK_ERR) : (h.sendA m).get f n = h.get f n :=
  Hw.get_of_word (Hw.word_sendA h m n hr)

end Sys2Proof.Machine
end

