-- ==== Sys2Proof/Laws/Frames.lean ====
section
/-! SUPPORT. How the frames OnlyWords and OnlyRegs compose, and which of the named operations meet them. -/

namespace Sys2Proof.Machine

/-! ### Words -/

theorem Hw.OnlyWords.refl (h : Hw) (ws : List (Reg × Nat)) : h.OnlyWords h ws := ⟨rfl, fun _ _ _ _ _ => rfl⟩

theorem Hw.OnlyWords.trans {h u w : Hw} {ws : List (Reg × Nat)} (a : h.OnlyWords u ws) (b : u.OnlyWords w ws) :
    h.OnlyWords w ws := by
  refine ⟨?_, fun r n hn h1 h2 => (b.2 r n hn h1 h2).trans (a.2 r n hn h1 h2)⟩
  rw [b.1, a.1]

/-- More words may be listed. -/
theorem Hw.OnlyWords.mono {h u : Hw} {ws vs : List (Reg × Nat)} (a : h.OnlyWords u ws) (hs : ∀ x ∈ ws, x ∈ vs) :
    h.OnlyWords u vs := ⟨a.1, fun r n hn h1 h2 => a.2 r n (fun hm => hn (hs _ hm)) h1 h2⟩

theorem Hw.OnlyWords.putWord (h : Hw) (r : Reg) (n : Nat) (v : Word) {ws : List (Reg × Nat)} (hm : (r, n) ∈ ws) :
    h.OnlyWords (h.putWord r n v) ws := by
  refine ⟨rfl, fun q m hq _ _ => ?_⟩
  by_cases hr : r = q
  · subst hr
    by_cases hn : n = m
    · subst hn; exact absurd hm hq
    · exact Hw.word_putWord_idx _ _ _ hn
  · exact Hw.word_putWord_reg _ _ _ _ hr

theorem Hw.OnlyWords.set (h : Hw) (f : Fld) (n v : Nat) {ws : List (Reg × Nat)} (hm : (f.reg, n) ∈ ws) :
    h.OnlyWords (h.set f n v) ws := Hw.OnlyWords.putWord h f.reg n _ hm

theorem Hw.OnlyWords.raiseAt (h : Hw) (e i : Nat) (ws : List (Reg × Nat)) : h.OnlyWords (h.raiseAt e i) ws :=
  ⟨Hw.raiseAt_eq h e i, fun _ n _ h1 h2 => Hw.word_raiseAt h e i n h1 h2⟩

theorem Hw.OnlyWords.raise (h : Hw) (e : Nat) (ws : List (Reg × Nat)) : h.OnlyWords (h.raise e) ws :=
  Hw.OnlyWords.raiseAt h e _ ws

theorem Hw.OnlyWords.when {h : Hw} {c : Bool} {f : Hw → Hw} {ws : List (Reg × Nat)} (hf : h.OnlyWords (f h) ws) :
    h.OnlyWords (h.when c f) ws := by
  cases c
  · exact Hw.OnlyWords.refl h ws
  · exact hf

theorem Hw.OnlyWords.forEach {α : Type} {l : List α} {f : α → Hw → Hw} {ws : List (Reg × Nat)}
    (hf : ∀ x ∈ l, ∀ h : Hw, h.OnlyWords (f x h) ws) (h : Hw) : h.OnlyWords (h.forEach l f) ws := by
  unfold Hw.forEach
  induction l generalizing h with
  | nil => exact Hw.OnlyWords.refl h ws
  | cons x l ih =>
    exact (hf x List.mem_cons_self h).trans (ih (fun y hy => hf y (List.mem_cons_of_mem _ hy)) _)

/-- A word outside the list, and no event register, reads as before. -/
theorem Hw.OnlyWords.get {h u : Hw} {ws : List (Reg × Nat)} (a : h.OnlyWords u ws) {f : Fld} {n : Nat} (hn : (f.reg, n) ∉ ws)
    (h1 : f.reg ≠ .EVT_PEND) (h2 : f.reg ≠ .EVT_MERGECNT) : u.get f n = h.get f n := Hw.get_of_word (a.2 _ _ hn h1 h2)

/-! ### Registers -/

theorem Hw.OnlyRegs.refl (h : Hw) (rs : List Reg) : h.OnlyRegs h rs := ⟨rfl, fun _ _ _ _ _ => rfl⟩

theorem Hw.OnlyRegs.trans {h u w : Hw} {rs : List Reg} (a : h.OnlyRegs u rs) (b : u.OnlyRegs w rs) : h.OnlyRegs w rs := by
  refine ⟨?_, fun r n hn h1 h2 => (b.2 r n hn h1 h2).trans (a.2 r n hn h1 h2)⟩
  rw [b.1, a.1]

theorem Hw.OnlyRegs.mono {h u : Hw} {rs qs : List Reg} (a : h.OnlyRegs u rs) (hs : ∀ x ∈ rs, x ∈ qs) : h.OnlyRegs u qs :=
  ⟨a.1, fun r n hn h1 h2 => a.2 r n (fun hm => hn (hs _ hm)) h1 h2⟩

/-- A frame by words is a frame by their registers. -/
theorem Hw.OnlyWords.regs {h u : Hw} {ws : List (Reg × Nat)} {rs : List Reg} (a : h.OnlyWords u ws) (hs : ∀ x ∈ ws, x.1 ∈ rs) :
    h.OnlyRegs u rs := ⟨a.1, fun r n hn h1 h2 => a.2 r n (fun hm => hn (hs _ hm)) h1 h2⟩

theorem Hw.OnlyRegs.putWord (h : Hw) {r : Reg} (n : Nat) (v : Word) {rs : List Reg} (hm : r ∈ rs) :
    h.OnlyRegs (h.putWord r n v) rs :=
  (Hw.OnlyWords.putWord h r n v (List.mem_singleton.2 rfl)).regs fun x hx => by rw [List.mem_singleton.1 hx]; exact hm

theorem Hw.OnlyRegs.set (h : Hw) (f : Fld) (n v : Nat) {rs : List Reg} (hm : f.reg ∈ rs) : h.OnlyRegs (h.set f n v) rs :=
  Hw.OnlyRegs.putWord h n _ hm

theorem Hw.OnlyRegs.raise (h : Hw) (e : Nat) (rs : List Reg) : h.OnlyRegs (h.raise e) rs :=
  (Hw.OnlyWords.raise h e []).regs fun _ hx => absurd hx (List.not_mem_nil)

theorem Hw.OnlyRegs.when {h : Hw} {c : Bool} {f : Hw → Hw} {rs : List Reg} (hf : h.OnlyRegs (f h) rs) :
    h.OnlyRegs (h.when c f) rs := by
  cases c
  · exact Hw.OnlyRegs.refl h rs
  · exact hf

theorem Hw.OnlyRegs.forEach {α : Type} {l : List α} {f : α → Hw → Hw} {rs : List Reg}
    (hf : ∀ x ∈ l, ∀ h : Hw, h.OnlyRegs (f x h) rs) (h : Hw) : h.OnlyRegs (h.forEach l f) rs := by
  unfold Hw.forEach
  induction l generalizing h with
  | nil => exact Hw.OnlyRegs.refl h rs
  | cons x l ih =>
    exact (hf x List.mem_cons_self h).trans (ih (fun y hy => hf y (List.mem_cons_of_mem _ hy)) _)

theorem Hw.OnlyRegs.get {h u : Hw} {rs : List Reg} (a : h.OnlyRegs u rs) {f : Fld} (n : Nat) (hn : f.reg ∉ rs)
    (h1 : f.reg ≠ .EVT_PEND) (h2 : f.reg ≠ .EVT_MERGECNT) : u.get f n = h.get f n := Hw.get_of_word (a.2 _ _ hn h1 h2)

/-! ### Violations and granted writes -/

/-- An access violation writes the three registers of its record (R41). -/
theorem Hw.violation_onlyWords (h : Hw) (m a : Nat) (w : Bool) :
    h.OnlyWords (h.violation m a w) [(.GLB_AVIOL, 0), (.GLB_AVADDR, 0), (.GLB_AVCNT, 0)] := by
  have c := Hw.OnlyWords.set h F.GLB_AVCNT_COUNT 0 (min (h.get F.GLB_AVCNT_COUNT 0 + 1) (2 ^ F.GLB_AVCNT_COUNT.w - 1))
    (ws := [(.GLB_AVIOL, 0), (.GLB_AVADDR, 0), (.GLB_AVCNT, 0)]) (by decide)
  unfold Hw.violation
  dsimp only
  split
  · exact c.trans (Hw.OnlyWords.set _ _ _ _ (by decide))
  · exact c.trans ((((Hw.OnlyWords.set _ F.GLB_AVIOL_VALID 0 _ (by decide)).trans
      (Hw.OnlyWords.set _ F.GLB_AVIOL_WRITE 0 _ (by decide))).trans
      (Hw.OnlyWords.set _ F.GLB_AVIOL_MASTER 0 _ (by decide))).trans (Hw.OnlyWords.set _ F.GLB_AVADDR_ADDR 0 _ (by decide)))

/-- A granted write is what the register does with it; the mailbox data registers follow their binding instead. -/
theorem Hw.writeAccess_granted {h : Hw} {m n : Nat} {r : Reg} (nv : NonVol) (v : Word) (hg : h.granted m r n = true)
    (hr : r ∉ [Reg.MBX_MSG, .MBX_SEND, .MBX_TAKE, .MBX_STAT]) :
    h.writeAccess nv m r n v = (h.ownedWrite m r n v).getD (h.writeReg nv m r n v) := by
  simp only [Hw.granted, Bool.and_eq_true, Bool.not_eq_true', Bool.and_eq_false_iff] at hg
  obtain ⟨⟨⟨hs, hm⟩, hb⟩, hp⟩ := hg
  simp only [List.mem_cons, List.not_mem_nil, or_false, not_or] at hr
  have hsp : ¬(m < 6 ∧ h.podState m = podSplit ∧ splitMayWrite m (r.addr n) = false) := by
    rintro ⟨h1, h2, h3⟩
    simp [h1, h2, h3] at hp
  unfold Hw.writeAccess
  dsimp only
  rw [if_neg (by simp [hs])]
  split
  · exact absurd rfl hr.1
  · exact absurd rfl hr.2.1
  · exact absurd rfl hr.2.2.1
  · exact absurd rfl hr.2.2.2
  · rw [if_neg (by simp [hm]), if_neg (by simp [hb]), if_neg hsp]
    cases h.ownedWrite m r n v <;> rfl

/-- A write that a present master is granted. -/
theorem Hw.regWrite_granted {h : Hw} {m n : Nat} {r : Reg} (nv : NonVol) (v : Word) (hp : h.present m = true)
    (hg : h.tmrSettle.granted m r n = true) (hr : r ∉ [Reg.MBX_MSG, .MBX_SEND, .MBX_TAKE, .MBX_STAT]) :
    h.regWrite nv m r n v = (h.tmrSettle.ownedWrite m r n v).getD (h.tmrSettle.writeReg nv m r n v) := by
  rw [Hw.regWrite, if_pos hp, Hw.writeAccess_granted nv v hg hr]

end Sys2Proof.Machine
end

