-- ==== Sys2Proof/Laws/Lane.lean ====
section
/-! SUPPORT. Slice lanes: what a change of a lane's state writes and what it leaves. -/

namespace Sys2Proof.Machine

/-- The registers that a change of lane state may write. -/
def laneRegs : List Reg := [.LANE_STAT, .LANE_EG_STAT, .XLK_ERR, .EVT_PEND, .EVT_MERGECNT]

theorem Hw.word_sendReport (h : Hw) (m : RelReport) {r : Reg} (n : Nat) (hr : r ≠ .XLK_ERR) :
    (h.sendReport m).word r n = h.word r n := Hw.word_sendB h _ n hr

theorem Hw.word_reportDiscards (h : Hw) (n : Nat) (l : List Seg) {r : Reg} (k : Nat) (hr : r ≠ .XLK_ERR) :
    (h.reportDiscards n l).word r k = h.word r k :=
  Hw.forEach_keeps (·.word r k) (fun _ _ h => Hw.when_keeps (·.word r k) (fun h => Hw.word_sendReport h _ k hr) h) h

theorem Hw.word_discardInFlight (h : Hw) (n : Nat) {r : Reg} (k : Nat) (hr : r ≠ .XLK_ERR) :
    (h.discardInFlight n).word r k = h.word r k := by
  simp only [Hw.discardInFlight, Hw.word_updLane]
  exact Hw.word_reportDiscards h n _ k hr

theorem Hw.word_dropEgress (h : Hw) (n : Nat) {r : Reg} (k : Nat) (hr : r ≠ .XLK_ERR) :
    (h.dropEgress n).word r k = h.word r k := by
  simp only [Hw.dropEgress, Hw.word_updLane]
  refine Hw.forEach_keeps (·.word r k) (fun e _ h => ?_) h
  cases e.report
  · rfl
  · exact Hw.word_sendReport h _ k hr

theorem Hw.word_leaveService (h : Hw) (n : Nat) {r : Reg} (k : Nat) (hr : r ≠ .XLK_ERR) :
    (h.leaveService n).word r k = h.word r k := Hw.word_discardInFlight _ n k hr

theorem Hw.get_onLaneEntry (h : Hw) (n : Nat) (d : Dir) (old new : Nat) {f : Fld} (k : Nat) (h1 : f.reg ≠ .XLK_ERR)
    (h2 : f.reg ≠ .LANE_EG_STAT) : (h.onLaneEntry n d old new).get f k = h.get f k := by
  simp only [Hw.onLaneEntry]
  rw [Hw.when_keeps (·.get f k) (fun h => by simp [Hw.sendBlock]),
    Hw.when_keeps (·.get f k) (fun h => by simp [Hw.sendBlock]),
    Hw.when_keeps (·.get f k) (fun h => ?_), Hw.when_keeps (·.get f k) (fun h => by simp)]
  rw [Hw.get_set_reg _ _ _ _ (by exact Ne.symm h2)]
  exact Hw.get_of_word (Hw.word_dropEgress _ _ _ h1)

/-- What follows a change of state writes no lane register. -/
theorem Hw.word_laneLeft (h : Hw) (n : Nat) (a b : Bool) {r : Reg} (k : Nat) (hr : r ≠ .XLK_ERR) :
    (if a = true then h.leaveService n else h.when b (·.discardInFlight n)).word r k = h.word r k := by
  split
  · exact Hw.word_leaveService h n k hr
  · exact Hw.when_keeps (·.word r k) (fun h => Hw.word_discardInFlight h n k hr) h

/-- A field outside the lane's state fields, the egress credits and the event registers keeps its value when a
direction changes its state. -/
theorem Hw.get_setLane (h : Hw) (n : Nat) (d : Dir) (new : Nat) {f : Fld} (k : Nat) (h1 : f.reg ≠ .XLK_ERR)
    (h2 : f.reg ≠ .LANE_EG_STAT) (h3 : f.reg ≠ .EVT_PEND) (h4 : f.reg ≠ .EVT_MERGECNT)
    (hs : f.reg ≠ .LANE_STAT ∨ n ≠ k ∨ f.lo + f.w ≤ (stateFld d).lo ∨ (stateFld d).lo + (stateFld d).w ≤ f.lo) :
    (h.setLane n d new).get f k = h.get f k := by
  simp only [Hw.setLane]
  split
  · rfl
  · rw [Hw.get_of_word (Hw.word_laneLeft _ n _ _ k h1),
      Hw.when_keeps (·.get f k) (fun h => Hw.get_raise h n k h3 h4), Hw.get_onLaneEntry _ _ _ _ _ _ h1 h2]
    have hreg : (stateFld d).reg = .LANE_STAT := by cases d <;> rfl
    rcases hs with hs | hs | hs
    · exact Hw.get_set_reg _ _ _ _ (by rw [hreg]; exact Ne.symm hs)
    · exact Hw.get_set_idx _ _ hs
    · exact Hw.get_set_field _ _ _ _ hs.symm

/-- A direction put into a state is in that state (R79). -/
theorem Hw.setLane_state (h : Hw) (n : Nat) (d : Dir) (new : Nat) (hn : new < 8) :
    (h.setLane n d new).laneState n d = new := by
  have hf : ∀ d, (stateFld d).reg ≠ .XLK_ERR ∧ (stateFld d).reg ≠ .LANE_EG_STAT ∧ (stateFld d).reg ≠ .EVT_PEND ∧
      (stateFld d).reg ≠ .EVT_MERGECNT ∧ (stateFld d).lo ≤ 9 ∧ (stateFld d).w = 3 := by
    intro d; cases d <;> decide
  obtain ⟨f1, f2, f3, f4, f5, f6⟩ := hf d
  simp only [Hw.setLane]
  split
  · assumption
  · simp only [Hw.laneState]
    refine (Hw.get_of_word (Hw.word_laneLeft _ n _ _ n f1)).trans ?_
    rw [Hw.when_keeps (·.get (stateFld d) n) (fun h => Hw.get_raise h n n f3 f4), Hw.get_onLaneEntry _ _ _ _ _ _ f1 f2,
      Hw.get_set_same _ _ _ _ (by omega), f6]
    exact Nat.mod_eq_of_lt hn

/-- The other direction of a lane keeps its state. -/
theorem Hw.setLane_other (h : Hw) (n : Nat) {d e : Dir} (new : Nat) (hd : e ≠ d) :
    (h.setLane n d new).laneState n e = h.laneState n e := by
  refine Hw.get_setLane h n d new n ?_ ?_ ?_ ?_ ?_ <;> cases d <;> cases e <;> first | contradiction | decide | exact .inr (.inr (by decide))

end Sys2Proof.Machine
end

