-- ==== Sys2Proof/Laws/Memory.lean ====
section
/-! SUPPORT. Every operation that writes a memory (DRAM, the private memories, the integrators of the pool and of the tiles, the
fuse array) keeps its canonical form, reset meets that form, and bytes read back as they were written. -/

namespace Sys2Proof.Machine

/-! ### Lists of bytes -/

/-- A byte after a list is written at consecutive keys. -/
theorem Store.get_putList {V : Type} [DecidableEq V] {d : Nat → V} (m : Store V) (k j : Nat) (vs : List V) :
    (m.putList d k vs).get d j = if k ≤ j ∧ j < k + vs.length then vs.getD (j - k) (d j) else m.get d j := by
  induction vs generalizing m k with
  | nil =>
    have : ¬(k ≤ j ∧ j < k + ([] : List V).length) := by simp
    simp only [Store.putList, this, if_false]
  | cons v vs ih =>
    simp only [Store.putList, ih, Store.get_put, List.length_cons]
    by_cases h1 : j = k
    · subst h1
      have h2 : ¬(j + 1 ≤ j ∧ j < j + 1 + vs.length) := by omega
      have h3 : j ≤ j ∧ j < j + (vs.length + 1) := by omega
      rw [if_neg h2, if_pos h3]
      simp
    · by_cases h2 : k + 1 ≤ j ∧ j < k + 1 + vs.length
      · have h3 : k ≤ j ∧ j < k + (vs.length + 1) := by omega
        obtain ⟨i, hi⟩ : ∃ i, j - k = i + 1 := ⟨j - k - 1, by omega⟩
        have h4 : j - (k + 1) = i := by omega
        rw [if_pos h2, if_pos h3, hi, h4]
        simp
      · have h3 : ¬(k ≤ j ∧ j < k + (vs.length + 1)) := by omega
        rw [if_neg h2, if_neg h3, if_neg h1]

theorem Store.getList_length {V : Type} (d : Nat → V) (m : Store V) (k n : Nat) : (m.getList d k n).length = n := by
  induction n generalizing k with
  | zero => rfl
  | succ n ih => simp [Store.getList, ih]

/-- What is written at consecutive keys is what is read there. -/
theorem Store.getList_putList {V : Type} [DecidableEq V] {d : Nat → V} (m : Store V) (k : Nat) (vs : List V) :
    (m.putList d k vs).getList d k vs.length = vs := by
  have key : ∀ (ws : List V) (j : Nat), k ≤ j → (∀ i, i < ws.length → ws[i]? = vs[j - k + i]?) → j - k + ws.length = vs.length →
      (m.putList d k vs).getList d j ws.length = ws := by
    intro ws
    induction ws with
    | nil => intros; rfl
    | cons w ws ih =>
      intro j hj he hl
      simp only [List.length_cons] at hl
      have h0 := he 0 (by simp)
      have hr : k ≤ j ∧ j < k + vs.length := by omega
      simp only [List.length_cons, Store.getList, Store.get_putList, hr, and_self, if_true]
      have h1 : vs.getD (j - k) (d j) = w := by
        simp only [List.getElem?_cons_zero, Nat.add_zero] at h0
        simp [List.getD_eq_getElem?_getD, ← h0]
      rw [h1, ih (j + 1) (by omega) (fun i hi => ?_) (by omega)]
      · have := he (i + 1) (by simp; omega)
        simp only [List.getElem?_cons_succ] at this
        rw [this]
        congr 1
        omega
  simpa using key vs k (Nat.le_refl k) (fun i _ => by simp) (by simp)

/-! ### DRAM -/

theorem Hw.dram_putDram_wf {h : Hw} (hw : h.dram.wf (fun _ => 0)) (off : Nat) (bs : List Byte) :
    (h.putDram off bs).dram.wf (fun _ => 0) := Store.wf_putList hw off bs

/-- DRAM reads back what was written. -/
theorem Hw.dramBytes_putDram_same (h : Hw) (off : Nat) (bs : List Byte) : (h.putDram off bs).dramBytes off bs.length = bs :=
  Store.getList_putList _ _ _

/-- A byte of DRAM outside a write is as before. -/
theorem Hw.dramByte_putDram_other (h : Hw) {off a : Nat} {bs : List Byte} (ha : a < off ∨ off + bs.length ≤ a) :
    (h.putDram off bs).dramBytes a 1 = h.dramBytes a 1 := by
  have : ¬(off ≤ a ∧ a < off + bs.length) := by omega
  simp [Hw.dramBytes, Hw.putDram, Store.getList, Store.get_putList, this]

/-! ### Private memories -/

theorem Hw.priv_putPriv_wf {h : Hw} (hw : h.priv.wf (fun _ => 0)) (m a : Nat) (bs : List Byte) :
    (h.putPriv m a bs).priv.wf (fun _ => 0) := Store.wf_putList hw _ bs

/-- A store that keeps only some keys. -/
theorem Store.sortedFrom_filter {V : Type} {m : Store V} {lo : Option Nat} (p : Nat × V → Bool) (h : Store.sortedFrom lo m) :
    Store.sortedFrom lo (m.filter p) := by
  induction m generalizing lo with
  | nil => rfl
  | cons q m ih =>
    obtain ⟨j, v⟩ := q
    simp only [Store.sortedFrom, Bool.and_eq_true] at h
    cases hp : p (j, v)
    · simp only [List.filter_cons, hp]
      have h2 := ih h.2
      cases lo with
      | none => exact Store.sortedFrom_weaken h2 (by simp)
      | some l => exact Store.sortedFrom_weaken h2 (by simpa using Nat.le_of_lt (by simpa using h.1))
    · simp only [List.filter_cons, hp, if_true, Store.sortedFrom, Bool.and_eq_true]
      exact ⟨h.1, ih h.2⟩

theorem Store.wf_filter {V : Type} [DecidableEq V] {d : Nat → V} {m : Store V} (h : m.wf d) (p : Nat × V → Bool) :
    Store.wf d (m.filter p) := by
  simp only [Store.wf, Bool.and_eq_true] at h ⊢
  refine ⟨Store.sortedFrom_filter p h.1, ?_⟩
  rw [List.all_eq_true] at h ⊢
  exact fun x hx => h.2 x (List.mem_filter.1 hx).1

theorem Hw.priv_wipePod_wf {h : Hw} (hw : h.priv.wf (fun _ => 0)) (p : Nat) : (h.wipePod p).priv.wf (fun _ => 0) :=
  Store.wf_filter hw _

theorem Hw.priv_copyPod_wf {h : Hw} (hw : h.priv.wf (fun _ => 0)) (src dst : Nat) : (h.copyPod src dst).priv.wf (fun _ => 0) := by
  have step : ∀ (l : List (Nat × Byte)) (x : Hw), x.priv.wf (fun _ => 0) →
      (x.forEach l fun kv h => h.putPriv dst (kv.1 % 2 ^ 32) [kv.2]).priv.wf (fun _ => 0) := by
    intro l
    induction l with
    | nil => intro x hx; exact hx
    | cons q l ih => intro x hx; exact ih _ (Hw.priv_putPriv_wf hx _ _ _)
  exact step _ _ (Hw.priv_wipePod_wf hw dst)

/-! ### Integrators -/

/-- One emitter's check keeps the form of the integrators that it works on (R89). -/
theorem Hw.checkStep_wf (h : Hw) (j : CheckJob) (e : EccHits) (doses : List Nat) {acc : CheckAcc}
    (hw : Store.wf h.pool.coldOf acc.integrators = true) (i : Nat) :
    Store.wf h.pool.coldOf (h.checkStep j e doses acc i).integrators = true := Store.wf_put hw _ _

/-- The check of a segment keeps the form of the pool's integrators. -/
theorem Hw.checkSegment_wf {h : Hw} (hw : Store.wf h.pool.coldOf h.pool.integrators = true) (j : CheckJob) (e : EccHits)
    (doses : List Nat) : Store.wf h.pool.coldOf (h.checkSegment j e doses).integrators = true := by
  have step : ∀ (l : List Nat) (acc : CheckAcc), Store.wf h.pool.coldOf acc.integrators = true →
      Store.wf h.pool.coldOf (l.foldl (h.checkStep j e doses) acc).integrators = true := by
    intro l
    induction l with
    | nil => intro acc ha; exact ha
    | cons i l ih => intro acc ha; exact ih _ (h.checkStep_wf j e doses ha i)
  exact step _ _ hw

/-- A write of a tile integrator keeps the form of the B-die's tiles (R133). -/
theorem Hw.tiles_putTile_wf {h : Hw} (hw : Store.wf h.b.coldOf h.b.tiles = true) (t v : Nat) :
    Store.wf h.b.coldOf (h.putTile t v).b.tiles = true := Store.wf_put hw t v

/-- The tiles that a write leaves alone read as before. -/
theorem Hw.tiles_putTile_other (h : Hw) {t t' v : Nat} (ht : t' ≠ t) :
    Store.get h.b.coldOf (h.putTile t v).b.tiles t' = Store.get h.b.coldOf h.b.tiles t' := Store.get_put_other _ _ ht

/-! ### The fuse array -/

/-- Burning changes one copy of one word, and only turns 0 into 1 (R430). -/
theorem NonVol.copy_burn (v : NonVol) {c w c' w' : Nat} (bits : Nat) (hw : w < 1024) (hw' : w' < 1024) :
    (v.burn c w bits).copy c' w' = if c' = c ∧ w' = w then Nat.lor (v.copy c w) bits else v.copy c' w' := by
  have e : (1024 * c' + w' = 1024 * c + w) ↔ c' = c ∧ w' = w := by omega
  simp [NonVol.burn, NonVol.copy, Store.upd, Store.get_put, e]

theorem NonVol.fuses_burn_wf {v : NonVol} (h : v.fuses.wf (fun _ => 0)) (c w bits : Nat) :
    (v.burn c w bits).fuses.wf (fun _ => 0) :=
  Store.wf_upd h (1024 * c + w) fun x => Nat.lor x bits

theorem NonVol.fuses_burnWord_wf {v : NonVol} (h : v.fuses.wf (fun _ => 0)) (w bits : Nat) :
    (v.burnWord w bits).fuses.wf (fun _ => 0) :=
  NonVol.fuses_burn_wf (NonVol.fuses_burn_wf (NonVol.fuses_burn_wf h _ _ _) _ _ _) _ _ _

theorem NonVol.fuses_burnAll_wf {v : NonVol} (h : v.fuses.wf (fun _ => 0)) (l : List (Nat × Nat)) :
    (v.burnAll l).fuses.wf (fun _ => 0) := by
  induction l generalizing v with
  | nil => exact h
  | cons p l ih => exact ih (NonVol.fuses_burnWord_wf h _ _)

theorem NonVol.fuses_program_wf {v : NonVol} (h : v.fuses.wf (fun _ => 0)) (old : Nat → Nat) (bad : List Deviation) (l : List (Nat × Nat)) :
    (v.program old bad l).1.fuses.wf (fun _ => 0) := by
  induction l generalizing v with
  | nil => exact h
  | cons p l ih =>
    simp only [NonVol.program]
    split
    · exact ih (NonVol.fuses_burnWord_wf h _ _)
    · exact NonVol.fuses_burn_wf (NonVol.fuses_burn_wf (NonVol.fuses_burn_wf h _ _ _) _ _ _) _ _ _

theorem NonVol.fuses_burnCut_wf {v : NonVol} (h : v.fuses.wf (fun _ => 0)) (cut : OtpCut) (plan : List (Nat × Nat)) :
    (v.burnCut cut plan).fuses.wf (fun _ => 0) := by
  have step : ∀ (l : List (Nat × Nat × Nat)) (x : NonVol), x.fuses.wf (fun _ => 0) →
      (l.foldl (fun v s => v.burn s.1 s.2.1 s.2.2) x).fuses.wf (fun _ => 0) := by
    intro l
    induction l with
    | nil => intro x hx; exact hx
    | cons q l ih => intro x hx; exact ih _ (NonVol.fuses_burn_wf hx _ _ _)
  unfold NonVol.burnCut
  dsimp only
  split
  · exact step _ _ h
  · exact NonVol.fuses_burn_wf (step _ _ h) _ _ _

/-! ### Reset -/

/-- At reset every memory is in its canonical form: nothing is listed. -/
theorem State.reset_memories_wf :
    State.reset.hw.dram.wf (fun _ => 0) = true ∧ State.reset.hw.priv.wf (fun _ => 0) = true ∧
      State.reset.nv.fuses.wf (fun _ => 0) = true ∧ Store.wf State.reset.hw.pool.coldOf State.reset.hw.pool.integrators = true ∧
      Store.wf State.reset.hw.b.coldOf State.reset.hw.b.tiles = true := ⟨rfl, rfl, rfl, rfl, rfl⟩

end Sys2Proof.Machine
end

