-- ==== Sys2Proof/Tests/Slice0.lean ====
section
/-! SUPPORT. Tests. For every statement with hypotheses, states and operands that meet them, clause by clause; terms that each
check of WellFormed refuses; and a few results worked out by hand from the spec. -/

namespace Sys2Proof.Tests

set_option Elab.async false

open Sys2Proof Sys2Proof.Machine

/-- The state after reset with its hardware changed. -/
def mk (f : Hw → Hw) : State := State.reset.withHw (f State.reset.hw)

/-- The module after its start: Pods, service cores, host and cross links are there, DRAM is trained, the B-die runs, the device
is in RUN. -/
def up (h : Hw) : Hw :=
  let h := { h with boot := { phase := .ended, svcUp := true, pcieUp := true }, b := { h.b with xbOk := true, pllLock := true, vsysOk := true } }
  (((h.setB F.XLK_STAT_XLKC_UP 0 true).setB F.XLK_STAT_XLKD_UP 0 true).setB F.DDR_STAT_TRAINED 0 true).set F.GLB_STATE_STATE 0 devRun

/-- A slice frame of engine `n` at version 2.0, DCOD 2, one run of 2,048 doses of 0, with its check value. -/
def frame (p : CrcParams) (n seg seq : Nat) (sync : Bool) : List Byte :=
  let body : List Byte := [0xA7, 0x20, BitVec.ofNat 8 n, BitVec.ofNat 8 (0x20 + bit sync)] ++ bytesLE 4 seq ++ bytesLE 4 0 ++
    [BitVec.ofNat 8 seg, 0] ++ bytesLE 2 2 ++ List.replicate 16 0 ++ [0x00, 0x08]
  body ++ bytesLE (crcBytes p) (crcOf p body)

/-- Lane `n` with both directions in a state. -/
def lane (n st : Nat) (h : Hw) : Hw := ((up h).set F.LANE_STAT_IN_STATE n st).set F.LANE_STAT_EG_STATE n st

/-! ### The whole module -/

theorem test_meets_StepRunsFront : ∃ (s : State) (c : Instr) (rest : List Instr), s.pending = c :: rest :=
  ⟨{ State.reset with pending := [.xlkMirrorTimeout] }, _, _, rfl⟩

theorem test_meets_IdleStep : ((mk id).pending = [] ∧ (mk id).Awake) ∧
    let s := mk fun h => { h with boot := { h.boot with heldPin := true } }
    s.pending = [] ∧ s.hw.boot.held = true := by decide +kernel

theorem test_meets_HeldModuleIgnores : ∃ (c : Instr) (s : State), s.hw.boot.held = true ∧ actsHeld c = false :=
  ⟨.drainComplete 15, mk fun h => { h with boot := { h.boot with heldPor := true } }, by decide⟩

theorem test_meets_KeptStorage : ∃ (c : Instr) (s t : State), changesStorage c = false ∧ exec c s = .next t :=
  ⟨.xlkMirrorTimeout, mk up, _, by decide, rfl⟩

theorem test_meets_FusesOnlyBurn : ∃ s t : State, step s = .next t ∧ nbit (s.nv.copy 2 1023) 31 = true ∧
    Store.wf (fun _ => 0) s.nv.fuses = true :=
  ⟨{ mk id with nv := { fuses := [(3071, 0x80000000)] } }, _, rfl, by decide +kernel, by decide +kernel⟩

theorem test_meets_FuseStoreForm : ∃ s t : State, Store.wf (fun _ => 0) s.nv.fuses = true ∧ step s = .next t :=
  ⟨{ mk id with nv := { fuses := [(0, 1), (3071, 1)] }, pending := [.xlkMirrorTimeout] }, _, by decide +kernel, rfl⟩

theorem test_meets_StoreForms : ∃ s t : State, step s = .next t ∧ s.StoresOk ∧ s.hw.dram ≠ [] ∧ s.hw.pool.integrators ≠ [] ∧
    s.hw.b.tiles ≠ [] ∧ (∀ e, t.hw.pool.coldOf e = s.hw.pool.coldOf e) ∧ ∀ k, t.hw.b.coldOf k = s.hw.b.coldOf k :=
  ⟨{ mk (fun h => { up h with dram := [(0, 1), (7516192767, 255)], priv := [(3, 7)], pool := { h.pool with integrators := [(0x1FFFFF, 1)] },
                              b := { (up h).b with tiles := [(16383, 1)] } }) with pending := [.xlkMirrorTimeout] }, _, rfl,
    by decide +kernel, by decide +kernel, by decide +kernel, by decide +kernel, fun _ => rfl, fun _ => rfl⟩

theorem test_meets_Frames : ((mk up).Awake ∧ ∃ t, exec (.thermalRearm []) (mk up) = .next t) ∧
    ({ (mk up).hw.b with verC := some 1 } : BDie).verC.isSome = true ∧ ({ (mk up).hw.b with verD := some 15 } : BDie).verD.isSome = true :=
  ⟨⟨rfl, _, rfl⟩, rfl, rfl⟩

/-! ### Bus -/

theorem test_meets_FieldTypes : (Reg.GLB_STATE, 0) ≠ (Reg.POD_STAT, 0) ∧
    ∀ f ∈ Reg.GLB_STATE.info.fields, 31 < f.lo ∨ f.lo + f.w ≤ 31 := by decide

theorem test_meets_AccessWidth : (mk up).Awake ∧
    ((mk up).hw.present 0 = true ∧ (mk up).hw.memPlace 0 0x6D 4 = none ∧ mapped 0x6D = true ∧ mapped 0xE0001 = false ∧
      (mk up).hw.memPlace 0 0xE0001 4 = none) ∧
    ((mk up).hw.present 9 = true ∧ (mk up).hw.memPlace 9 0x6C 2 = none) ∧
    ((mk up).hw.present 0x0A = true ∧ (mk up).hw.memPlace 0x0A 0x6C 8 = none) := by decide +kernel

theorem test_meets_AccessViolations :
    let s := mk up
    let h := s.hw
    s.Awake ∧ h.present 0x0C = true ∧ h.memPlace 0x0C 0x6C 4 = none ∧ decodeReg 0x6C = some (.GLB_NOCLR, 0) ∧
      h.mayWrite 0x0C .GLB_NOCLR = false ∧ h.isStandby 0x0C = false ∧ h.on F.GLB_AVIOL_VALID 0 = false ∧
      (h.setB F.GLB_AVIOL_VALID 0 true).on F.GLB_AVIOL_VALID 0 = true ∧
      h.memPlace 0x0C (Reg.addr .OTP_CMD 0) 4 = none ∧ Reg.addr .OTP_CMD 0 % 4 = 0 ∧
      decodeReg (Reg.addr .OTP_CMD 0) = some (.OTP_CMD, 0) ∧ h.mayRead 0x0C .OTP_CMD = false ∧
      h.present 0x0A = true ∧ mapped 0xE0000 = false ∧ decodeReg 0xE0000 = none ∧ h.windowWord 0xE0000 = none ∧
      0xE0000 ≠ msixPbaBase ∧ h.present 0x0B = true ∧ h.memPlace 0x0B 0x1000000 4 = none ∧ decodeReg 0x1000000 = none := by decide +kernel

theorem test_meets_AccessViolations_range : (mk up).Awake ∧ (mk up).hw.present 0x0A = true ∧ mapped 0xE0000 = false ∧
    ¬(msixTblBase ≤ 0xE0000 ∧ 0xE0000 < msixTblBase + 256) := by decide +kernel

theorem test_meets_ReadsWithoutClearing :
    let s := mk up
    let t := mk fun h => (up h).setBit F.GLB_NOCLR_NOCLR 0 6 true
    let a := Reg.addr .GLB_AVCNT 0
    s.Awake ∧ s.hw.present 0x0A = true ∧ s.hw.memPlace 0x0A a 4 = none ∧ a % 4 = 0 ∧ decodeReg a = some (.GLB_AVCNT, 0) ∧
      s.hw.tmrSettle.mayRead 0x0A .GLB_AVCNT = true ∧ t.Awake ∧ t.hw.present 6 = true ∧ t.hw.memPlace 6 a 4 = none ∧
      t.hw.tmrSettle.mayRead 6 .GLB_AVCNT = true ∧ t.hw.tmrSettle.bitOf F.GLB_NOCLR_NOCLR 0 6 = true ∧
      s.hw.tmrSettle.granted 9 .GLB_NOCLR 0 = true ∧ s.hw.present 9 = true := by decide +kernel

theorem test_meets_BusAccesses :
    let s := mk up
    let g := s.hw.tmrSettle
    let ok (m : Master) (r : Reg) (n : Nat) : Bool := s.hw.present m && (s.hw.memPlace m (r.addr n) 4 == none) && r.addr n % 4 == 0 &&
      (decodeReg (r.addr n) == some (r, n)) && g.granted m r n
    s.Awake ∧ ok 6 .TMR_BIND 7 = true ∧ ok 6 .LANE_CFG 15 = true ∧ ok 0 .SFN_CFG 255 = true ∧ ok 0 .CLI_CFG 0 = true ∧
      ok 0 .NPS_GCTL 0 = true ∧ ok 6 .CRC_BIND 7 = true ∧ ok 6 .SEC_BIND 0 = true ∧ g.mayRead 6 .GLB_AVCNT = true ∧
      g.bitOf F.GLB_NOCLR_NOCLR 0 6 = false ∧ g.isStandby 6 = false ∧
      s.hw.memPlace 9 (dramBase + 0x1BFFFFFFC) 4 = some (.dram (dramBase + 0x1BFFFFFFC - dramBase)) ∧
      s.hw.memPlace 6 dramBase 8 = some (.dram (dramBase - dramBase)) ∧ s.hw.present 9 = true ∧ s.hw.present 0 = true := by decide +kernel

/-- The B-die runs and XLK_C is not trained. -/
def bDown (h : Hw) : Hw := (up h).setB F.XLK_STAT_XLKC_UP 0 false

theorem test_meets_CrossLinks :
    let s := mk up
    let d := mk fun h => ((up h).setB F.DDR_SCRUB_EN 0 true).setB F.DDR_STAT_TRAINED 0 true
    s.Awake ∧ s.hw.on F.XLK_STAT_XLKC_UP 0 = true ∧ s.hw.b.runs = true ∧ (mk id).hw.on F.XLK_STAT_XLKC_UP 0 = false ∧
      (mk id).hw.dev = devBoot ∧ s.hw.dev ≠ devBoot ∧ s.hw.dev ≠ devSafeHold ∧ (mk id).hw.b.runs = false ∧ s.hw.b.verC.isSome = false ∧
      s.hw.b.verD.isSome = false ∧ ({ s.hw.b with verC := some 0, verD := some 0 } : BDie).verC.isSome = true ∧
      s.hw.get F.GLB_IFVER_XLK 0 % 16 = s.hw.get F.GLB_IFVER_XLK 0 ∧ (s.hw.get F.GLB_IFVER_XLK 0 + 1) % 16 ≠ s.hw.get F.GLB_IFVER_XLK 0 ∧
      ({ s.hw with xlkD := [{}], toB := [.npsFrame []] } : Hw).xlkD ≠ [] ∧ ({ s.hw with toB := [.npsFrame []] } : Hw).toB ≠ [] ∧
      (mk bDown).hw.b.runs = true ∧ (mk bDown).hw.on F.XLK_STAT_XLKC_UP 0 = false ∧ (mk id).hw.scrubbing = false ∧ d.Awake ∧ d.hw.scrubbing = true ∧ d.hw.on F.DDR_EVT_CE 0 = false ∧
      (d.hw.setB F.DDR_IEN_CE 0 true).on F.DDR_IEN_CE 0 = true ∧ d.hw.get F.DDR_STAT_REFRATE 0 ≠ 255 := by decide +kernel

/-! ### Lanes -/

theorem test_meets_LaneControlTable :
    let s := mk up
    s.Awake ∧ s.hw.present 9 = true ∧ s.hw.tmrSettle.granted 9 .LANE_CTL 15 = true ∧ wbit 1 1 = false ∧ wbit 0 1 = false ∧
      (mk fun h => (up h).set F.LANE_STAT_EG_STATE 15 laneShutting).hw.tmrSettle.laneState 15 .egress = laneShutting := by
  decide +kernel

theorem test_meets_LaneTraining :
    let s := mk (lane 15 laneTraining)
    let cap : CapWord := { ver := 0x20, feat := 3, crcId := s.hw.ownCrcId 15 .ingress }
    let t := s.withHw ((s.hw.updLane 15 fun l => { l with trainIn := { fails := 2, agreed := some cap, ts := true } }).setB
      (lockFld .ingress) 15 true)
    s.Awake ∧ (s.hw.setB (lockFld .egress) 15 true).on (lockFld .egress) 15 = true ∧ s.hw.laneState 15 .egress = laneTraining ∧
      s.hw.dev = devRun ∧ negotiateVer 0x20 (s.hw.ownMaxVer 15 .ingress) = some 0x20 ∧ negotiateVer 0x10 0x20 = some 0x10 ∧
      cap.crcId + 1 ≠ s.hw.ownCrcId 15 .ingress ∧ cap.crcId = t.hw.ownCrcId 15 .ingress ∧
      negotiateVer cap.ver (t.hw.ownMaxVer 15 .ingress) = some 0x20 ∧ t.hw.on (lockFld .ingress) 15 = true ∧
      ((t.hw.lane 15).training .ingress).ts = true ∧ ((s.hw.lane 15).training .ingress).ts = false ∧
      s.hw.on (lockFld .egress) 15 = false ∧ s.hw.quadOn 15 = true ∧ (s.hw.set F.CLK_GATE_QUAD 0 7).quadOn 15 = false ∧
      (mk (lane 15 laneActive)).hw.laneState 15 .ingress = laneActive ∧
      (fromSync ((mk (lane 15 laneActive)).hw.lane 15).buf).isEmpty = true ∧ laneLive ((mk (lane 15 laneActive)).hw.laneState 15 .ingress) = true ∧
      (mk (lane 15 laneActive)).hw.on (lockFld .ingress) 15 = false ∧
      ((mk (lane 15 laneActive)).hw.setB (lockFld .ingress) 15 true).on (lockFld .ingress) 15 = true ∧
      t.hw.laneState 15 .ingress = laneTraining ∧ ((t.hw.lane 15).training .ingress).fails = 2 ∧
      ((t.hw.lane 15).training .ingress).agreed = some cap ∧
      (((s.hw.updLane 15 fun l => { l with trainIn := { fails := 1, agreed := some cap } }).lane 15).training .ingress).fails < 2 ∧
      ({} : CapWord) ≠ cap := by decide +kernel

theorem test_meets_LaneIgnoresFrames :
    (mk (lane 0 laneOff)).hw.laneState 0 .ingress = laneOff ∧ (mk (lane 15 laneTraining)).hw.laneState 15 .ingress = laneTraining ∧
      (mk (lane 7 laneFault)).hw.laneState 7 .ingress = laneFault ∧ (mk (lane 7 laneFault)).Awake := by decide +kernel

/-- Lane 15 negotiated at version 2.0 with DS coding, with credits and the check parameters of R181. -/
def dsLane (st : Nat) (h : Hw) : Hw :=
  let h := ((lane 15 st h).set F.LANE_STAT_NEGVER 15 0x20).setB F.LANE_STAT_DS_ON 15 true
  let h := ((h.set F.LANE_CRC_CFG_WIDTH 15 32).set F.LANE_CRC_POLY_VALUE 15 0x04C11DB7).set F.LANE_CRC_INIT_VALUE 15 0xFFFFFFFF
  let h := ((h.set F.LANE_CRC_XOR_VALUE 15 0xFFFFFFFF).setB F.LANE_CRC_CFG_REFIN 15 true).setB F.LANE_CRC_CFG_REFOUT 15 true
  h.updLane 15 fun l => { l with credits := 15 }

theorem test_meets_LaneFrames_accepted :
    let s := mk (dsLane laneResync)
    let f := frame crc32Params 15 0 7 true
    s.Awake ∧ laneLive (s.hw.laneState 15 .ingress) = true ∧ s.hw.laneCrc 15 = crc32Params ∧ s.hw.frameErrors 15 f = [] ∧
      s.hw.laneState 15 .ingress = laneResync ∧ (frameHdr f).sync = true ∧ (frameHdr f).seg = 0 := by decide +kernel

theorem test_meets_LaneFrames_inOrder :
    let s := mk fun h => ((dsLane laneActive h).set F.LANE_SEQ_VALUE 15 7).updLane 15 fun l => { l with lastSeg := some 30 }
    let f := frame crc32Params 15 31 7 false
    s.Awake ∧ s.hw.frameErrors 15 f = [] ∧ s.hw.laneState 15 .ingress = laneActive ∧
      ((frameHdr f).sync && (frameHdr f).seg == 0) = false ∧ s.hw.orderErrors 15 (frameHdr f) = [] := by decide +kernel

theorem test_meets_LaneFrames_refused :
    let s := mk (dsLane laneActive)
    s.Awake ∧ laneLive (s.hw.laneState 15 .ingress) = true ∧ s.hw.allErrors 15 [] ≠ [] ∧ s.hw.laneState 15 .ingress = laneActive ∧
      fromSync (s.hw.lane 15).buf = [] := by decide +kernel

theorem test_meets_LaneFrames_stall :
    let s := mk (lane 15 laneShutting)
    let g := { s.hw.updLane 15 fun l => { l with egress := [{}] } with time := 100 * s.hw.get F.LANE_EG_CFG_STALL 15 + 1 }
    (g.lane 15).egress = {} :: [] ∧ g.get F.LANE_EG_STAT_CREDITS 15 = 0 ∧
      ({} : EgressSeg).since + 100 * g.get F.LANE_EG_CFG_STALL 15 < g.time ∧ g.laneState 15 .egress ≠ laneFault ∧
      100 * g.get F.LANE_EG_CFG_STALL 15 ≤ ({} : EgressSeg).since + 100 * g.get F.LANE_EG_CFG_STALL 15 := by decide +kernel

theorem test_meets_LaneFrames_flow :
    let s := mk (dsLane laneActive)
    let bf : BufFrame := { bytes := [1], hdr := { seg := 31 } }
    let e := s.hw.updLane 15 fun l => { l with errTimes := List.replicate 16 0 }
    let b := s.hw.updLane 15 fun l => { l with buf := [bf] }
    let g := s.hw.updLane 15 fun l => { l with egress := [{}] }
    s.Awake ∧ (e.set F.LANE_CFG_ERRLIM 15 15).get F.LANE_CFG_ERRLIM 15 < (e.set F.LANE_CFG_ERRLIM 15 15).recentErrors 15 ∧
      e.laneState 15 .ingress ≠ laneFault ∧
      (b.lane 15).buf = bf :: [] ∧ (b.lane 15).freeEntry = some 0 ∧ laneLive (b.laneState 15 .ingress) = true ∧
      ¬(bf.hdr.seg = 0 ∧ (b.lane 15).admitted = true) ∧ b.on F.XLK_STAT_XLKD_UP 0 = true ∧
      (s.hw.setB F.CHK_STAT_ACTIVE 0 true).on F.CHK_STAT_ACTIVE 0 = true ∧ (s.hw.lane 15).cur = none ∧
      s.hw.laneState 15 .egress = laneActive ∧ (g.lane 15).egress = {} :: [] ∧
      (g.set F.LANE_EG_STAT_CREDITS 15 15).get F.LANE_EG_STAT_CREDITS 15 ≠ 0 ∧ g.get F.LANE_EG_STAT_CREDITS 15 = 0 := by decide +kernel

/-! ### Check pool, Tile Checker, release and ledger -/

theorem test_meets_EmitterCheck : (65535 < 65536 ∧ (2 : Nat) ^ 32 - 1 < 2 ^ 32 ∧ 1 ≤ 15 ∧ 1 ≤ 0xFFFF0000) ∧
    (checkEmitter true 65535 65535 0xFFFFFFFF 15 1).exceed = true ∧
    (checkEmitter true 5 3 0 1 100).viol = true ∧ (checkEmitter true 1 3 0 1 100).exceed = false := by decide +kernel

theorem test_meets_IntegratorCoversReleased : (3 : Nat) ≤ 5 ∧ 5 < 2 ^ 32 := by decide

theorem test_meets_PoolChecks :
    let seg : Seg := { hdr := { seg := 31 } }
    let s := mk fun h => (up h).updLane 15 fun l => { l with segs := [seg] }
    let job : CheckJob := { lane := 15, seg := 31 }
    let c := mk fun h => ((up h).updLane 15 fun l => { l with segs := [seg] }).updCe 15 fun c => { c with job := some job }
    let o := (mk up).hw.updCe 15 fun c => { c with state := .offline }
    s.Awake ∧ s.hw.freeCe = some 0 ∧ s.hw.on F.CLK_GATE_DOSE 0 = true ∧ (s.hw.setB F.CLK_GATE_DOSE 0 false).on F.CLK_GATE_DOSE 0 = false ∧
      (((List.range 16).map fun i => (s.hw.get F.CHK_RR_PTR 0 + i) % 16).find? fun n => (s.hw.candidate n).isSome) = some 15 ∧
      s.hw.candidate 15 = some (.slice seg) ∧ (c.hw.ce 15).job = some job ∧ seg ∈ (c.hw.lane 15).segs ∧ seg.phase = .queued ∧
      c.hw.held 15 31 0 = true ∧ (mk up).hw.present 9 = true ∧ (mk up).hw.tmrSettle.granted 9 .CHK_CEOFF 0 = true ∧
      4 < ((List.range 16).filter fun k => (mk up).hw.tmrSettle.notOnline k || nbit (0x1F % 65536) k).length ∧
      (o.ce 15).state = .offline ∧ (o.ce 15).testDone = false := by decide +kernel

theorem test_meets_PoolChecks_rows :
    let seg : Seg := { entry := 31, hdr := { seg := 31 }, phase := .checking }
    let job : CheckJob := { lane := 15, entry := 31, seg := 31 }
    let h := (((mk up).hw.updLane 15 fun l => { l with segs := [seg] }).updCe 15 fun c => { c with job := some job })
    let d := (mk up).hw.updLane 15 fun l => { l with decays := [{ seg := 31, slot := 0 }] }
    let dj := d.updCe 15 fun c => { c with job := some { job with decay := true } }
    let sh (pend : Bool) := (mk up).hw.updCe 15 fun c => { c with state := .shuttingDown, pendEn := pend }
    ((h.ce 15).job = some job ∧ job.decay = false ∧ ((h.lane 15).segs.find? fun x => !x.generated && x.entry == job.entry) = some seg ∧
      seg.phase = .checking ∧ seg.discard = false) ∧
    (d.candidate 15).isSome = true ∧ (∃ x ∈ (d.lane 15).decays, x.seg = 31 ∧ x.phase = .queued ∧ dj.held 15 31 x.slot = true) ∧
    ((mk up).hw.ce 15).job = none ∧ (∀ n < 16, (mk up).hw.candidate n = none) ∧
    ((sh false).ce 15).state = .shuttingDown ∧ ((sh false).ce 15).job = none ∧ ((sh false).ce 15).pendEn = false ∧
    ((sh true).ce 15).pendEn = true ∧
    ¬ 4 < ((List.range 16).filter fun k => decide (((mk up).hw.ce k).state ≠ .online) || nbit 0xF k).length := by decide +kernel

theorem test_meets_PoolActivation :
    let s := mk up
    let c := mk fun h => (up h).setB F.CHK_STAT_COLDINIT 0 true
    s.Awake ∧ s.hw.present 0 = true ∧ s.hw.tmrSettle.granted 0 .CHK_CTL 0 = true ∧ wbit 4 0 = false ∧ wbit 2 2 = false ∧ wbit 1 1 = false ∧
      s.hw.tmrSettle.on F.CHK_STAT_ACTIVE 0 = false ∧ s.hw.tmrSettle.on F.CHK_CTL_ACTIVATE 0 = false ∧
      c.hw.on F.CLK_GATE_DOSE 0 = true ∧ (c.hw.setB F.CLK_GATE_DOSE 0 false).on F.CLK_GATE_DOSE 0 = false ∧
      c.hw.on F.CHK_STAT_COLDINIT 0 = true ∧ c.hw.zoneOf (tileOf 0x1FFFFF) < 64 ∧ c.Awake := by decide +kernel

/-- An envelope load of group 0 in a state. -/
def loading (st : Nat) (h : Hw) : Hw := { (up h).set F.CHK_ENV_STAT_STATE 0 st with env := some {} }

theorem test_meets_PoolActivation_load :
    let v := mk fun h => { loading envVerifying h with toA := [.envReply 0 true] }
    let b := mk fun h => { up h with toB := [.envDigest 15 15 []] }
    (mk up).hw.tmrSettle.granted 0 .CHK_ENV_CTL 0 = true ∧
      (mk (loading envChecking)).hw.env = some {} ∧ (mk (loading envChecking)).hw.get F.CHK_ENV_STAT_STATE 0 = envChecking ∧
      (mk (loading envLoading)).hw.get F.CHK_ENV_STAT_STATE 0 = envLoading ∧
      ({ ceilErr := some 0 : EnvLoad }).ceilErr.isSome ∧ ({} : EnvLoad).ceilErr = none ∧
      (mk (loading envDigestSt)).hw.get F.CHK_ENV_STAT_STATE 0 = envDigestSt ∧
      (mk (loading envDigestSt)).hw.on F.XLK_STAT_XLKC_UP 0 = true ∧ v.hw.get F.CHK_ENV_STAT_STATE 0 = envVerifying ∧
      v.hw.toA = .envReply 0 true :: [] ∧ b.hw.toB = .envDigest 15 15 [] :: [] ∧ b.hw.b.runs = true ∧
      b.hw.on F.XLK_STAT_XLKC_UP 0 = true ∧ v.Awake ∧ b.Awake := by decide +kernel

theorem test_meets_TileVerdict :
    let p := (PkgConfig.lane {} 15).crc
    let f : XlkFrame := { lane := 15, entry := 31, bytes := frame p 15 31 7 false }
    let s := mk fun h => { up h with xlkD := [f] }
    let e := mk fun h => { up h with b := { (up h).b with evaluating := true } }
    s.Awake ∧ s.hw.xlkD = f :: [] ∧ s.hw.b.runs = true ∧ s.hw.on F.XLK_STAT_XLKC_UP 0 = true ∧ s.hw.bFrameOk f = true ∧
      s.hw.bFrameOk { lane := 15 } = false ∧ e.hw.b.evaluating = true ∧ e.Awake := by decide +kernel

theorem test_meets_ReleaseGate :
    let r : RelReport := { lane := 15, entry := 31, sums := [1] }
    let v : Verdict := { lane := 15, entry := 31, seg := 31 }
    let w : Seg := { entry := 31, hdr := { seg := 31 }, phase := .written }
    let x : Seg := { w with verdict := .arrived 0xFFFFFFFF }
    let t := mk fun h => { up h with toB := [.report r], b := { (up h).b with engines := [(15, { awaiting := [(31, [{}, { seg := 31 }])] })] } }
    let a := mk fun h => { (up h).updLane 15 fun l => { l with segs := [w] } with toA := [.verdict v] }
    let k := mk fun h => { up h with toA := [.verdict v] }
    let g := mk fun h => (up h).updLane 15 fun l => { l with segs := [x] }
    t.Awake ∧ t.hw.toB = .report r :: [] ∧
      reportWrong (some {}) r = true ∧ ((t.hw.bEng r.lane).awaits r.entry).find? (fun v => v.seg == r.seg && v.seq == r.seq) = some {} ∧
      (t.hw.bEng 15).awaits 31 = [{}, { seg := 31 }] ∧ ((t.hw.bEng 15).awaits 31).all (·.missed) = false ∧
      [({ missed := true } : BVerdict)].all (·.missed) = true ∧ x.generated = false ∧ x.verdict ≠ .expired ∧
      ({ t.hw with toA := [.engineFault 15 .rptMissing] } : Hw).toA = .engineFault 15 .rptMissing :: [] ∧
      a.hw.toA = .verdict v :: [] ∧ (a.hw.lane v.lane).late.contains (v.entry, v.seg, v.seq) = false ∧
      ((a.hw.lane v.lane).segs.any fun x => x.awaits v.entry) = true ∧ ((k.hw.lane v.lane).segs.any fun x => x.awaits v.entry) = false ∧
      ((a.hw.lane 15).segs.find? fun x => x.awaits 31) = some w ∧ (g.hw.lane 15).segs = x :: [] ∧ x.phase = .written ∧
      x.verdict ≠ .waiting ∧ g.hw.recorded 15 = false := by decide +kernel

theorem test_meets_ReleaseGate_lines :
    let p := mk fun h =>
      (((lane 15 laneActive h).putApplied (slotSeo 15) 1).set F.POD_OWN_SEO_OWN 0 0)
    let f := mk fun h =>
      (((up h).set F.POD_OWN_SEO_OWN 0 0).setB F.REL_STAT_AFAULT 15 true).set F.REL_STAT_AFCAUSE 15 afRobEcc
    p.Awake ∧ p.hw.seoA 15 = true ∧ false ≠ p.hw.seoA 15 ∧ true ≠ (mk up).hw.seoA 0 ∧ true ≠ (mk up).hw.seoB 0 ∧
      f.hw.present 0 = true ∧ f.hw.tmrSettle.granted 0 .REL_SEO 15 = true ∧ f.hw.tmrSettle.fromOwner 0 (slotSeo 15) = true ∧
      f.hw.tmrSettle.on F.REL_STAT_AFAULT 15 = true ∧ f.hw.tmrSettle.get F.REL_STAT_AFCAUSE 15 = afRobEcc ∧
      (mk up).hw.tmrSettle.granted 0 .SO_CMD 15 = true ∧ wbit 1 1 = false := by decide +kernel

theorem test_meets_SeoBPermitConditions :
    ({ (mk up).hw with b := { (mk up).hw.b with state := 3, brun := true, engines := [(15, { cellPermit := true })] } } : Hw).seoB 15 = true := by
  decide +kernel

theorem test_meets_LedgerCommands :
    let e : LedgerEntry := { met := true }
    let s := mk fun h => { up h with ledger := { (up h).ledger with entries := [e] } }
    let x : SigningHeader := {}
    let w := mk fun h => (up h).setB F.LDG_CTL_EN 0 true
    s.Awake ∧ s.hw.ledger.entries = e :: [] ∧ s.hw.ledger.signing = none ∧ s.hw.closeMet e = true ∧
      ({ s.hw with ledger := { signing := some x } } : Hw).ledger.signing = some x ∧ s.hw.signerFree = true ∧
      ({ s.hw with secOp := some { op := seVerify } } : Hw).signerFree = false ∧
      ({ s.hw with secOp := some { op := seVerify, waits := true } } : Hw).signerFree = true ∧
      w.hw.present 0 = true ∧ w.hw.tmrSettle.granted 0 .LDG_CTL 0 = true ∧ wbit 2 0 = false ∧ w.hw.tmrSettle.on F.LDG_CTL_EN 0 = true ∧
      w.hw.tmrSettle.granted 6 .LDG_RDSEQ_LO 0 = true ∧ w.hw.tmrSettle.granted 6 .LDG_RDSEQ_HI 0 = true ∧
      (2 : Nat) ^ 32 - 1 < 2 ^ 32 ∧ s.hw.clSeq = 0 ∧ w.Awake := by decide +kernel

/-! ### Safety functions -/

theorem test_meets_FunctionTable :
    let safe : FnState := { tripped := true }
    let run : FnState := { state := fsRun }
    let fault : FnState := { state := fsFault }
    let quiet : FnEvent := { j := { permit := true } }
    let demand : FnEvent := { j := {} }
    let faulty : FnEvent := { j := { arise := [0x14, 0xFF] } }
    let press : FnEvent := { quiet with reset := true }
    let still : FnEvent := { quiet with j := { still := [0xFF] } }
    safe.state = fsSafe ∧ run.state = fsRun ∧ fault.state = fsFault ∧ quiet.j.arise = [] ∧ quiet.rise = false ∧
      quiet.j.permit = true ∧ quiet.reset = false ∧ safe.tripped = true ∧ press.reset = true ∧ press.j.arise ++ press.j.still = [] ∧
      safe.rstreq = true ∧ (quiet.hasReset = true ∨ true = true) ∧ demand.j.permit = false ∧ demand.reset = false ∧
      { quiet with rise := true }.rise = true ∧ run.state ≠ fsFault ∧ faulty.j.arise ≠ [] ∧ (∀ k ∈ faulty.j.arise, k ≤ 0xFF) ∧
      still.j.arise ++ still.j.still ≠ [] ∧ (∀ k ∈ still.j.arise ++ still.j.still, k ≤ 0xFF) ∧ { still with reset := true }.reset = true ∧
      quiet.selfReset = false ∧ { quiet with selfReset := true }.selfReset = true ∧
      (fnStep quiet true { state := fsSafe, rstreq := false }).1.state = fsRun := by decide +kernel

theorem test_meets_InputTypes :
    let vs := [(true, false), (true, true)]
    (∀ v ∈ vs, v ≠ (false, false)) ∧ (true, false) ∈ vs ∧ (({} : FnMem).disc = 0) ∧ (1 ≤ 1 ∧ 1 ≤ 1 ∧ 1 ≤ 1) ∧
      ({ hand := thBlocked } : FnMem).hand = thBlocked ∧ ({ hand := thIdle } : FnMem).hand = thIdle ∧
      (handStep 500 true true false false { hand := thIdle }).hand = thOn ∧
      (handStep 500 true true false false { hand := thOne, handCount := 499 }).hand = thOn ∧
      (handStep 500 true true false false { hand := thOne, handCount := 500 }).hand ≠ thOn := by decide +kernel

/-- Both channels evaluate: function 255 is an emergency stop, and the results of the cycle are there. -/
def evals (h : Hw) : Hw :=
  let h := (up h).setB F.SFN_CTL_START 0 true
  let cfg : PkgConfig := { fns := [(255, { type := ftEstop })] }
  { h with cfg := cfg, b := { h.b with cfg := cfg, evaluating := true }, evA := { done := true }, evB := { done := true, aligned := true } }

theorem test_meets_CycleExchange_boundary :
    let s := mk evals
    s.Awake ∧ s.hw.evaluating .a = true ∧ s.hw.evA.done = true ∧ s.hw.on F.XLK_STAT_XLKC_UP 0 = true ∧ s.hw.evaluating .b = true ∧
      s.hw.evB.aligned = true ∧ s.hw.b.runs = true ∧ (mk id).hw.evaluating .a = false ∧ (mk id).hw.evaluating .b = false ∧
      ({ s.hw with evA := { waiting := true } } : Hw).evA.waiting = true ∧ s.hw.evA.early = none ∧
      ({ s.hw with evA := { early := some [] } } : Hw).evA.early ≠ none := by decide +kernel

/-- The frame of cycle 0 with nothing in RUN, with its check value: channel B's, and channel A's. -/
def xframe : List Byte := [0xA5, 1, 0, 0] ++ List.replicate 84 0 ++ bytesLE 4 0x2be7b091
def xframeA : List Byte := [0x5A, 1, 0, 0] ++ List.replicate 84 0 ++ bytesLE 4 0x7df0634a

/-- The check value of a frame, 22 bytes at a time. -/
theorem exchangeCheck_of {bs : List Byte} {r1 r2 r3 r4 : Nat}
    (h : bs.take 88 = (bs.take 22 ++ ((bs.drop 22).take 22 ++ ((bs.drop 44).take 22 ++ (bs.drop 66).take 22))))
    (h1 : crcFeed crc32Params 0xFFFFFFFF (bs.take 22) = r1) (h2 : crcFeed crc32Params r1 ((bs.drop 22).take 22) = r2)
    (h3 : crcFeed crc32Params r2 ((bs.drop 44).take 22) = r3) (h4 : crcFeed crc32Params r3 ((bs.drop 66).take 22) = r4) :
    crcFeed crc32Params 0xFFFFFFFF (bs.take 88) = r4 := by
  have app (r : Nat) (a b : List Byte) : crcFeed crc32Params r (a ++ b) = crcFeed crc32Params (crcFeed crc32Params r a) b :=
    List.foldl_append
  rw [h, app, h1, app, h2, app, h3, h4]

theorem test_exchangeCheck : exchangeCheck xframe = 0x2be7b091 ∧ exchangeCheck xframeA = 0x7df0634a := by
  have e : crc32Params.init % 2 ^ crc32Params.width = 0xFFFFFFFF := by decide
  unfold exchangeCheck crcOf
  rw [e, exchangeCheck_of (bs := xframe) (r1 := 0xb297ef22) (r2 := 0x148b844c) (r3 := 0x82ab9ab8) (r4 := 0x76f2182b)
      (by decide +kernel) (by decide +kernel) (by decide +kernel) (by decide +kernel) (by decide +kernel),
    exchangeCheck_of (bs := xframeA) (r1 := 0xe1d2653c) (r2 := 0x06961805) (r3 := 0x68011a5a) (r4 := 0xad39f041)
      (by decide +kernel) (by decide +kernel) (by decide +kernel) (by decide +kernel) (by decide +kernel)]
  decide +kernel

/-- Channel B's frame of cycle 0 waits for channel A, which has begun cycle 1. -/
def waits (h : Hw) : Hw := { evals h with evA := { cycle := 1, waiting := true }, toA := [.exchange xframe] }

theorem test_meets_CycleExchange_received :
    let s := mk waits
    s.Awake ∧ (s.hw.ev .a).waiting = true ∧ s.hw.nextExchange .a = some (xframe, { s.hw with toA := [] }) ∧
      exchangeOk .a xframe = true ∧ frameNum xframe 4 4 = ((s.hw.ev .a).cycle - 1) % 2 ^ 32 ∧ exchangeOk .a [] = false ∧
      255 ∈ s.hw.fnList .a := by
  refine ⟨rfl, rfl, rfl, ?_, by decide +kernel, by decide +kernel, by decide +kernel⟩
  simp only [exchangeOk, test_exchangeCheck.1]
  decide +kernel

theorem test_meets_CycleExchange_other :
    let s := mk waits
    let e := mk fun h => { evals h with evA := {}, toA := [.exchange xframe] }
    let b := mk fun h => { evals h with evB := {}, toB := [.exchange xframeA] }
    let w := mk fun h => { evals h with evB := {}, toB := [.exchange []] }
    s.hw.evaluating .a = true ∧ (31 : Nat) > 30 ∧ (mk up).hw.nextExchange .b = none ∧
      (e.hw.ev .a).waiting = false ∧ e.hw.nextExchange .a = some (xframe, { e.hw with toA := [] }) ∧ e.hw.evaluating .a = true ∧
      frameNum xframe 4 4 = (e.hw.ev .a).cycle % 2 ^ 32 ∧ (mk evals).hw.evB.aligned = true ∧
      b.hw.evaluating .b = true ∧ b.hw.evB.aligned = false ∧ takeXchgB b.hw.toB = some (xframeA, []) ∧ exchangeOk .b xframeA = true ∧
      w.hw.evB.aligned = false ∧ takeXchgB w.hw.toB = some ([], []) ∧ exchangeOk .b [] = false := by
  refine ⟨by decide +kernel, by decide, rfl, by decide +kernel, rfl, by decide +kernel, by decide +kernel, by decide +kernel,
    by decide +kernel, rfl, rfl, ?_, rfl, rfl, by decide +kernel⟩
  simp only [exchangeOk, test_exchangeCheck.2]
  decide +kernel

theorem test_meets_FunctionCommands :
    let s := mk up
    let r := mk fun h =>
      let h := { up h with cfg := { fns := [(255, { type := ftReset, ridx := some 15 })] } }
      h.putFnMem .a 255 { stuck := true }
    let e := mk fun h =>
      let h := { up h with cfg := { fns := [(255, { type := ftEnvSelect, group := 15 })] } }
      { (h.putFnMem .a 255 { sel := some 15 }).updEv .a fun e => { e with pend := 32768, loaded := [(15, some 15)] } with
        envRes := [(15, erTimeout)] }
    s.Awake ∧ s.hw.present 0 = true ∧ s.hw.tmrSettle.granted 0 .SFN_CTL 0 = true ∧ s.hw.tmrSettle.on F.SFN_CTL_START 0 = false ∧
      s.hw.tmrSettle.granted 0 .SFN_STAT 255 = true ∧ (s.hw.set F.SFN_CFG_PAIR 255 2).get F.SFN_CFG_PAIR 255 ≠ pairOf 0 ∧
      s.hw.tmrSettle.get F.SFN_CFG_PAIR 255 = pairOf 0 ∧ F.SFN_STAT_STATE.val 2 ≤ 2 ∧ F.SFN_STAT_CAUSE.val 0xC00 ≤ 0xC ∧
      0x10 ≤ F.SFN_STAT_CAUSE.val 0x1700 ∧ F.SFN_STAT_CAUSE.val 0x1700 ≤ 0x17 ∧
      s.hw.tmrSettle.granted 0 .SO_CMD 15 = true ∧ (s.hw.die 1).errA = false ∧
      (r.hw.fn .a 255).ridx = some 15 ∧ (r.hw.fn .a 255).type = ftReset ∧ (r.hw.fnMem .a 255).stuck = true ∧
      r.hw.bitOf F.SFN_RST_STUCK 0 15 = false ∧ e.hw.selectionA 15 = some 15 ∧ nbit e.hw.evA.pend 15 = true ∧
      e.hw.get F.CHK_ENV_STAT_STATE 0 = envIdle ∧ Store.get (fun _ => none) e.hw.evA.loaded 15 = some 15 ∧ e.hw.envFailed 15 = true ∧
      s.hw.tmrSettle.granted 6 .SFN_STAT 0 = false ∧ (15 : Nat) < 16 := by decide +kernel

/-! ### Inputs, test pulses and outputs -/

theorem test_meets_InputStages :
    let x : DiChan := { was1 := true }
    (10 ≤ 100 ∧ x.was1 = true ∧ x.run = 0 ∧ x.fRun = 0 ∧ 5 ≤ 200) ∧ ({} : DiChan).blank = false ∧ ({} : DiChan).proven = false ∧
      ({ proven := true } : DiChan).proven = true ∧ (DiChan.ossdStage 10 false x).2 = true := by decide +kernel

theorem test_meets_TestPulses_findings :
    let k := 15
    let clean : DiChan := { low := 32768 }
    let cross : DiChan := { low := 1, pre := 1, post := 1 }
    k < 16 ∧ clean.low < 65536 ∧ (clean.judge k false false).find = findClean ∧ (cross.judge k false false).find ≠ findClean ∧
      ((List.range 16).find? fun j => j != k && nbit cross.low j && nbit cross.pre j && nbit cross.post j) = some 0 := by decide +kernel

/-- Test pulses run and source 15 is enabled; die 1 is supplied and in step. -/
def pulses (h : Hw) : Hw :=
  let h := ((up h).setB F.TPG_CTL_RUN 0 true).setB F.TP_CFG_EN 15 true
  let h := (h.setB F.DI_CFG_TPEN 47 true).set F.DI_CFG_TPSRC 47 15
  h.updDie 1 fun d => { d with state := .valid, cut := false, supp := false, synced := true }

theorem test_meets_TestPulses_schedule :
    let s := mk pulses
    let d := s.hw.die 1
    s.Awake ∧ s.hw.present 0 = true ∧ s.hw.tmrSettle.granted 0 .TPG_CTL 0 = true ∧ (mk up).hw.tmrSettle.on F.TPG_CTL_RUN 0 = false ∧
      s.hw.on F.TPG_CTL_RUN 0 = true ∧ d.errA = false ∧ s.hw.on F.TP_CFG_EN 15 = true ∧ d.synced = true ∧ d.noSync = false ∧
      d.tpPaused = false ∧ d.cut = false ∧ d.held = false ∧ s.hw.fieldOff = false ∧ s.hw.on F.TP_CFG_EN 14 = false ∧
      s.hw.dev ≠ devBoot ∧ s.hw.tpHeldOff = false ∧
      s.hw.groupOff 1 = false ∧ (s.hw.link .a 1).err = false ∧ (s.hw.diPar .a 47).src = some 15 := by decide +kernel

theorem test_meets_FieldFrames :
    let s := mk up
    let e := mk fun h => (up h).updLink .b 1 fun l => { l with err := true, good := 100 }
    let off := mk fun h => (up h).putSo 15 { state := .latched }
    s.Awake ∧ s.hw.senses = true ∧ (mk id).hw.senses = false ∧ (s.hw.link .b 1).err = false ∧ ({ ok := false } : FieldFrame).ok = false ∧ ({} : FieldFrame).ok = true ∧
      (e.hw.link .b 1).err = true ∧ 100 ≤ (e.hw.link .b 1).good ∧ (e.hw.link .b 1).dis = 0 ∧ Store.get (fun _ => []) s.hw.fio.notes 1 = [] ∧
      (s.hw.die 1).errA = false ∧ s.hw.fio.clrA = 0 ∧ ({} : CommandFrame).ok = true ∧ (s.hw.so 15).state = .off ∧
      (s.hw.putSo 15 { state := .on, pOn := true, mOn := true }).so 15 = { state := .on, pOn := true, mOn := true } ∧
      (off.hw.so 15).state = .latched ∧ (off.hw.so 15).pOn = false ∧ s.hw.dqInput 15 = false ∧ (s.hw.die 1).errB = false := by
  decide +kernel

/-- Die 1 is supplied; SO pair 15 and DQ 15 have a record. -/
def outs (p : SoPair) (q : DqOut) (h : Hw) : Hw :=
  (((up h).updDie 1 fun d => { d with state := .valid, cut := false, start := false, supp := false }).putSo 15 p).putDq 15 q

theorem test_meets_SoPairs :
    let on := mk (outs { state := .on, pOn := true, mOn := true } {})
    let pulse := mk (outs { state := .on, pOn := true, mOn := true, offP := true } {})
    let shut := mk (outs { state := .shutting } {})
    let latched := mk (outs { state := .latched, fcode := soRbP } {})
    on.Awake ∧ (on.hw.soStart 15).judged = true ∧ ((on.hw.soStart 15).pOn || (on.hw.soStart 15).mOn) = true ∧ (on.hw.die 1).supp = false ∧
      (latched.hw.soStart 15).state = .latched ∧ (on.hw.soStart 15).state ≠ .latched ∧ (shut.hw.soStart 15).state ≠ .latched ∧
      (pulse.hw.soStart 15).offP = true ∧ (pulse.hw.soStart 15).state ≠ .latched ∧ on.hw.soJudged 15 = true ∧ ((on.hw.so 15).pOn || (on.hw.so 15).mOn) = true ∧ (on.hw.link .a 1).err = false ∧
      (on.hw.link .b 1).err = false ∧ (pulse.hw.so 15).offP = true ∧ (pulse.hw.die 1).supp = false ∧ (pulse.hw.so 15).state ≠ .latched ∧
      (on.hw.setB F.SO_CFG_OPULSE 15 true).on F.SO_CFG_OPULSE 15 = true ∧ (shut.hw.so 15).state = .shutting ∧
      (on.hw.so 15).state ≠ .latched ∧ (on.hw.so 15).mOn = true ∧ (on.hw.so 15).pOn = true ∧ (latched.hw.so 15).state = .latched ∧
      (latched.hw.so 15).one = false ∧ (latched.hw.putSo 15 { state := .latched, fcode := soRbP, one := true, fresh := some 0 }).soFresh 15 = true ∧
      (shut.hw.so 15).pOn = false ∧ (shut.hw.so 15).mOn = false ∧ OutSw.soM 15 = .soM 15 := by decide +kernel

/-- Pair 15 was latched when the sample began and a clear has taken it to OFF; DQ 15 was on and a command has shut it down. -/
def sampled (h : Hw) : Hw :=
  outs { before := some { state := .latched, fcode := soRbP } } { state := .shutting, before := some { state := .on } } h

/-- Pair 15 and DQ 15, which were on when the sample began, have latched in it. -/
def twice (h : Hw) : Hw :=
  outs { state := .latched, fcode := soHot, one := true, fresh := some 0, before := some { state := .on, pOn := true, mOn := true } }
    { state := .latched, fcode := dqHot, fresh := some 0, before := some { state := .on } } h

theorem test_meets_SoPairs_sample :
    let h := (mk sampled).hw
    (mk sampled).Awake ∧ (h.so 15).state ≠ .latched ∧ (h.soStart 15).state = .latched ∧ (h.soStart 15).fcode = soRbP ∧
      ({ h with time := 1000 } : Hw).soStart 15 = h.so 15 := by decide +kernel

theorem test_meets_OverloadSwitchesOff :
    let on := mk (outs { state := .on, pOn := true, mOn := true } { state := .on })
    let h := (mk sampled).hw
    let off := (mk up).hw
    on.Awake ∧ on.hw.soStart 15 = on.hw.so 15 ∧ (on.hw.so 15).pOn = true ∧ (on.hw.so 15).mOn = true ∧ (on.hw.so 15).state ≠ .latched ∧
      off.soStart 15 = off.so 15 ∧ (off.so 15).pOn = false ∧ (off.so 15).mOn = false ∧ on.hw.dqStart 15 = on.hw.dq 15 ∧
      (on.hw.dq 15).state = .on ∧ on.hw.dqInput 15 = false ∧ off.dqStart 15 = off.dq 15 ∧ (off.dq 15).state ≠ .on ∧
      (h.soStart 15).pOn = false ∧ (h.soStart 15).mOn = false ∧ ((mk twice).hw.so 15).state = .latched ∧
      ((mk twice).hw.soStart 15).pOn = true ∧ ((mk twice).hw.soStart 15).mOn = true ∧ ((mk twice).hw.dq 15).state = .latched ∧
      ((mk twice).hw.dqStart 15).state = .on ∧ (h.dqStart 15).state = .on ∧ (h.dq 15).state ≠ .latched := by decide +kernel

theorem test_meets_SoPairs_clear :
    let h := (mk (outs { state := .latched, fcode := soOvld, clrB := some 0 } {})).hw
    let t := { h with time := 1000000 }
    let w := { h with time := 1000001 }
    let f := t.putSo 15 { state := .latched, fcode := soOvld, clrB := some 0, fresh := some 1000000 }
    (h.so 15).state = .latched ∧ t.soCond 15 = false ∧ t.soFresh 15 = false ∧ ((t.soClear .a 15).so 15).state = .off ∧
      ((w.soClear .a 15).so 15).state = .latched ∧ f.soFresh 15 = true ∧ ((f.soClear .a 15).so 15).state = .latched := by decide +kernel

theorem test_meets_DqTable :
    let at_ (q : DqOut) := mk (outs {} q)
    let s := at_ { state := .on }
    s.Awake ∧ s.hw.dqInput 15 = false ∧ s.hw.present 0 = true ∧ s.hw.tmrSettle.granted 0 .DQ_CTL 15 = true ∧ s.hw.tmrSettle.outputsLive = true ∧
      (s.hw.die 1).errA = false ∧ wbit 1 1 = false ∧ wbit 0 1 = false ∧ wbit 2 0 = false ∧ (s.hw.dq 15).state = .on ∧
      ((at_ { state := .shutting }).hw.dq 15).state = .shutting ∧ ((at_ { hot := true }).hw.dq 15).hot = true ∧
      ((at_ { hot := true }).hw.dq 15).state = .off ∧
      ((at_ { state := .latched, fcode := dqOvld }).hw.dq 15).state = .latched ∧
      (at_ { state := .latched, fcode := dqOvld }).hw.tmrSettle.dqCond 15 = false ∧
      ((at_ { state := .latched, fcode := dqOvld }).hw.tmrSettle.dqCond 15 || (at_ { state := .latched, fcode := dqOvld }).hw.tmrSettle.dqFresh 15) = false ∧
      (at_ { state := .latched, fcode := dqOvld, fresh := some 0 }).hw.tmrSettle.dqFresh 15 = true ∧
      (at_ { state := .latched, fcode := dqHot, hot := true }).hw.tmrSettle.dqCond 15 = true ∧ (s.hw.die 1).supp = false ∧
      (s.hw.dqStart 15).state = .on ∧ (s.hw.dq 15).state ≠ .latched ∧ ((mk sampled).hw.dqStart 15).state ≠ .latched ∧
      ((at_ { before := some { state := .latched } }).hw.dqStart 15).state = .latched ∧
      ((at_ { before := some { state := .latched } }).hw.dq 15).state ≠ .latched ∧
      (s.hw.link .a 1).err = false := by decide +kernel

/-- Group 1 with a record. -/
def group (x : FieldDie) (h : Hw) : Hw := (up h).updDie 1 fun _ => x

theorem test_meets_SupplyGroups :
    let st (x : FieldDie) := (mk (group x)).hw.die 1
    let v : FieldDie := { state := .valid, cut := false, start := false, supp := false }
    let s := mk (group v)
    s.Awake ∧ (s.hw.link .a 1).err = false ∧ (st v).state = .valid ∧ (st { v with state := .warn }).state = .warn ∧
      (st { v with state := .low }).state = .low ∧ (st {}).state = .cut ∧ (st { v with state := .recovering }).state = .recovering ∧
      s.hw.senses = true ∧ (mk id).hw.senses = false ∧ (st v).cut = false ∧ (st v).held = false ∧ (st v).state ≠ .low ∧ (st { v with held := true }).held = true ∧
      (st { v with held := true }).state = .valid ∧ s.hw.vfOn 1 = true ∧ (st v).errA = false ∧ s.hw.devLive = true ∧
      (s.hw.putClo 3 { state := .uvOff }).clo 3 = { state := .uvOff } ∧
      (s.hw.setB F.CLO_CFG_UV_RESTORE 3 true).on F.CLO_CFG_UV_RESTORE 3 = true ∧ (s.hw.setB F.CLO_CTL_EN 3 true).on F.CLO_CTL_EN 3 = true ∧
      (s.hw.so 15).state ≠ .latched ∧ (s.hw.dq 15).state ≠ .latched ∧ s.hw.dqInput 15 = false ∧ (s.hw.die 1).start = false := by
  decide +kernel

/-- CLO 3 with a record, its group supplied. -/
def loop (x : CloOut) (h : Hw) : Hw := (group { state := .valid, cut := false, start := false, supp := false } h).putClo 3 x

theorem test_meets_CloTable :
    let s := mk (loop { state := .on, drive := 4000, meas := 499, headroom := 999 })
    let m := mk (loop { state := .on, drive := 4000, meas := 500, headroom := 999 })
    let r := mk (loop { state := .on, drive := 4000, meas := 22500, headroom := 5000 })
    let a := mk (loop { state := .alarm, drive := 22500, fcode := cloRb, meas := 22500, headroom := 999 })
    let sh := mk (loop { state := .shutting, rampLeft := 1 })
    s.Awake ∧ s.hw.present 0 = true ∧ s.hw.tmrSettle.granted 0 .CLO_CTL 3 = true ∧ wbit 1 1 = false ∧ s.hw.tmrSettle.devLive = true ∧
      (s.hw.die 1).errA = false ∧ (s.hw.clo 3).state = .on ∧ (a.hw.clo 3).state = .alarm ∧ (a.hw.clo 3).alarmCond = false ∧
      (sh.hw.clo 3).state = .shutting ∧ (s.hw.set F.CLO_CFG_RAMP 3 1).get F.CLO_CFG_RAMP 3 ≠ 0 ∧
      (s.hw.clo 3).judged = true ∧ (s.hw.clo 3).meas < 500 ∧ 4000 ≤ (s.hw.clo 3).drive ∧ (m.hw.clo 3).judged = true ∧
      (m.hw.clo 3).headroom < 1000 ∧ 500 ≤ (m.hw.clo 3).meas ∧ (r.hw.clo 3).judged = true ∧ (r.hw.clo 3).condOf cloRb = true ∧
      (s.hw.link .a 1).err = false ∧ (a.hw.clo 3).drive = 22500 ∧ (a.hw.clo 3).headroom < 1000 ∧ a.hw.tmrSettle.cloFresh 3 = false ∧
      (mk (loop { state := .alarm, fresh := some 0 })).hw.tmrSettle.cloFresh 3 = true := by decide +kernel

theorem test_meets_CliValues :
    let s := mk fun h => ((up h).set F.CLI_CUR_VALUE 7 100001).set F.XLK_SCUR_VALUE 7 0
    let t : CliCfg := { tbl := List.replicate 33 2147483647, cut := 1, pvhi := -2147483648 }
    (s.Awake ∧ s.hw.measures = true ∧ (mk id).hw.measures = false) ∧ (s.hw.setB F.CLI_STAT_NOTRIM 7 true).on F.CLI_STAT_NOTRIM 7 = true ∧ s.hw.cliApart 7 = true ∧ (mk up).hw.cliApart 7 = false ∧ (2 : Nat) ^ 50 - 1 < 2 ^ 50 ∧
      -2147483648 ≤ t.tbl.getD 32 0 ∧ t.tbl.getD 32 0 ≤ 2147483647 ∧ 1 ≤ t.cut ∧ t.cut ≤ 65535 ∧ -2147483648 ≤ t.pvhi ∧
      t.pvhi ≤ 2147483647 ∧ (20000000 : Int) = 4000000 + 500000 * (32 : Nat) ∧
      (∃ x : CliPath, x.neLo = true ∧ (s.hw.cli .a 7).neLo = false) := by
  refine ⟨by decide +kernel, by decide +kernel, by decide +kernel, by decide +kernel, by decide, by decide +kernel, by decide +kernel,
    by decide, by decide, by decide, by decide, by decide, ⟨{ neLo := true }, by decide +kernel⟩⟩

/-! ### Pods, timers, check-value units, messages -/

/-- Pod 4 runs in lockstep as primary of pair 2 and Pod 5 as its standby. -/
def pair2 (h : Hw) : Hw := (((up h).set F.POD_STAT_STATE 4 podPrimary).set F.POD_STAT_STATE 5 podStandby).setB F.POD_STAT_VOTE 4 true

theorem test_meets_PodMismatches_standby :
    let h := ((mk pair2).hw.updPod 5 fun p => { p with halted := true })
    h.healthyStandby (otherPod 4) = true ∧ (h.pod (otherPod 4)).halted = true := by decide +kernel

theorem test_meets_PodMismatches :
    let s := mk pair2
    let halted := s.hw.updPod 4 fun p => { p with halted := true }
    let idle := s.hw.set F.POD_STAT_STATE 5 podIdle
    let forced := ((s.hw.setB F.POD_PAIR_GSAFE2 0 true).set F.SFN_CFG_PAIR 255 2).set F.SFN_CFG_TYPE 255 1
    s.Awake ∧ s.hw.lockstep 4 = true ∧ s.hw.lockstep 5 = true ∧ s.hw.podState 4 = podPrimary ∧ s.hw.healthyStandby (otherPod 4) = true ∧
      (s.hw.set F.POD_STAT_STATE 5 podRetired).healthyStandby (otherPod 4) = false ∧ s.hw.podState 5 = podStandby ∧
      (s.hw.pod 4).halted = false ∧ idle.podState 5 = podIdle ∧ idle.lockstep 5 = true ∧ 2 < 3 ∧ (4 : Nat) = 2 * 2 ∧
      (halted.pod 4).halted = true ∧ halted.podState 4 = podPrimary ∧ (halted.pod (otherPod 4)).halted = false ∧ (5 : Nat) = 2 * 2 + 1 ∧
      (s.hw.pod (otherPod 5)).halted = false ∧ forced.forcedPair 2 = true ∧
      forced.forcedPair 2 = true ∧ forced.get F.SFN_CFG_PAIR 255 = 2 ∧ forced.get F.SFN_CFG_TYPE 255 ≠ 0 := by decide +kernel

theorem test_meets_PodReturn :
    let s := mk pair2
    let st (k : Nat) := s.hw.set F.POD_STAT_STATE 5 k
    let rej (ph : RejoinPhase) := (st podRejoining).updPod 5 fun p => { p with phase := ph, tries := 64 }
    s.Awake ∧ (st podResetting).podState 5 = podResetting ∧ ((st podResetting).pod 5).retire = 0 ∧
      (((st podResetting).updPod 5 fun p => { p with retire := rcCmp }).pod 5).retire ≠ 0 ∧
      (st podResetting).on F.POD_STAT_LOCKSTEP_BROKEN 5 = false ∧
      ((st podResetting).setB F.POD_STAT_LOCKSTEP_BROKEN 5 true).on F.POD_STAT_LOCKSTEP_BROKEN 5 = true ∧
      (rej .copying).podState 5 = podRejoining ∧ (rej .copying).primaryOf (pairOf 5) = some 4 ∧
      Store.wf (fun _ => 0) (rej .copying).priv = true ∧ ((rej .copying).pod 5).phase = .copying ∧
      ((rej .stalled).pod 5).phase = .stalled ∧ ((rej .copied).pod 5).phase = .copied ∧ 64 ≤ ((rej .copied).pod 5).tries ∧
      s.hw.present 4 = true ∧ s.hw.tmrSettle.granted 4 .POD_CTL 5 = true ∧ s.hw.on F.POD_STAT_REJFAIL 5 = false ∧
      (s.hw.setB F.POD_STAT_REJFAIL 5 true).on F.POD_STAT_REJFAIL 5 = true ∧ (st podReloading).podState 5 = podReloading ∧
      (st podReloading).goodImage (pairOf 5) = none ∧ (rej .stalled).on F.POD_STAT_LOCKSTEP_BROKEN 5 = false := by decide +kernel

theorem test_meets_PodReturn_debug :
    let s := mk fun h => (pair2 h).setB F.SEC_STAT_DBG_EN 0 true
    let split := s.hw.set F.POD_STAT_STATE 5 podSplit
    s.Awake ∧ s.hw.on F.SEC_STAT_DBG_EN 0 = true ∧ s.hw.bitOf F.OTP_CRIT_VALUE 0 2 = false ∧ s.hw.get F.GLB_LIFE_LC 0 ≠ 2 ∧
      (s.hw.set F.GLB_LIFE_LC 0 2).get F.GLB_LIFE_LC 0 = 2 ∧ 4 ≤ (4 : Nat) ∧ s.hw.lockstep 4 = true ∧ split.podState 5 = podSplit ∧
      (mk pair2).hw.on F.SEC_STAT_DBG_EN 0 = false ∧ s.hw.on F.POD_STAT_LOCKSTEP_BROKEN 4 = false ∧ s.hw.podState 4 ≠ podSplit ∧
      (s.hw.setB F.POD_STAT_LOCKSTEP_BROKEN 4 true).on F.POD_STAT_LOCKSTEP_BROKEN 4 = true ∧ PortRequest.attachCore 3 ≠ .read := by decide +kernel

theorem test_meets_TimerUnits :
    let s := mk fun h => ((up h).setB F.TMR_CTL_EN 31 true).set F.TMR_RELOAD_ACT_VALUE 31 1
    let wrap := s.hw.set F.TMR_CNT_COUNT 31 1
    let chained := { ((mk up).hw.setB F.TMR_CTL_EN 30 true).set F.TMR_RELOAD_ACT_VALUE 30 0 with time := 1 }
    let due := { s.hw with tmr := [(31, { due := true })] }
    let ran := { s.hw with time := 1 }
    let slow := { s.hw with tmr := [(31, { psc := 65535 })], time := 65536 }
    let cap := { (s.hw.setB F.TMR_CTL_CAPEN 31 true).set F.TMR_CAPCFG_SRC 31 0xFF with tmr := [(31, { level := true, held := 255 })] }
    let pul := { (s.hw.set F.TMR_CAPCFG_SRC 31 0xC1).set F.TMR_CAPCFG_DIV 31 255 with tmr := [(31, { edges := 255 })], pulses := [0xC1] }
    let mov := { s.hw with tmr := [(31, { moved := some 0 })] }
    s.Awake ∧ ran.on F.TMR_CTL_EN 31 = true ∧ ran.on F.TMR_CTL_CHAIN 31 = false ∧ (ran.timer 31).start + (ran.timer 31).psc + 1 ≤ ran.time ∧
      (slow.timer 31).start + (slow.timer 31).psc + 1 ≤ slow.time ∧ ¬ (s.hw.timer 31).start + (s.hw.timer 31).psc + 1 ≤ s.hw.time ∧
      chained.on F.TMR_CTL_CHAIN 30 = false ∧ (chained.timer 30).start + (chained.timer 30).psc + 1 ≤ chained.time ∧
      (cap.on F.TMR_CTL_EN 31 = true ∧ levelSource (cap.get F.TMR_CAPCFG_SRC 31) = true ∧ cap.captureLevel 0xFF ≠ (cap.timer 31).level ∧
        cap.get F.TMR_CAPCFG_FLT 31 ≤ (cap.timer 31).held ∧ cap.captureLevel 0xFF = false ∧ cap.get F.TMR_CAPCFG_SRC 31 = (255 : Fin 256).val ∧
        (cap.timer 31).moved ≠ some cap.time ∧ (mov.timer 31).moved = some mov.time ∧ (cap.set F.TMR_CTL_CAPEDGE 31 1).get F.TMR_CTL_CAPEDGE 31 = 1) ∧
      (levelSource (pul.get F.TMR_CAPCFG_SRC 31) = false ∧ pul.get F.TMR_CAPCFG_SRC 31 ∈ pul.pulses.drop (pul.timer 31).taken ∧
        pul.get F.TMR_CAPCFG_DIV 31 ≤ (pul.timer 31).edges ∧ s.hw.get F.TMR_CAPCFG_SRC 31 ∉ s.hw.pulses) ∧
      ((0 : Nat) < pul.get F.TMR_CAPCFG_DIV 31 ∧ (s.hw.timer 31).edges = 0) ∧
      (mov.tmrSettle.timer 31).moved = some mov.tmrSettle.time ∧ (s.hw.tmrSettle.timer 31).moved ≠ some s.hw.tmrSettle.time ∧
      s.hw.tmrSettle.granted 6 .TMR_CNT 31 = true ∧ s.hw.memPlace 6 (Reg.addr .TMR_CNT 31) 4 = none ∧ Reg.addr .TMR_CNT 31 % 4 = 0 ∧
      decodeReg (Reg.addr .TMR_CNT 31) = some (.TMR_CNT, 31) ∧ s.hw.on F.TMR_CTL_EN 31 = true ∧
      s.hw.get F.TMR_CNT_COUNT 31 < s.hw.get F.TMR_RELOAD_ACT_VALUE 31 ∧ wrap.get F.TMR_RELOAD_ACT_VALUE 31 ≤ wrap.get F.TMR_CNT_COUNT 31 ∧
      chained.get F.TMR_RELOAD_ACT_VALUE 30 ≤ chained.get F.TMR_CNT_COUNT 30 ∧ s.hw.on F.TMR_CTL_EN 0 = false ∧
      (due.timer 31).due = true ∧ due.get F.TMR_CNT_COUNT 31 = due.get F.TMR_CMP_ACT_VALUE 31 ∧ (s.hw.timer 31).due = false ∧
      s.hw.get F.TMR_CTL_CAPEDGE 31 = 0 ∧
      (s.hw.setB F.TMR_CTL_CAPEN 31 true).on F.TMR_CTL_CAPEN 31 = true ∧
      s.hw.present 6 = true ∧ s.hw.tmrSettle.granted 6 .TMR_CTL 31 = true ∧ s.hw.tmrSettle.granted 6 .TMR_RELOAD 31 = true ∧
      s.hw.tmrSettle.granted 6 .TMR_CMP 31 = true ∧ s.hw.tmrSettle.granted 6 .TMR_CAPCFG 31 = true ∧ wbit 1 0 = true := by decide +kernel

theorem test_meets_CheckUnits :
    let s := mk up
    let g := s.hw.tmrSettle
    let b := (mk fun h => ((up h).setB F.CRC_STAT_BUSY 7 true).set F.CRC_LEN_VALUE 7 4).hw
    s.Awake ∧ 3 ≤ s.hw.get F.CRC_CFG_WIDTH 7 ∧ s.hw.get F.CRC_CFG_WIDTH 7 ≤ 32 ∧
      (s.hw.set F.CRC_CFG_WIDTH 7 3).get F.CRC_CFG_WIDTH 7 = 3 ∧ s.hw.present 6 = true ∧
      g.granted 6 CrcWidth.four.reg 7 = true ∧ g.granted 6 CrcWidth.two.reg 7 = true ∧ g.granted 6 CrcWidth.one.reg 7 = true ∧
      g.granted 6 .CRC_CTL 7 = true ∧ wbit 1 1 = false ∧ g.crcBusy 7 = false ∧ b.tmrSettle.crcBusy 7 = true ∧ b.crcBusy 7 = true ∧
      wbit 0 0 = false ∧ s.hw.mayRead idDma .SEC_BUF = false ∧ s.hw.mayRead idDma .GLB_ID = true ∧ Reg.GLB_ID ≠ .MBX_SEM ∧
      b.get F.CRC_LEN_VALUE 7 = 4 ∧ (b.set F.CRC_ADDR_LO_VALUE 7 (Reg.addr .SEC_BUF 127)).crcAddr 7 = Reg.addr .SEC_BUF 127 ∧
      Reg.addr .SEC_BUF 127 % 4 = 0 ∧ decodeReg (Reg.addr .SEC_BUF 127) = some (.SEC_BUF, 127) ∧
      decodeReg (Reg.addr .GLB_ID 0) = some (.GLB_ID, 0) ∧ Reg.SEC_BUF ∉ [Reg.MBX_MSG, .MBX_SEND, .MBX_TAKE, .MBX_STAT] ∧
      dramBase ≤ (b.set64 F.CRC_ADDR_LO_VALUE F.CRC_ADDR_HI_VALUE 0).crcAddr 7 + dramBase ∧
      Store.get (fun _ => 0) b.crcRead 7 = 0 ∧ b.crcReg 7 = b.get F.CRC_INIT_VALUE 7 % 2 ^ b.get F.CRC_CFG_WIDTH 7 := by decide +kernel

/-- Channel 31 from service core 6 to service core 9. -/
def channel (full : Bool) (h : Hw) : Hw :=
  let h := (((up h).setB F.MBX_BIND_EN 31 true).set F.MBX_BIND_SEND 31 6).set F.MBX_BIND_RECV 31 9
  (h.setB F.MBX_STAT_FULL 31 full).setB F.MBX_TAKE_NOTIFY 31 true

theorem test_meets_Mailboxes :
    let s := mk (channel false)
    let f := mk (channel true)
    let g := s.hw.tmrSettle
    s.Awake ∧ s.hw.present 6 = true ∧ s.hw.present 9 = true ∧ s.hw.present 0 = true ∧ g.granted 0 .MBX_BIND 31 = true ∧ badBinding 0 0x80090006 = false ∧
      badBinding 31 0 = true ∧ g.maySend 31 6 = true ∧ g.maySend 31 9 = false ∧ g.mbxActs (g.on F.MBX_BIND_SPAIR 31) 6 = true ∧
      g.mbxFull 31 = false ∧ f.hw.tmrSettle.mbxFull 31 = true ∧ nfield (8 : Nat) 0 4 = 8 ∧ g.mayTake 31 9 = true ∧ g.mayTake 31 6 = false ∧
      f.hw.tmrSettle.mbxActs (f.hw.tmrSettle.on F.MBX_BIND_RPAIR 31) 9 = true ∧ f.hw.tmrSettle.on F.MBX_TAKE_NOTIFY 31 = true ∧
      g.isStandby 6 = false ∧ s.hw.memPlace 6 (Reg.addr .MBX_STAT 31) 4 = none ∧ Reg.addr .MBX_STAT 31 % 4 = 0 ∧
      decodeReg (Reg.addr .MBX_STAT 31) = some (.MBX_STAT, 31) ∧ (s.hw.setB F.MBX_LOCK_LOCK 0 true).on F.MBX_LOCK_LOCK 0 = true ∧
      (1 ≤ nfield (8 : Nat) 0 4 ∧ nfield (8 : Nat) 0 4 ≤ 8 ∧ 8 < nfield (9 : Nat) 0 4) := by decide +kernel

/-- Channel 31 from pair 2 to pair 2: its Pod 5 is a standby, or is IDLE and not the vote source. -/
theorem test_meets_Mailboxes_pair :
    let b (h : Hw) := ((((pair2 h).setB F.MBX_BIND_EN 31 true).set F.MBX_BIND_SEND 31 4).setB F.MBX_BIND_SPAIR 31 true).set F.MBX_BIND_RECV 31 4
    let s := mk fun h => (b h).setB F.MBX_BIND_RPAIR 31 true
    let n := mk fun h => ((b h).setB F.MBX_BIND_RPAIR 31 true).set F.POD_STAT_STATE 5 podIdle
    s.Awake ∧ s.hw.present 5 = true ∧ s.hw.tmrSettle.isStandby 5 = true ∧ n.hw.tmrSettle.maySend 31 5 = true ∧
      n.hw.tmrSettle.mbxActs (n.hw.tmrSettle.on F.MBX_BIND_SPAIR 31) 5 = false ∧ n.hw.tmrSettle.mayTake 31 5 = true ∧
      n.hw.tmrSettle.mbxActs (n.hw.tmrSettle.on F.MBX_BIND_RPAIR 31) 5 = false ∧ n.hw.tmrSettle.isStandby 5 = false ∧
      n.hw.present 5 = true := by decide +kernel

theorem test_meets_Mailboxes_bdie :
    let s := mk fun h =>
      let h := ((up h).setB F.MBX_BIND_EN 30 true).set F.MBX_BIND_SEND 30 6
      let h := ((h.set F.MBX_BIND_RECV 30 idBdie).setB F.MBX_STAT_FULL 30 true).set F.MBX_TAKE_LEN 30 2
      let h := ((h.setB F.MBX_BIND_EN 31 true).set F.MBX_BIND_SEND 31 idBdie).set F.MBX_BIND_RECV 31 6
      h.putWord .MBX_MSG 240 0xFF01
    s.Awake ∧ s.hw.on F.XLK_STAT_XLKC_UP 0 = true ∧ s.hw.mayTake 30 idBdie = true ∧ s.hw.mbxFull 30 = true ∧
      s.hw.maySend 31 idBdie = true ∧ s.hw.mbxFull 31 = false ∧ nfield (s.hw.word .MBX_MSG 240).toNat 0 8 = 1 ∧
      s.hw.get F.MBX_TAKE_LEN 30 = 2 := by decide +kernel

theorem test_meets_SemaphoresAndEvents :
    let s := mk up
    let g := s.hw.tmrSettle
    let held := (s.hw.setB F.MBX_SEM_HELD 31 true).tmrSettle
    let q := mk fun h => { up h with msixQ := [15] }
    s.Awake ∧ s.hw.present 6 = true ∧ g.mayRead 6 .MBX_SEM = true ∧ g.on F.MBX_SEM_HELD 31 = false ∧ g.isStandby 6 = false ∧
      held.on F.MBX_SEM_HELD 31 = true ∧ g.granted 6 .MBX_SEM 31 = true ∧ s.hw.bitOf F.EVT_PEND_PEND 3 31 = false ∧
      g.granted 6 .EVT_ROUTE 127 = true ∧ g.granted 6 .EVT_PEND 3 = true ∧ routeOk 3 15 = true ∧ q.hw.msixPba = 0 ∧
      q.hw.msixQ = 15 :: [] ∧ q.hw.boot.pcieUp = true ∧ (mk id).hw.boot.pcieUp = false ∧ q.Awake := by decide +kernel

/-- MSI-X is enabled and vector 15, which waits in the pending-bit array, is not masked; vector 0 waits and is. -/
theorem test_meets_SemaphoresAndEvents_pba :
    let u := mk fun h => { up h with msixPba := 0x8001, msixTbl := [(63, 0)] }
    u.Awake ∧ u.hw.boot.pcieUp = true ∧ nbit u.hw.msixPba 15 = true ∧ u.hw.vectorMasked 15 = false ∧
      ∀ k, k < 15 → nbit u.hw.msixPba k = false ∨ u.hw.vectorMasked k = true := by decide +kernel

/-- Queue 15 in a state, with a command exposed; its rings have 16 entries. -/
def queue (st : Nat) (h : Hw) : Hw :=
  let h := (((up h).set F.QUE_STAT_STATE 15 st).set F.QUE_CTL_SQSZ 15 4).set F.QUE_CTL_CQSZ 15 4
  h.updQueue 15 fun x => { x with stamps := [0] }

theorem test_meets_QueuePairs :
    let s := mk (queue qsActive)
    s.Awake ∧ s.hw.boot.pcieUp = true ∧ (mk id).hw.boot.pcieUp = false ∧ s.hw.qGrant = some 15 ∧ s.hw.boot.svcUp = true ∧
      (mk id).hw.boot.svcUp = false ∧ (mk up).hw.qGrant = none ∧
      (s.hw.queue 15).stamps = 0 :: [] ∧ s.hw.present 6 = true ∧ s.hw.tmrSettle.granted 6 .QUE_CTL 15 = true ∧
      s.hw.qState 15 = qsActive ∧ (mk (queue qsOff)).hw.qState 15 = qsOff ∧ (mk (queue qsShutting)).hw.qState 15 = qsShutting ∧
      (mk (queue qsError)).hw.qState 15 = qsError ∧ (mk (queue qsShutting)).hw.get F.QUE_STAT_OUTST 15 = 0 := by decide +kernel

/-! ### Packages

The neutral point of the curve is a public key under which the neutral point with the scalar 0 signs every message, so that a
package with this signer meets the verification without a run of the curve arithmetic on a long scalar. -/

/-- The neutral point as a public key, and the signature that holds under it. -/
def nKey : List Byte := 1 :: List.replicate 56 0
def nSig : List Byte := nKey ++ List.replicate 57 0

theorem edMul_zero (n k : Nat) : edMul n k edZero = edZero := by
  have dbl : edAdd edZero edZero = edZero := by decide +kernel
  induction n generalizing k with
  | zero => rfl
  | succ n ih =>
    simp only [edMul, dbl, ih]
    split
    · rfl
    · split <;> rfl

theorem nSig_verifies (m : List Byte) : ed448Verify nKey m nSig = true := by
  have h1 : edDecode nKey = some edZero := by decide +kernel
  have h2 : nSig.take 57 = nKey := by decide +kernel
  have h3 : ofBytesLE (nSig.drop 57) = 0 := by decide +kernel
  have h4 : (nSig.length == 114) = true := by decide +kernel
  have h5 : decide (0 < edL) = true := by decide +kernel
  have h6 (c : Nat) : edEq (edMul 450 (4 * 0) edBase) (edAdd (edMul 4 4 edZero) (edMul 450 (4 * c) edZero)) = true := by
    rw [edMul_zero, edMul_zero]; decide +kernel
  simp only [ed448Verify, h1, h2, h3, h4, h5, h6, Bool.and_self]

/-- The header of a package with that signer. -/
def pkgHead (kind slot rbk len : Nat) (dig : List Byte) : List Byte :=
  [0x41, 0x4B, 0x50, 0x4B, 0x01, BitVec.ofNat 8 kind, BitVec.ofNat 8 slot, 0] ++ bytesLE 4 0x00010000 ++ [BitVec.ofNat 8 rbk, 0, 0, 0] ++
    bytesLE 8 0 ++ bytesLE 4 len ++ bytesLE 4 0 ++ nKey ++ List.replicate 7 0 ++ dig ++ nSig ++ List.replicate 14 0

theorem verifies {h : Hw} {k : PkgKind} {b : List Byte} (h1 : pkgShape k b = true) (h2 : pkgSlotOk k b = true)
    (h3 : h.keyInSlot (pkgKeySlot b) nKey = true) (h4 : pkgSigner b = nKey) (h5 : pkgSig b = nSig)
    (h6 : digest k.tag (pkgBody b) = pkgBodyDig b) (h7 : pkgTarget b = 0) (h8 : h.rbkCount ≤ pkgRbk b) : h.verifyPkg k b = none := by
  unfold Hw.verifyPkg
  rw [if_neg (by simp [h1]), h4, h5, if_neg (by simp [h2, h3]), if_neg (by simp [nSig_verifies]), if_neg (by simp [h6]),
    if_neg (by simp [h7])]
  cases k <;> simp [h8]

/-- The digests of the key and of the two bodies of one byte 0, as SHAKE256 gives them. -/
def keyDig : List Byte := bytesLE 32 0x2af6d15785ca5f66c8da4b3324f75e313f36dbe1a07bbfa5ffeaf02a6f8138a1
def cfgDig : List Byte := bytesLE 32 0x3c420fd56a753a5be0fb6bf51b0e1cb07d35edf8940f378a3d542d84108b58d0
def fwDig : List Byte := bytesLE 32 0x8e2cc6843cd520f3ea0f9ba344473a51d4a255cf6bbd923cef008c6366e15c0e

theorem test_digest_key : digest tagPubKey nKey = keyDig := by decide +kernel
theorem test_digest_cfg : digest tagConf [0] = cfgDig := by decide +kernel
theorem test_digest_fw : digest tagFwBody [0] = fwDig := by decide +kernel

/-- A configuration package signed by the key of slot 4, and a firmware package signed by that of slot 0. -/
def cfgPkg : List Byte := pkgHead 2 4 0 1 cfgDig ++ [0]
def fwPkg : List Byte := pkgHead 1 0 0 1 fwDig ++ [0]

/-- The key in the ROT slots 0 and 4. -/
def rotWords : Store Nat :=
  ((List.range 8).map fun i => (0x080 + i, ofBytesLE ((keyDig.drop (4 * i)).take 4))) ++
    (List.range 8).map fun i => (0x0A0 + i, ofBytesLE ((keyDig.drop (4 * i)).take 4))

/-- The hardware with these keys latched. -/
def keyed (h : Hw) : Hw := { h with otp := { h.otp with words := rotWords } }

theorem cfgPkg_verifies {h : Hw} (hs : h.rotSlot 4 = keyDig) (hr : h.rbkCount = 0) : h.verifyPkg .config cfgPkg = none := by
  refine verifies (by decide +kernel) (by decide +kernel) ?_ (by decide +kernel) (by decide +kernel) ?_ (by decide +kernel)
    (by rw [hr]; exact Nat.zero_le _)
  · rw [show pkgKeySlot cfgPkg = 4 by decide +kernel, Hw.keyInSlot, hs, test_digest_key]; decide +kernel
  · rw [show pkgBody cfgPkg = [0] by decide +kernel, show PkgKind.config.tag = tagConf from rfl, test_digest_cfg]; decide +kernel

theorem fwPkg_verifies {h : Hw} (hs : h.rotSlot 0 = keyDig) (hr : h.rbkCount = 0) : h.verifyPkg .firmware fwPkg = none := by
  refine verifies (by decide +kernel) (by decide +kernel) ?_ (by decide +kernel) (by decide +kernel) ?_ (by decide +kernel)
    (by rw [hr]; exact Nat.zero_le _)
  · rw [show pkgKeySlot fwPkg = 0 by decide +kernel, Hw.keyInSlot, hs, test_digest_key]; decide +kernel
  · rw [show pkgBody fwPkg = [0] by decide +kernel, show PkgKind.firmware.tag = tagFwBody from rfl, test_digest_fw]; decide +kernel


/-! ### Naliz Command Protocol -/

/-- A command packet with session 1, DPTR 4 where it has data, and its PARAMS. -/
def packet (op dlen object : Nat) (params : List Byte) : List Byte :=
  bytesLE 2 op ++ bytesLE 6 0 ++ bytesLE 2 (if op < 2 then 0 else 1) ++ bytesLE 6 0 ++ bytesLE 8 (if dlen = 0 then 0 else 4) ++
    bytesLE 4 dlen ++ bytesLE 4 object ++ (params ++ List.replicate 32 0).take 32

/-- Queue 0 holds a command of session 1, which has every feature of version 2.1. -/
def ncp (c : NcpCmd) (h : Hw) : Hw :=
  let h := (((up h).set F.QUE_STAT_STATE 0 qsActive).set F.QUE_STAT_OUTST 0 1).set F.QUE_CTL_CQSZ 0 4
  { h with queues := [(0, { cmds := [c] })], ncp := { h.ncp with sessions := [{ id := 1, ver := 0x201, feats := 0xFF }] } }

/-- The command is accepted in this hardware. -/
def takes (h : Hw) (c : NcpCmd) (io : NcpIo) (op : OpSpec) (chk : NcpCmd → Checks) : Bool :=
  (ncp c h).ncpAccepts 0 0 io op chk == some c

/-- The command in the queue. -/
def cmd (op dlen object : Nat) (params : List Byte) : NcpCmd := { packet := packet op dlen object params }

theorem test_meets_NcpReads :
    let h := State.reset.hw
    (mk (ncp {})).Awake ∧ takes h (cmd 0x0000 0 0 []) {} opNop (fun _ => {}) = true ∧
      takes h (cmd 0x0102 0 0 []) {} opStateRead (fun _ => {}) = true ∧ takes h (cmd 0x0A04 0 0 []) {} opAccessViol (fun _ => {}) = true ∧
      takes h (cmd 0x0803 0 0x09000000 []) {} opFwStatus (fun _ => {}) = true ∧
      takes h (cmd 0x0101 96 0 []) {} opDeviceInfo (fun _ => returns 96) = true ∧
      takes h (cmd 0x0205 1028 0 []) {} opCfgSlots (fun _ => returns 1028) = true ∧
      takes h (cmd 0x0207 512 0x0A000007 []) {} opOtpRead (fun _ => returns 512) = true ∧
      takes h (cmd 0x0302 64 0x0300000F []) {} opLaneStatus (fun _ => returns 64) = true ∧
      takes h (cmd 0x0305 16 0 [63, 1]) {} opZoneStatus (fun p =>
        { data := .some (16 * p.p 1 1), param := firstDetail [(decide (63 < p.p 0 1 ∨ p.p 1 1 = 0 ∨ 64 < p.p 0 1 + p.p 1 1), ndRange)] }) = true ∧
      takes h (cmd 0x0401 8 0 [255, 1, 0]) {} opSafetyStatus (fun p =>
        { data := .some (8 * p.p 1 2), param := firstDetail [(decide (p.p 1 2 = 0 ∨ 256 < p.p 0 1 + p.p 1 2), ndRange)] }) = true ∧
      takes h (cmd 0x0402 32 0 [255, 1]) {} opSafetyTiming (fun p =>
        { data := .some (32 * p.p 1 1)
          param := firstDetail [(decide (p.p 1 1 = 0 ∨ 64 < p.p 1 1 ∨ 256 < p.p 0 1 + p.p 1 1), ndRange)] }) = true ∧
      takes h (cmd 0x0403 32 0 []) {} opExchangeStatus (fun _ => returns 32) = true ∧
      takes h (cmd 0x0503 512 0 []) {} opIoRead (fun _ => returns 512) = true ∧
      takes h (cmd 0x0701 40 0x05000000 []) {} opLedgerStatus (fun _ => returns 40) = true ∧
      takes h (cmd 0x0901 61 0 []) {} opAttestIdentity (fun _ => returns 61) = true ∧
      takes h (cmd 0x0902 320 0 (List.replicate 32 255)) {} opAttestReport (fun _ => returns 320) = true ∧
      ({ h with idKey := [1] } : Hw).idKey ≠ [] := by decide +kernel

theorem test_meets_NcpReads_ledger :
    let h := State.reset.hw.set64 F.LDG_CLSEQ_LO_VALUE F.LDG_CLSEQ_HI_VALUE 1
    takes h (cmd 0x0702 131584 0x05000000 [0, 0, 0, 0, 0, 0, 0, 0, 1]) {} opLedgerRead (fun p =>
      { data := .some (131584 * p.p 8 4)
        param := firstDetail [((ncp {} h).badCount { p with packet := p.packet } || decide (p.p 0 8 < h.rdSeq), ndRange)]
        busy := firstDetail [(decide (h.clSeq < p.p 0 8 + p.p 8 4), ndNone)] }) = true := by decide +kernel

/-- A staged package: the module with the keys, the package at the start of staging, and the command that names it. -/
def stagedPkg (b : List Byte) (op : Nat) (object dlen : Nat) : Hw :=
  ncp (cmd op dlen object (bytesLE 8 0 ++ bytesLE 4 b.length)) (keyed (State.reset.hw.putDram stagingBase b))

/-- A command whose checks come out clean is accepted. -/
theorem accepts_of {h : Hw} {q i : Nat} {io : NcpIo} {s : OpSpec} {chk : NcpCmd → Checks} {c : NcpCmd} {k : Checks}
    (hk : chk c = k) (hc : h.ncpCmd q i s = some c) (hr : h.ncpRefusal q s c k = none) (hf : h.ncpFail q i s c io = none) :
    h.ncpAccepts q i io s chk = some c := by
  simp [Hw.ncpAccepts, hc, hk, hr, hf]

theorem pkgChecks_clean {h : Hw} {need : DataUse} {kind : NcpCmd → PkgKind} {c : NcpCmd} (ho : badOffset c (c.p 8 4) = false)
    (hd : h.dramUp = true) (hv : h.verifyPkg (kind c) (h.staged c) = none) : h.pkgChecks {} need kind c = { data := need } := by
  simp [Hw.pkgChecks, ho, hd, hv]

theorem staged_cfg (op dlen : Nat) (ho : op = 0x0202 ∧ dlen = 32 ∨ op = 0x0203 ∧ dlen = 0) :
    let h := stagedPkg cfgPkg op 0x07000000 dlen
    let c := cmd op dlen 0x07000000 (bytesLE 8 0 ++ bytesLE 4 cfgPkg.length)
    h.verifyPkg .config (h.staged c) = none := by
  intro h c
  have e : h.staged c = cfgPkg := by
    rcases ho with ⟨rfl, rfl⟩ | ⟨rfl, rfl⟩ <;> decide +kernel
  rw [e]
  rcases ho with ⟨rfl, rfl⟩ | ⟨rfl, rfl⟩ <;> exact cfgPkg_verifies (by decide +kernel) (by decide +kernel)

theorem staged_fw (op object : Nat) (ho : op = 0x0801 ∧ object = 0x07000000 ∨ op = 0x0802 ∧ object = 0x09000000) :
    let h := stagedPkg fwPkg op object 0
    let c := cmd op 0 object (bytesLE 8 0 ++ bytesLE 4 fwPkg.length)
    h.verifyPkg (h.fwKind c) (h.staged c) = none := by
  intro h c
  have e : h.staged c = fwPkg := by
    rcases ho with ⟨rfl, rfl⟩ | ⟨rfl, rfl⟩ <;> decide +kernel
  have k : h.fwKind c = .firmware := by
    unfold Hw.fwKind; rw [e]; decide +kernel
  rw [e, k]
  rcases ho with ⟨rfl, rfl⟩ | ⟨rfl, rfl⟩ <;> exact fwPkg_verifies (by decide +kernel) (by decide +kernel)

theorem test_meets_NcpReads_packages :
    (let h := stagedPkg cfgPkg 0x0202 0x07000000 32
     h.ncpAccepts 0 0 {} opCfgVerify (h.pkgChecks {} (.some 32) fun _ => .config) =
       some (cmd 0x0202 32 0x07000000 (bytesLE 8 0 ++ bytesLE 4 cfgPkg.length))) ∧
    (let h := stagedPkg fwPkg 0x0801 0x07000000 0
     h.ncpAccepts 0 0 {} opFwVerify (h.pkgChecks {} .none h.fwKind) =
       some (cmd 0x0801 0 0x07000000 (bytesLE 8 0 ++ bytesLE 4 fwPkg.length))) :=
  ⟨accepts_of (pkgChecks_clean (by decide +kernel) (by decide +kernel) (staged_cfg _ _ (.inl ⟨rfl, rfl⟩))) (by decide +kernel) (by decide +kernel) (by decide +kernel),
    accepts_of (pkgChecks_clean (by decide +kernel) (by decide +kernel) (staged_fw _ _ (.inl ⟨rfl, rfl⟩))) (by decide +kernel) (by decide +kernel) (by decide +kernel)⟩

theorem test_meets_NcpRefusals :
    let h := State.reset.hw
    let refused (c : NcpCmd) (op : OpSpec) (chk : NcpCmd → Checks) (st d : Nat) : Bool :=
      (ncp c h).ncpCmd 0 0 op == some c && (ncp c h).ncpRefusal 0 op c (chk c) == some (st, d)
    refused (cmd 0x0001 0 0 [2, 2, 3, 2]) opOpen ((ncp {} h).openChecks 0) 0x104 0 = true ∧
      refused (cmd 0x0003 0 0 []) opDeviceReset (resetChecks 0) 0x103 ndRange = true ∧
      refused (cmd 0x0203 1 0x07000000 []) opCfgInstall ((ncp {} h).cfgInstallChecks {}) 0x102 0 = true ∧
      refused (cmd 0x0206 0 0x07000000 []) opTrialRun (ncp {} h).trialChecks 0x202 0 = true ∧
      refused (cmd 0x0802 0 0x09000000 []) opFwInstall ((ncp {} h).pkgChecks {} .none (ncp {} h).fwKind) 0x103 ndRange = true ∧
      refused (cmd 0x0201 0 0x07000000 [1]) opStageWrite (fun p => { data := .some 0, param := firstDetail [(badOffset p p.dlen, ndRange)] }) 0x103
        ndRange = true ∧
      refused (cmd 0x0102 1 0 []) opStateRead (fun _ => {}) 0x102 0 = true ∧
      refused (cmd 0x0A04 0 1 []) opAccessViol (fun _ => {}) 0x103 ndRange = true := by decide +kernel

theorem test_meets_NcpRefusals_fails :
    let h := State.reset.hw
    let stageChk : NcpCmd → Checks := fun p => { data := .some 0, param := firstDetail [(badOffset p p.dlen, ndRange)] }
    let clean (h : Hw) (c : NcpCmd) (op : OpSpec) (chk : NcpCmd → Checks) : Bool :=
      h.ncpCmd 0 0 op == some c && h.ncpRefusal 0 op c (chk c) == none
    let c := cmd 0x0201 64 0x07000000 []
    let d := cmd 0x0101 96 0 []
    let v := cmd 0x0202 32 0x07000000 (bytesLE 8 0 ++ bytesLE 4 512)
    let l := cmd 0x0301 0 0x0300000F [1]
    let n := (ncp c h).setB F.DDR_STAT_TRAINED 0 false
    let u := (ncp l h).set F.GLB_STATE_STATE 0 devUnconfigured
    clean n c opStageWrite stageChk = true ∧ opStageWrite.dram = true ∧ n.dramUp = false ∧ clean (ncp c h) c opStageWrite stageChk = true ∧
      (ncp c h).dramUp = true ∧ clean (ncp v h) v opCfgVerify ((ncp v h).pkgChecks { dramErr := some 0x1BFFFFFFF } (.some 32) fun _ => .config) = true ∧
      clean (ncp d h) d opDeviceInfo (fun _ => returns 96) = true ∧ opDeviceInfo.dram = false ∧ d.dlen ≠ 0 ∧
      u.ncpCmd 0 0 opLaneService = some l ∧
      u.ncpRefusal 0 opLaneService l
        { safety := firstDetail [(l.p 0 1 == 1 && (u.dev == devBoot || u.dev == devUnconfigured), ndState)] } = some (0x201, ndState) := by
  decide +kernel

theorem test_meets_NcpRefusals_order :
    let h := (mk (ncp {})).hw
    let c := cmd 0x0102 0 0 []
    let s := mk fun h => (ncp {} h).updQueue 0 fun x => { x with stamps := [0] }
    opStateRead.op ≠ 0 ∧ opStateRead.op ≠ 1 ∧ ({} : Checks).version = false ∧ State.reset.hw.sessionOf c.session = none ∧
      h.sessionOf c.session = some { id := 1, ver := 0x201, feats := 0xFF } ∧ (15 : Nat) ≠ 0 ∧ nbit 0 15 = false ∧
      s.Awake ∧ s.hw.qGrant = some (0 : Fin 16).val ∧ (s.hw.queue 0).stamps ≠ [] ∧ s.hw.boot.svcUp = true ∧
      ncpOpcodes.all (·.op != leAt (packet 0x0A05 0 0 []) 0 2) = true := by decide +kernel

theorem test_meets_NcpChanges :
    let h := State.reset.hw
    let dev := h.set F.GLB_LIFE_LC 0 1
    let led := (ncp {} h).set64 F.LDG_CLSEQ_LO_VALUE F.LDG_CLSEQ_HI_VALUE 1
    let n := ncp {} h
    takes h (cmd 0x0201 64 0x07000000 (bytesLE 8 (2 ^ 28 - 64))) { data := List.replicate 64 1 } opStageWrite (fun p =>
        { data := .some 0, param := firstDetail [(badOffset p p.dlen, ndRange)] }) = true ∧
      (let c := cmd 0x0206 0 0x07000000 []
       let x := (ncp c dev).set F.GLB_STATE_STATE 0 devUnconfigured
       x.ncpAccepts 0 0 {} opTrialRun x.trialChecks = some c) ∧
      (let c := cmd 0x0703 0 0x05000000 [0, 0, 0, 0, 0, 0, 0, 0, 1]
       let x := { led with queues := [(0, { cmds := [c] })] }
       x.ncpAccepts 0 0 {} opLedgerAck (fun p =>
         { param := firstDetail [(x.badCount p || p.p 0 8 != x.rdSeq || decide (x.clSeq < p.p 0 8 + p.p 8 4), ndRange)] }) = some c) ∧
      takes h (cmd 0x0A03 0 0x0600007F [15]) {} opEvtRoute (fun p =>
        { param := firstDetail [(decide (15 < p.p 0 1 ∧ p.p 0 1 ≠ 0xFF), ndRange)]
          safety := firstDetail [(n.on F.EVT_ROUTE_LOCK p.index || n.get F.EVT_ROUTE_KIND p.index == 1 ||
            n.get F.EVT_ROUTE_KIND p.index == 2, ndLocked)] }) = true ∧
      takes h (cmd 0x0301 0 0x0300000F [1]) {} opLaneService (fun p =>
        { param := firstDetail [(decide (1 < p.p 0 1), ndRange)]
          safety := firstDetail [(p.p 0 1 == 1 && (n.dev == devBoot || n.dev == devUnconfigured), ndState)]
          busy := firstDetail [(p.p 0 1 == 1 && (n.laneState p.index .ingress == laneFault || n.laneState p.index .egress == laneFault),
            ndLaneFault)] }) = true ∧
      takes h (cmd 0x0501 0 0x0100000F [1, 1]) {} opDqSet (fun p =>
        { param := firstDetail [(decide (1 < p.p 0 1 ∨ 1 < p.p 1 1) || n.dqInput p.index, ndRange)]
          safety := firstDetail [(p.p 0 1 == 1 && !n.outputsLive, ndState)] }) = true ∧
      takes h (cmd 0x0502 0 0x02000003 (bytesLE 4 24000 ++ [1, 1])) {} opCloSet (fun p =>
        { param := firstDetail [(decide (24000 < p.p 0 4 ∨ 1 < p.p 4 1 ∨ 1 < p.p 5 1), ndRange)]
          safety := firstDetail [(p.p 4 1 == 1 && !n.outputsLive, ndState)] }) = true := by decide +kernel

theorem test_meets_NcpChanges_packages :
    (let h := stagedPkg cfgPkg 0x0203 0x07000000 0
     h.ncpAccepts 0 0 {} opCfgInstall (h.cfgInstallChecks {}) =
       some (cmd 0x0203 0 0x07000000 (bytesLE 8 0 ++ bytesLE 4 cfgPkg.length)) ∧ h.on F.XLK_STAT_XLKC_UP 0 = true ∧
       { h.b with selftestOk := true }.selftestOk = true) ∧
    (let h := stagedPkg fwPkg 0x0802 0x09000000 0
     h.ncpAccepts 0 0 {} opFwInstall (h.pkgChecks {} .none h.fwKind) =
       some (cmd 0x0802 0 0x09000000 (bytesLE 8 0 ++ bytesLE 4 fwPkg.length))) :=
  ⟨⟨accepts_of (pkgChecks_clean (by decide +kernel) (by decide +kernel) (staged_cfg _ _ (.inr ⟨rfl, rfl⟩))) (by decide +kernel) (by decide +kernel)
      (by decide +kernel), by decide +kernel, rfl⟩,
    accepts_of (pkgChecks_clean (by decide +kernel) (by decide +kernel) (staged_fw _ _ (.inr ⟨rfl, rfl⟩))) (by decide +kernel) (by decide +kernel) (by decide +kernel)⟩

theorem test_meets_NcpSessions :
    let h := State.reset.hw
    let end_ (c : NcpCmd) (op : OpSpec) (chk : NcpCmd → Checks) (h : Hw) : Bool := (ncp c h).ncpAccepts 0 0 {} op chk == some c
    (let c := cmd 0x0001 0 0 [0, 2, 1, 2, 0, 0, 0, 0, 2, 0]
     let x := { ncp c h with ncp := { h.ncp with sessions := [{ id := 1, ver := 0x201, feats := 0xFF }] } }
     x.ncpAccepts 0 0 {} opOpen (x.openChecks 0) = some c) ∧
      end_ (cmd 0x0002 0 0 []) opClose (fun c =>
        let x := ncp (cmd 0x0002 0 0 []) h
        let mask := ((x.sessionOf c.session).map (·.qmask)).getD 0
        { param := firstDetail [((0 : Nat) != 0, 0)]
          busy := firstDetail [((List.range 16).any fun j => nbit mask j && !(x.queue j).cmds.isEmpty, 0)] }) h = true ∧
      end_ (cmd 0x0003 0 0 [0x21, 0x54, 0x53, 0x52]) opDeviceReset (resetChecks 0) h = true ∧
      end_ (cmd 0x0003 0 0 [0x21, 0x54, 0x53, 0x52]) opDeviceReset (resetChecks 0) { h with otpOp := some { op := 1 } } = true ∧
      h.otpOp = none ∧ ({ h with otpOp := some { op := 1 } } : Hw).otpOp ≠ none := by decide +kernel

theorem test_meets_NcpSessions_log :
    let e : LogItem := { cls := 1, code := 127 }
    let w := mk fun h => { (up h).setB F.DDR_STAT_TRAINED 0 true with logQ := [e] }
    let h := State.reset.hw
    let l : Hw := { h with logNext := 8388609 }
    w.Awake ∧ w.hw.boot.svcUp = true ∧ w.hw.logQ = e :: [] ∧ w.hw.on F.DDR_STAT_TRAINED 0 = true ∧
      takes l (cmd 0x0A01 0 0 []) {} opLogStatus (fun _ => {}) = true ∧ 0 < l.logNext ∧
      takes h (cmd 0x0A01 0 0 []) {} opLogStatus (fun _ => {}) = true ∧ h.logNext = 0 ∧
      takes l (cmd 0x0A02 64 0 (bytesLE 4 1 ++ bytesLE 4 1)) {} opLogRead (fun c =>
        { data := .some (64 * c.p 4 4)
          param := firstDetail [(decide (c.p 4 4 = 0 ∨ 4096 < c.p 4 4 ∨ l.logNext = 0 ∨ l.logHeld ≤ l.logBack (c.p 0 4)), ndRange)] }) = true ∧
      takes h (cmd 0x0304 0 0x0400000F []) {} opEnvStatus (fun _ => {}) = true := by decide +kernel

/-- The USR region with one word written, and its digest. -/
def usrBurnt : NonVol := { fuses := [(0x100, 1), (1024 + 0x100, 1), (2048 + 0x100, 1)] }

def usrDig : List Byte := bytesLE 32 46371795533383572521247102133917160488593855662700773544223788315727485732555

theorem test_digest_usr : usrRegion.digest usrBurnt.now = usrDig := by decide +kernel

theorem test_meets_NcpWaits_otp :
    let h := State.reset.hw
    let dev := h.set F.GLB_LIFE_LC 0 1
    let w := cmd 0x0208 0 0x0A000007 (bytesLE 4 127 ++ bytesLE 4 1)
    let done (c : NcpCmd) : NcpCmd := { c with started := true }
    let f := done (cmd 0x0209 0 0x0A000007 [])
    let g := done (cmd 0x0204 114 0x0800001F [])
    (ncp w dev).ncpAccepts 0 0 {} opOtpWrite (fun c =>
      { param := firstDetail [(decide (127 < c.p 0 4), ndRange)]
        life := firstDetail [(((ncp w dev).planProgram State.reset.nv (0x100 + c.p 0 4) (c.p 4 4)).refused, ndNone)]
        busy := firstDetail [((ncp w dev).on F.OTP_STAT_BUSY 0, ndNone)] }) = some w ∧ w.started = false ∧
      (ncp (done w) dev).ncpCmd 0 0 opOtpWrite = some (done w) ∧ (done w).started = true ∧ dev.on F.OTP_STAT_BUSY 0 = false ∧
      (ncp f dev).ncpCmd 0 0 opOtpFinalise = some f ∧ (ncp g dev).ncpCmd 0 0 opCfgCommission = some g := by decide +kernel

theorem test_meets_NcpWaits_finalise :
    let h := State.reset.hw.set F.GLB_LIFE_LC 0 1
    let c := cmd 0x0209 0 0x0A000007 usrDig
    (ncp c h).ncpAccepts 0 0 {} opOtpFinalise (fun c =>
      { param := firstDetail [(bytesAt c.packet 32 32 != usrRegion.digest usrBurnt.now, ndReadback),
          (((ncp c h).planFinalise usrBurnt rgUsr).code == orZero, ndNone)]
        life := firstDetail [(((ncp c h).planFinalise usrBurnt rgUsr).refused, ndNone)]
        busy := firstDetail [((ncp c h).on F.OTP_STAT_BUSY 0, ndNone)] }) = some c := by
  intro h c
  refine accepts_of (k := {}) ?_ (by decide +kernel) (by decide +kernel) (by decide +kernel)
  rw [test_digest_usr]
  decide +kernel

/-- A module to be commissioned: the package in flash, the keys latched, its digest received by the B-die, COMM_N low. -/
def commHw (c : NcpCmd) : Hw :=
  let h := (keyed (ncp c (State.reset.hw.set F.GLB_LIFE_LC 0 1))).set F.GLB_STATE_STATE 0 devUnconfigured
  { h with boot := { h.boot with commLow := true }, b := { h.b with digValid := true, digest := cfgDig } }

def commNv : NonVol := { flash := { cfg := cfgPkg } }

theorem comm_signed {h : Hw} (n : Nat) (d : List Byte) (hs : h.rotSlot 4 = keyDig) : h.commissionSigned commNv n d nSig = true := by
  have h1 : pkgSlotOk .config commNv.flash.cfg = true := by decide +kernel
  have h2 : pkgKeySlot commNv.flash.cfg = 4 := by decide +kernel
  have h3 : pkgSigner commNv.flash.cfg = nKey := by decide +kernel
  simp only [Hw.commissionSigned, h1, h2, h3, nSig_verifies, Hw.keyInSlot, hs, test_digest_key]
  decide +kernel

theorem test_meets_NcpWaits_commission :
    let c := cmd 0x0204 114 0x08000000 cfgDig
    let io : NcpIo := { data := nSig }
    let h := (commHw c).updBoot fun b => { b with commLow := true }
    h.ncpAccepts 0 0 io opCfgCommission (h.commissionChecks commNv io) = some c ∧ c.started = false ∧ c.packet.length = 64 := by
  intro c io h
  refine ⟨accepts_of (k := { data := .some 114 }) ?_ (by decide +kernel) (by decide +kernel) (by decide +kernel), by decide +kernel,
    by decide +kernel⟩
  have hd : io.data.take 114 = nSig := by decide +kernel
  have hs (n : Nat) (d : List Byte) : h.commissionSigned commNv n d nSig = true := comm_signed n d (by decide +kernel)
  simp only [Hw.commissionChecks, hd, hs]
  decide +kernel

/-- Group 15 has an ENVELOPE_SELECT function with MODE REQUEST and its IN0 on, and channels 30 and 31 are bound. -/
def envReady (h : Hw) : Hw :=
  let f : FnCfg := { type := ftEnvSelect, fgrp := 15, group := 15, modeRequest := true, setMask := 0x8000, ins := [0x1000] }
  let h := (((h.setB F.MBX_BIND_EN 30 true).set F.MBX_BIND_SEND 30 9).setB F.MBX_BIND_EN 31 true).set F.MBX_BIND_RECV 31 9
  { h with cfg := { fns := [(255, f)] }, evA := { h.evA with img := { h.evA.img with di := 1 } } }

theorem test_meets_NcpWaits_select :
    let h := envReady State.reset.hw
    let c := cmd 0x0303 0 0x0400000F [15]
    let d : NcpCmd := { c with started := true, seq := 7 }
    let chk (h : Hw) (c : NcpCmd) : Checks :=
      { param := firstDetail [(!h.requestOk c.index (c.p 0 1), ndRange)], safety := firstDetail [(!h.requestEnabled c.index, ndEnableOff)] }
    let r := ((ncp d h).setB F.MBX_STAT_FULL 31 true).putWord .MBX_MSG 249 7
    let got (x : Hw) : Option Nat := ((x.keepEnvReply.queue 0).cmds.head?).bind (·.reply)
    takes h c {} opEnvSelect (chk (ncp c h)) = true ∧ c.started = false ∧ (ncp c h).mbxFull 30 = false ∧
      (ncp c h).maySend 30 (svcOf ((ncp c h).get F.MBX_BIND_SEND 30)) = true ∧
      takes (h.setB F.MBX_STAT_FULL 30 true) c {} opEnvSelect (chk (ncp c (h.setB F.MBX_STAT_FULL 30 true))) = true ∧
      (ncp c (h.setB F.MBX_STAT_FULL 30 true)).mbxFull 30 = true ∧ (ncp d h).keepEnvReply.ncpCmd 0 0 opEnvSelect = some d ∧ d.started = true ∧
      got r = some 0 ∧ (r.latchRequest .a d.index (d.p 0 1)).isSome = true ∧ r.keepEnvReply.mbxFull 31 = false ∧
      r.mayTake 31 (svcOf (r.get F.MBX_BIND_RECV 31)) = true ∧ r.on F.MBX_BIND_RPAIR 31 = false ∧
      got (r.putWord .MBX_MSG 250 1) = some 1 ∧ got (r.putWord .MBX_MSG 249 8) = none ∧ (r.ncpCmd 0 0 opEnvSelect).isSome ∧
      r.mbxFull 31 = true ∧ got (ncp d h) = none ∧ (ncp d h).mbxFull 31 = false ∧ (mk (ncp d)).Awake := by decide +kernel

theorem test_meets_NcpWaits_selftest :
    let h := State.reset.hw
    let c := cmd 0x0306 0 0x0B00000F []
    let d : NcpCmd := { c with started := true }
    let x (st : CeState) : Hw := (ncp d h).updCe 15 fun c => { c with state := st }
    takes h c {} opChkSelftest (fun c => { busy := firstDetail [((ncp c h).ceLimit c.index, ndLimit)] }) = true ∧ c.started = false ∧
      (x .online).ncpCmd 0 0 opChkSelftest = some d ∧ d.started = true ∧ ((x .online).ce d.index).state = .online ∧
      ((x .failed).ce d.index).state = .failed ∧ (x .failed).ncpCmd 0 0 opChkSelftest = some d ∧
      (((x .offline).writeFields .CHK_CEOFF 0 false 0x8000).ce d.index).state = .offline ∧
      ((x .offline).writeFields .CHK_CEOFF 0 false 0x8000).bitOf F.CHK_CEOFF_OFF 0 d.index = true := by decide +kernel

/-! ### Peer link, fuses, security, resets, start, clocks -/

/-- An Ethernet frame to peer `p` as its configuration in channel A wants it, of a kind, version and SEQ. -/
def npsFrame (kind ver seq echo : Nat) : List Byte :=
  let pay := [BitVec.ofNat 8 kind, BitVec.ofNat 8 ver, 0, 0, 0, 0, 10, 0, 30, 0, 0, 0] ++ bytesLE 4 seq ++ bytesLE 4 echo ++
    List.replicate 16 0
  List.replicate 12 0 ++ [0x88, 0xB5] ++ pay ++ bytesLE 4 (npsChkA 0 pay) ++ bytesLE 4 (npsChkB 0 pay) ++ [0, 0]

/-- Peer 15 with the connection `x` in both channels. -/
def peered (x : NpsConn) (h : Hw) : Hw :=
  let h := ((up h).set F.NPS_CFG_CYCLE 15 10).set F.NPS_CFG_WD 15 30
  { h with nps := [(15, x), (31, x)] }

theorem test_meets_PeerLink_send :
    let x : NpsConn := { state := nsUp, agreed := 0x11, seq := 0xFFFFFFFF }
    let s := mk (peered x)
    let f : NpsFields := { peer := 15, kind := 3, ver := 0x11, seq := 0xFFFFFFFF }
    s.Awake ∧ (s.hw.conn .b 0).kindDue = none ∧ (s.hw.conn .b 15).kindDue = some 3 ∧ s.hw.b.runs = true ∧
      s.hw.on F.XLK_STAT_XLKC_UP 0 = true ∧ takeNpsFields 15 s.hw.toA = none ∧ takeNpsFields 15 [.npsFields f] = some (f, []) ∧
      npsPayloadOf [] = none ∧ npsPayloadOf (npsFrame 3 0x11 5 0) = some ((npsFrame 3 0x11 5 0).drop 14) := by decide +kernel

theorem test_meets_PeerLink_receive :
    let x : NpsConn := { state := nsConnecting, agreed := 0x11 }
    let y : NpsConn := { state := nsUp, agreed := 0x11, fresh := false, last := 5, sent := [(7, 0)] }
    let cfg (h : Hw) (c : Chan) : Hw := match c with
      | .a => h
      | .b => { h with b := { h.b with cfg := { peers := [(15, { en := true, v11 := false })] } },
                       toB := [.npsFrame ((npsFrame 1 0x10 0 0).drop 14)] }
    let sound (x : NpsConn) (c : Chan) (kind ver seq echo : Nat) : Bool :=
      let h := cfg (peered x State.reset.hw) c
      match h.npsNext c kind (npsFrame kind ver seq echo) with
      | none => false
      | some r =>
        let j := h.npsJudge c 15 r.1
        j.chkA && j.chkB && j.addr && j.param && ((h.conn c 15).fresh || decide (1 ≤ j.gap ∧ j.gap ≤ 1000))
    (mk (peered x)).Awake ∧ (mk (peered x)).hw.npsNext .a 1 [] = none ∧ ((mk (peered {})).hw.conn .a 15).state = nsClosed ∧
      sound {} .a 1 0x10 0 0 = true ∧ sound x .a 1 0x0F 0 0 = true ∧ sound x .a 1 0x10 0 0 = true ∧ sound x .b 1 0x10 0 0 = true ∧
      sound x .a 2 0x11 0 0 = true ∧ sound y .a 3 0x11 1005 7 = true ∧ sound y .a 4 0x11 6 0 = true ∧
      sound y .a 3 0x11 5 0 = false ∧ sound y .a 3 0x11 1006 0 = false ∧
      (mk (peered y)).hw.echoAge .a 15 7 = some 0 ∧ (mk (peered y)).hw.echoAge .a 15 8 = none ∧ x.agreed = 0x11 ∧ x.state ≠ nsUp ∧
      y.state = nsUp ∧ ({ agreed := 0x10 } : NpsConn).agreed ≠ 0x11 := by decide +kernel

/-- A frame of a KIND that names nothing is taken by a receive row of channel A, and one with a wrong address by a closed connection
of a configured peer. -/
theorem test_meets_PeerLink_unknown :
    let y : NpsConn := { state := nsUp, agreed := 0x11, fresh := false, last := 5 }
    let s := mk (peered y)
    let cl := mk fun h => (peered {} h).setB F.NPS_CFG_EN 15 true
    let j (h : Hw) (kind : Nat) : Option (Nat × NpsJudged) :=
      (h.npsNext .a 3 (npsFrame kind 0x11 6 0)).map fun r => (frameNum r.1 0 1, h.npsJudge .a 15 r.1)
    (j s.hw 200).map (·.1) = some 200 ∧ (j s.hw 3).map (·.1) = some 3 ∧ (cl.hw.peer .a 15).en = true ∧ (s.hw.peer .a 15).en = false ∧
      (cl.hw.conn .a 15).state = nsClosed ∧ (j cl.hw 200).isSome = true ∧ s.hw.wdPassed .a 15 = false ∧
      ({ s.hw with time := 3000000 } : Hw).wdPassed .a 15 = true := by decide +kernel

/-- The watchdog of 30 ms has run out in channel A, and in channel B already 2 % earlier. -/
theorem test_meets_PeerLink_watchdog :
    let y : NpsConn := { state := nsUp }
    let h (t : Ticks) := { (mk (peered y)).hw with time := t }
    let wd (c : Chan) (t : Ticks) := ((h t).peer c 15).wd * 100000
    (y.state = nsUp ∧ wd .a 3000000 ≤ (h 3000000).time - y.wdAt ∧ ¬ wd .a 2999999 ≤ (h 2999999).time - y.wdAt) ∧
      98 * wd .b 2940000 ≤ 100 * ((h 2940000).time - y.wdAt) ∧ ¬ 98 * wd .b 2939999 ≤ 100 * ((h 2939999).time - y.wdAt) := by decide +kernel

/-- The module in development with a fuse operation. -/
def burning (o : OtpOp) (h : Hw) : Hw := { (up h).setB F.OTP_STAT_BUSY 0 true with otpOp := some o }

theorem test_meets_FuseCommands :
    let s := mk up
    let d (lc : Nat) : Hw := (up State.reset.hw).set F.GLB_LIFE_LC 0 lc
    let c := commHw (cmd 0 0 0 [])
    let o : OtpOp := { op := 1, target := 7, plan := [(0x17F, 0x80000001)], code := orOk }
    s.Awake ∧ s.hw.present 0 = true ∧ s.hw.tmrSettle.granted 0 .OTP_CMD 0 = true ∧ s.hw.tmrSettle.on F.OTP_STAT_BUSY 0 = false ∧
      (mk (burning o)).hw.tmrSettle.on F.OTP_STAT_BUSY 0 = true ∧ (mk (burning o)).hw.otpOp = some o ∧ o.op ≠ opRescan ∧
      (mk (burning o)).hw.boot.rstWaits = false ∧ s.hw.otpOp = none ∧ s.hw.boot.rstWaits = false ∧
      ((d 1).planProgram {} 0x17F 1).code = orOk ∧ ((d 3).planProgram {} 0x17F 1).code = orDenied ∧ ((d 0).planProgram {} 0x000 1).code = orOk ∧
      ((d 0).planFinalise usrBurnt rgUsr).refused = false ∧ ((d 0).planKeygen {}).code = orOk ∧ ((d 1).planLcAdvance 2).code = orOk ∧
      ((d 0).planRbkAdvance 128).code = orOk ∧ ((d 0).planRbkAdvance 129).code = orDenied ∧
      ({ (mk up).hw with boot := { (mk up).hw.boot with rstWaits := true } } : Hw).boot.rstWaits = true ∧
      ({ op := opRescan } : OtpOp).plan = [] ∧ s.hw.tmrSettle.granted 0 .OTP_CTL 0 = true ∧
      (o.plan.map (·.1)).Nodup ∧ (∀ w ∈ o.plan.map (·.1), w < 1024 ∧ ∀ c < 3, s.nv.copy c w = (s.nv.now w).value) ∧
      (s.nv.program (fun w => (s.nv.now w).value) [] o.plan).2 = true ∧ o.plan = (0x17F, 0x80000001) :: [] ∧
      (s.nv.program (fun w => (s.nv.now w).value) [{ copy := 2, word := 0x17F, tight := 1 }] o.plan).2 = false ∧
      ({ keyFailed := true } : Latches).keyFailed = true ∧ s.hw.otp.rotFailed = false ∧ c.life = lcDevelopment := by decide +kernel

theorem test_meets_FuseCommands_commission :
    let h := (commHw (cmd 0 0 0 [])).forUpTo 8 fun k h => h.putWord .OTP_CDIG k (BitVec.ofNat 32 (ofBytesLE ((cfgDig.drop (4 * k)).take 4)))
    h.cdig = cfgDig ∧ lowestBlank State.reset.nv.now h.life = some 0 ∧ h.boot.commLow = true ∧ h.b.digValid = true ∧
      h.b.digest = h.cdig := by decide +kernel

/-- The start at a time point. -/
def at_ (p : Phase) (h : Hw) : Hw := { h with boot := { h.boot with phase := p } }

theorem test_meets_FuseSensing :
    let s := mk (at_ .locked)
    let devs : List Deviation := [{ copy := 0, word := 0x100, normal := 1, tight := 1 }, { copy := 1, word := 0x100, normal := 2, tight := 2 }]
    let one : List Deviation := [{ copy := 0, word := 0x100, normal := 1, tight := 1 }]
    let v (ds : List Deviation) (k : Nat) : Nat × Nat := s.nv.reading ds k 0x100
    s.Awake ∧ (mk up).Awake ∧ (mk up).hw.boot.phase ≠ .locked ∧ s.hw.boot.phase = .locked ∧ s.hw.dev = devBoot ∧
      s.hw.on F.SEC_STAT_BREACH 0 = false ∧ (255 : Fin 256) ≠ 0 ∧ listedWord 0x100 = true ∧ (List.range 3).all (fun k => (v [] k).1 == (v [] k).2) = true ∧
      (v [] 0).1 = (v [] 1).1 ∧ (List.range 3).all (fun k => (v one k).1 == (v one k).2) = true ∧ (v one 0).1 ≠ (v one 1).1 ∧
      (v one 1).1 = (v one 2).1 ∧ (v devs 0).1 ≠ (v devs 1).1 ∧ (v devs 0).1 ≠ (v devs 2).1 ∧ (v devs 1).1 ≠ (v devs 2).1 := by decide +kernel

/-- A running SEC command, whose message is empty. -/
def securing (o : SecOp) (h : Hw) : Hw := { (up h).setB F.SEC_STAT_BUSY 0 true with secOp := some o }

theorem test_meets_Security :
    let s := mk up
    let h := s.hw.tmrSettle
    s.Awake ∧ s.hw.present 0 = true ∧ h.granted 0 .SEC_CMD 0 = true ∧ h.secOp = none ∧ s.hw.secOp = none ∧
      (securing { op := 1 } s.hw).tmrSettle.secOp = some { op := 1 } ∧
      (∀ k ∈ [1, 2, 3, 4, 5, 6], ((mk (securing { op := k })).hw.secOp = some { op := k } ∧ (mk (securing { op := k })).Awake)) ∧
      (({ waits := true } : SecOp).waits = true ∧ ({ signing := some {} } : Ledger).signing.isSome = true ∧ ({} : Ledger).signing = none) ∧
      (h.setB F.SEC_STAT_IDKEY 0 true).on F.SEC_STAT_IDKEY 0 = true ∧ h.on F.SEC_STAT_IDKEY 0 = false ∧ h.boot.heldPor = false ∧
      ({ h.boot with heldPin := true } : Boot).held = true ∧ ({ h.boot with heldPin := true } : Boot).heldPor = false ∧
      ({ h.boot with heldPor := true } : Boot).heldPor = true ∧ ({ ue := some 7516192767, ce := 1 } : DramMet).ue = some 7516192767 ∧
      s.hw.rotSlot 0 ≠ nKey ∧ (255 : Fin 256) ≠ 0 ∧ s.hw.unlockOk nKey 0 nSig = false ∧ s.hw.dev ≠ devSafeHold := by decide +kernel

theorem test_meets_Security_unlock : (keyed State.reset.hw).unlockOk nKey 0 nSig = true := by
  have h1 : (keyed State.reset.hw).rotSlot 0 = keyDig := by decide +kernel
  have h2 : (keyed State.reset.hw).life = 0 := by decide +kernel
  simp only [Hw.unlockOk, Hw.keyInSlot, h1, h2, test_digest_key, nSig_verifies]
  decide +kernel

theorem test_meets_Security_verify :
    let h := (keyed State.reset.hw).setBytes .SEC_BUF 0 (nKey ++ List.replicate 7 0 ++ nSig ++ [0, 0])
    (h.getBytes .SEC_BUF 128).take 57 = nKey ∧ bytesAt (h.getBytes .SEC_BUF 128) 64 114 = nSig ∧ h.rotSlot 0 = keyDig := by decide +kernel

theorem test_meets_Resets :
    let s := mk up
    let held (f : Boot → Boot) : Hw := { s.hw with boot := f s.hw.boot }
    Supply.under ≠ .within ∧ s.hw.otpOp = none ∧ (held fun b => { b with heldPor := true }).boot.heldPor = true ∧
      s.hw.boot.heldPor = false ∧ s.hw.boot.heldPin = false ∧ s.hw.boot.heldHot = false ∧ s.Awake ∧ s.hw.present 6 = true ∧
      s.hw.tmrSettle.granted 6 .CLK_RSTREQ 0 = true ∧ (burning { op := 1 } s.hw).otpOp.isSome = true ∧
      ({ s.hw.b with vsysOk := false } : BDie).vsysOk = false ∧ s.hw.b.vsysOk = true ∧
      (held fun b => { b with heldPin := true }).boot.heldPin = true ∧ (held fun b => { b with heldHot := true }).boot.heldHot = true ∧
      (held fun b => { b with rstWaits := true }).boot.rstWaits = true ∧ (mk id).hw.dev = devBoot ∧
      nbit ({ State.reset.hw.boot with causes := 2 ^ 31 } : Boot).causes 31 = true ∧
      (held fun b => { b with heldPor := true }).otpOp = none := by decide +kernel

/-- The B-die's evaluation core runs. -/
def bRun (h : Hw) : Hw := { h with b := { h.b with xbOk := true, pllLock := true, vsysOk := true } }

theorem test_meets_StartUp :
    let p (x : Phase) : State := mk fun h => (bRun (at_ x h)).setB F.XLK_STAT_XLKC_UP 0 true
    let rom := p .sensed
    let two := mk fun h => ((at_ .sensed h).set F.POD_STAT_STATE 0 podRetired).set F.POD_STAT_STATE 1 podRetired
    let cfg := p .config
    let tst := p .tested
    let slf : Hw := { tst.hw with b := { tst.hw.b with state := bsSelftest } }
    (p .por).Awake ∧ (p .por).hw.boot.phase = .por ∧ (p .locked).hw.boot.phase ≠ .por ∧ (p .por).hw.boot.phase ≠ .sensed ∧
      rom.Awake ∧ rom.hw.boot.phase = .sensed ∧ rom.hw.dev = devBoot ∧ rom.hw.podState 0 ≠ podRetired ∧ rom.hw.b.runs = true ∧
      rom.hw.otp.keyFailed = false ∧ rom.hw.otp.rotFailed = false ∧ rom.hw.openEnded = [] ∧ rom.nv.flash.life = [] ∧
      rom.hw.life ≠ lcRetired ∧ two.hw.podState 0 = podRetired ∧ two.hw.podState 1 = podRetired ∧ two.hw.dev ≠ devSafeHold ∧
      tst.hw.b.therm = false ∧ ({ tst.hw.b with therm := true } : BDie).therm = true ∧
      ({ seq := 1, bytes := [] } : BootRecord).seq > (p .rom).nv.flash.copied ∧
      two.hw.boot.phase = .sensed ∧ (p .rom).Awake ∧ (p .rom).hw.boot.phase = .rom ∧ (p .rom).hw.dev = devBoot ∧
      ((p .rom).hw.verifyPkg .firmware (p .rom).nv.flash.fw0).isNone = false ∧
      ((p .rom).hw.verifyPkg .firmware (p .rom).nv.flash.fw1).isNone = false ∧
      (p .dram).hw.boot.phase = .dram ∧ (p .dram).hw.dev = devBoot ∧
      (p .dram).hw.chosenState (p .dram).nv.flash { peakEp := 26667 } = devUnconfigured ∧ (p .firmware).hw.boot.phase = .firmware ∧
      (p .dram).hw.boot.phase ≠ .firmware ∧ cfg.hw.boot.phase = .config ∧ cfg.hw.dev = devBoot ∧ (p .setup).hw.boot.phase = .setup ∧
      (p .setup).hw.dev = devBoot ∧ tst.hw.boot.phase = .tested ∧ tst.hw.b.selftestOk = false ∧ slf.b.state = bsSelftest ∧
      slf.dev = devBoot ∧ (p .por).hw.bLate = false ∧ tst.hw.bLate = true ∧
      rom.hw.b.verC = none ∧ slf.b.verD = none ∧ ({ slf.b with verD := some 1 } : BDie).verD ≠ none ∧
      slf.get F.GLB_IFVER_XLK 0 % 16 = slf.get F.GLB_IFVER_XLK 0 := by decide +kernel

theorem test_meets_StartUp_holds :
    let h := (mk (at_ .sensed)).hw
    let k : Hw := { h with otp := { h.otp with keyFailed := true } }
    let r := (mk (at_ .rom)).hw
    let c := (r.set F.GLB_STATE_STATE 0 devSafeHold).set F.GLB_STATE_HOLD_CAUSE 0 hcClock
    let t := (mk (at_ .tested)).hw
    let v (b : BDie) : Hw := { t with b := b }
    let d := (t.set F.GLB_LIFE_LC 0 lcDevelopment).set F.OTP_CRIT_VALUE 0 32
    (h.boot.phase = .sensed ∧ h.noBootPod = false ∧ h.dev = devBoot ∧ h.openEnded = [] ∧ h.b.runs = false ∧ k.otp.keyFailed = true ∧
      k.openEnded = []) ∧
    (r.firmwareMayRun = true ∧ r.boot.phase = .rom ∧ c.firmwareMayRun = true ∧ c.dev ≠ devBoot ∧
      (c.set F.GLB_STATE_HOLD_CAUSE 0 hcBdieStart).firmwareMayRun = true ∧ (c.set F.GLB_STATE_HOLD_CAUSE 0 8).firmwareMayRun = false) ∧
    (t.boot.phase = .tested ∧ t.dev = devBoot ∧ (v { t.b with selftestOk := true, digValid := true, cfgOk := true }).b.cfgOk = true ∧
      d.life = lcDevelopment ∧ d.crit 5 = true ∧ t.b.digValid = false) ∧
    (((mk (at_ .firmware)).hw.set F.GLB_STATE_STATE 0 devSafeHold).dev = devSafeHold) := by decide +kernel

/-- USR with a word and its digest, as latched. -/
def usrOpen (h : Hw) : Hw := { h with otp := { h.otp with words :=
  (0x100, 1) :: ((List.range 8).map fun k => (0x180 + k, ofBytesLE ((usrDig.drop (4 * k)).take 4))) } }

theorem test_meets_StartUp_regions :
    let h := usrOpen (mk (at_ .sensed)).hw
    (usrRegion, true) ∈ h.openEnded ∧ h.boot.phase = .sensed ∧ h.noBootPod = false := by decide +kernel

theorem test_meets_StartUp_firmware :
    let h := keyed (at_ .rom State.reset.hw)
    (h.verifyPkg .firmware fwPkg).isNone = true ∧ h.boot.phase = .rom ∧ h.dev = devBoot ∧ 0 ≤ pkgRbk fwPkg ∧
      h.get F.OTP_REGION_STATE 5 ≠ rsFailed := by
  refine ⟨?_, by decide +kernel, by decide +kernel, by decide +kernel, by decide +kernel⟩
  rw [fwPkg_verifies (by decide +kernel) (by decide +kernel)]; rfl

theorem test_meets_StartUp_config :
    let h := keyed (at_ .dram State.reset.hw)
    let h := { h with otp := { h.otp with newestOk := true, newestDigest := cfgDig } }
    h.chosenState { cfg := cfgPkg } { peakEp := 26668, lanes := (List.range 16).map fun n => (n, { crc := crc32Params, egCrc := crc32Params }) } = devStartup := by
  intro h' h
  have hv : h.verifyPkg .config cfgPkg = none := cfgPkg_verifies (by decide +kernel) (by decide +kernel)
  simp only [Hw.chosenState, hv]
  decide +kernel

/-- A package that the loaders take is refused with a cycle code, a check width or a source outside its range, and with two OUTPUT
functions on one target (R175, R506, R235, R214). -/
theorem test_package_ranges :
    let lane : LaneCfg := { crc := crc32Params, egCrc := crc32Params }
    let base : PkgConfig := { peakEp := 26668, lanes := (List.range 16).map fun n => (n, lane) }
    let out : FnCfg := { type := ftOutput, ridx := some 0, target := .so 15 }
    base.refused false = false ∧ { base with tc := 0 }.refused false = false ∧ { base with tc := 4 }.refused false = true ∧
      { base with lanes := (15, { lane with egCrc := { crc32Params with width := 33 } }) :: base.lanes }.refused false = true ∧
      { base with di := [(47, { src := some 16 })] }.refused false = true ∧ { base with fns := [(0, out)] }.refused false = false ∧
      { base with fns := [(0, out), (255, out)] }.refused false = true := by decide +kernel

theorem test_meets_ClocksAndMonitors :
    let s := mk up
    let t := mk fun h => (up h).set F.CLK_XMON_AFAIL 0 1
    let okA (a : Nat) : Bool := decide (98000 ≤ a ∧ a ≤ 102000)
    s.Awake ∧ (mk (at_ .sensed)).hw.dev = devBoot ∧ s.hw.dev ≠ devBoot ∧ s.hw.boot.svcUp = true ∧ (mk id).hw.boot.svcUp = false ∧
      s.hw.dev ≠ devSafeHold ∧ s.hw.on F.XLK_STAT_XLKC_UP 0 = true ∧ s.hw.b.runs = true ∧
      (!okA 97999 && decide (s.hw.get F.CLK_XMON_AFAIL 0 = 1)) = false ∧ (!okA 102001 && decide (t.hw.get F.CLK_XMON_AFAIL 0 = 1)) = true ∧
      s.hw.present 0 = true ∧ s.hw.tmrSettle.granted 0 .CLK_GATE 0 = true ∧
      (mk id).hw.on F.XLK_STAT_XLKC_UP 0 = false ∧ (mk bRun).hw.b.runs = true ∧
      (s.hw.set F.GLB_STATE_STATE 0 devSafeHold).dev = devSafeHold ∧ s.hw.boot.thermFired = false ∧
      (List.replicate 7 (-32768 : Int)).length = 7 ∧ (∀ t ∈ List.replicate 7 (32767 : Int), -32768 ≤ t ∧ t < 32768) := by decide +kernel

/-! ### WellFormed: a term that each check refuses -/

/-- A command is refused. -/
def bad (c : Instr) : Bool := !c.wellFormed

theorem test_ill_formed_bus :
    bad (.registerWrite 0 2 4 0) = true ∧ bad (.registerWrite 0 0 3 0) = true ∧ bad (.registerWrite 0 (2 ^ 40) 4 0) = true ∧
      bad (.registerWrite 0 0 1 256) = true ∧ bad (.unlistedAccess 0 2 true 0) = true ∧ bad (.bar0Access 0x2000000 true 0) = true ∧
      bad (.bar0Access 2 true 0) = true ∧ bad (.rcFieldRead 0 1 ⟨2, .clean⟩) = true ∧ bad (.lockBitSet 0 1 0) = true ∧
      Instr.wellFormed (.registerWrite 0 4 4 0xFFFFFFFF) = true ∧ Instr.wellFormed (.bar0Access 0x1FFFFFC true 0) = true := by decide +kernel

theorem test_ill_formed_links :
    bad (.fieldLinkFrame .a 0 { di := 2 ^ 24 }) = true ∧ bad (.fieldLinkFrame .a 0 { tpRb := 256 }) = true ∧
      bad (.fieldLinkFrame .a 0 { vIn := 65536 }) = true ∧ bad (.capReceived 0 .ingress { ver := 256 } 0) = true ∧
      bad (.capAckReceived 0 .ingress { crcId := 2 ^ 32 }) = true ∧ bad (.egressCredit 0 256) = true ∧
      bad (.xlkRetrainDone ⟨true, 65536⟩) = true ∧ Instr.wellFormed (.egressCredit 15 255) = true := by decide +kernel

theorem test_ill_formed_memory :
    bad (.patrolScrub 0 [0x1C0000000]) = true ∧ bad (.envImageChecked ⟨none, some 0x1C0000000, 0⟩) = true ∧
      bad (.segmentRelease 0 ⟨false, [32], 0⟩) = true ∧ bad (.envImageChecked ⟨some 0x1C0000000, none, 0⟩) = true ∧
      bad (.ledgerHeader ⟨some 131072, 0⟩) = true ∧ bad (.podReloadDone 5 ⟨some 0x1C0000000, 0⟩) = true ∧
      bad (.crcMemoryDone 0 ⟨some (0, 0x1C0000000), 0⟩) = true ∧ bad (.secDone false ⟨some 0x1C0000000, 0⟩) = true ∧
      bad (.checkComplete 0 { ceil := [2048] }) = true ∧ bad (.checkComplete 0 { intg := [2048] }) = true ∧
      Instr.wellFormed (.envImageChecked ⟨some 0x1BFFFFFFF, none, 0⟩) = true := by decide +kernel

theorem test_ill_formed_field :
    bad (.evalBoundary 65536) = true ∧ bad (.demagComplete (.soP 16)) = true ∧ bad (.outputOverload (.soM 16)) = true ∧
      bad (.outputOvertemp (.dq 16)) = true ∧ bad (.outputCooled (.dq 16)) = true ∧ bad (.cliValueForm .a 0 []) = true ∧
      bad (.cliValueForm .a 0 [2 ^ 24]) = true ∧ bad (.thermalRearm [0]) = true := by decide +kernel

theorem test_ill_formed_service :
    let io : NcpIo := { dramErr := some 0x1C0000000 }
    bad (.sqFetch []) = true ∧
      ([.deviceInfo 0 0 io, .stageWrite 0 0 io, .cfgVerify 0 0 io, .cfgInstall 0 0 io, .cfgCommission 0 0 io false, .cfgSlotsRead 0 0 io,
        .otpRead 0 0 io, .laneStatusRead 0 0 io, .zoneStatusRead 0 0 io, .safetyStatusRead 0 0 io, .safetyTimingRead 0 0 io,
        .exchangeStatusRead 0 0 io, .ioRead 0 0 io, .ledgerStatus 0 0 io, .ledgerRead 0 0 io, .fwVerify 0 0 io, .fwInstall 0 0 io,
        .attestIdentity 0 0 io, .attestReport 0 0 io, .logRead 0 0 io] : List Instr).all bad = true := by decide +kernel

theorem test_ill_formed_start :
    bad (.otpDone [{ copy := 3 }]) = true ∧ bad (.fuseSensing [{ word := 1024 }] false true 0) = true ∧
      bad (.fuseSensing [{ normal := 2 ^ 32 }] false true 0) = true ∧ bad (.debugUnlock [] 0 nSig {}) = true ∧
      bad (.debugUnlock nKey 8 nSig {}) = true ∧ bad (.debugUnlock nKey 0 [] {}) = true ∧ bad (.bootRomStart 65536 false) = true ∧ bad (.bdieSelftest ⟨true, 65536⟩) = true ∧
      Instr.wellFormed (.configLoad { tc := 0 }) = true ∧ bad (.configLoad { fns := [(256, {})] }) = true ∧
      bad (.configLoad { fns := [(0, { pair := 3 })] }) = true ∧ bad (.configLoad { lanes := [(16, {})] }) = true ∧
      bad (.configLoad { peers := [(16, {})] }) = true ∧ bad (.configSetup [(2, 0)]) = true ∧
      bad (.startupTests 65536 0 0) = true ∧ Instr.wellFormed (.debugUnlock nKey 7 nSig {}) = true := by decide +kernel

/-! ### Results that the spec works out -/

/-- The worked cases B, C and D of clamp arithmetic (R86): zone 9 with k = 5 and L = 900,000. -/
theorem test_clamp_arithmetic :
    checkEmitter true 62000 60000 400000 5 900000 = { dose := 60000, sum := 447500, viol := true, exceed := false } ∧
      checkEmitter true 50000 60000 880000 5 900000 = { dose := 47500, sum := 900000, viol := false, exceed := true } ∧
      checkEmitter true 20000 60000 950000 5 900000 = { dose := 0, sum := 920313, viol := false, exceed := true } := by decide +kernel

/-- The published checks over "123456789" of CRC-32 and CRC-32C (R352, R413). -/
theorem test_published_checks :
    let s : List Byte := [0x31, 0x32, 0x33, 0x34, 0x35, 0x36, 0x37, 0x38, 0x39]
    crcOf crc32Params s = 0xCBF43926 ∧ crcOf crc32cParams s = 0xE3069283 := by decide +kernel

/-- The peak of R161's example. -/
theorem test_peak_code : peakCode 900000 = 0x4DBC ∧ peakDecode 0x4DBC = 900096 := by decide +kernel

/-- The trimmed oxygen input (R281, R283): a reading of 5,614,000 nA. -/
theorem test_oxygen_input :
    let x := CliPath.form { pvhi := 10000, ofs := 6000, gain := -25128 } 5614000 {}
    x.cur = 5599600 ∧ x.pv = 999 := by decide +kernel

/-- The worked emitter of the map: engine 5, row 137, column 203, has its ceiling at 0x010B1396 and its integrator at 0x0156272C. -/
theorem test_emitter_place :
    0x01000000 + 2 * emitterOf 5 17 459 = 0x010B1396 ∧ 0x01400000 + 4 * emitterOf 5 17 459 = 0x0156272C ∧
      tileOf (emitterOf 5 17 459) = 5689 := by decide +kernel

end Sys2Proof.Tests
end

section
/-! PROOF. What the proofs of the scope family share: how a command acts on a module that is awake, what stands after reset. -/

namespace Sys2Proof.Machine

/-! ### Commands of a module that is not held in reset -/

theorem State.apply_awake {s : State} (hs : s.Awake) (f : Hw → Hw) : s.apply f = .next (s.withHw (f s.hw)) := by
  rw [State.apply, if_neg (by simp [hs])]; rfl

theorem State.applyBus_awake {s : State} (hs : s.Awake) (f : Hw → NonVol → Hw) :
    s.applyBus f = .next (s.withHw (f s.hw s.nv)) := by
  rw [State.applyBus, if_neg (by simp [hs])]; rfl

/-- Where the device does not enter SAFE_HOLD, no record of a hold is left. -/
theorem State.applyHold_awake {s : State} (hs : s.Awake) (f : Hw → NonVol → Hw)
    (hd : s.hw.dev ≠ devSafeHold → (f s.hw s.nv).dev ≠ devSafeHold) :
    s.applyHold f = .next (s.withHw (f s.hw s.nv)) := by
  rw [State.applyHold, if_neg (by simp [hs])]
  dsimp only
  rw [if_neg fun h => hd h.1 h.2]; rfl

/-! ### Reset -/

/-- The register file lists its registers in the order of `Reg`. -/
theorem Reg.allRegs_getD_idx (r : Reg) : allRegs.getD r.idx .GLB_ID = r := by cases r <;> rfl

theorem Reg.regDefault_key (r : Reg) (n : Nat) : regDefault (r.key n) = r.resetWord := by
  have hk : r.key n % 512 = r.idx := by
    have := r.idx_lt
    unfold Reg.key
    omega
  rw [regDefault, hk, Reg.allRegs_getD_idx]

/-- Before anything is written a register holds its reset word (R17). -/
theorem Hw.word_unwritten (r : Reg) (n : Nat) : ({} : Hw).word r n = r.resetWord := Reg.regDefault_key r n

/-- Reset writes POD_STAT of Pod 0 alone: every other register holds its reset word. -/
theorem Hw.word_fresh {r : Reg} {n : Nat} (h : (r, n) ≠ (Reg.POD_STAT, 0)) : Hw.fresh.word r n = r.resetWord := by
  unfold Hw.fresh Hw.setB
  by_cases hr : Reg.POD_STAT = r
  · have hn : 0 ≠ n := fun e => h (by rw [← hr, ← e])
    rw [Hw.word_set_idx _ _ hn, Hw.word_set_idx _ _ hn, Hw.word_unwritten]
  · rw [Hw.word_set_reg _ _ _ _ hr, Hw.word_set_reg _ _ _ _ hr, Hw.word_unwritten]

theorem Hw.seoA_fresh (n : Nat) : Hw.fresh.seoA n = false := by
  have : Hw.fresh.relPermit n = false := rfl
  simp [Hw.seoA, this]

theorem Hw.seoB_fresh (n : Nat) : Hw.fresh.seoB n = false := by
  have : Hw.fresh.b.state = 0 := rfl
  simp [Hw.seoB, this]

/-- Settles O3: the registers but POD_STAT of Pod 0 are unwritten, and everything that reset lists is empty. -/
theorem resetState : Obligations.ResetState := by
  obtain ⟨hdram, hpriv, hfuse, hint, htile⟩ := State.reset_memories_wf
  refine ⟨fun r n => Hw.word_fresh, by decide +kernel, by decide +kernel, by decide +kernel, rfl, rfl, rfl, rfl, rfl, rfl, rfl, rfl,
    rfl, rfl, rfl, rfl, fun _ => rfl, fun _ => rfl, fun n _ => ⟨Hw.seoA_fresh n, Hw.seoB_fresh n⟩,
    ⟨hdram, hpriv, hint, htile⟩, hfuse, fun _ _ => rfl⟩

end Sys2Proof.Machine
end

section
/-! PROOF. What a write leaves in each field (R11, R16). -/

namespace Sys2Proof.Machine

/-- Two bit fields share no bit. -/
def FieldInfo.Apart (f : FieldInfo) (lo w : Nat) : Prop := f.lo + f.w ≤ lo ∨ lo + w ≤ f.lo

/-- What a write of `x` leaves in a field that held `o`, by the field's type (R11, R16). -/
def FieldInfo.next (f : FieldInfo) (locked : Bool) (o x : Nat) : Nat :=
  match f.ty with
  | .rw => if f.accepts x then x else o
  | .rwl => if !locked && f.accepts x then x else o
  | .w1c => Nat.land o (2 ^ f.w - 1 - x)
  | .w1s => Nat.lor o x
  | .ro => o
  | .rc => o
  | .wo => o

/-- A write of one field leaves the word as it is, or puts something into the field's own bits. -/
theorem FieldInfo.after_puts (f : FieldInfo) (locked : Bool) (old v : Word) :
    f.after locked old v = old ∨ ∃ x, f.after locked old v = putBits old f.lo f.w x := by
  unfold FieldInfo.after
  dsimp only
  split
  case h_1 | h_2 =>
    split
    · exact .inr ⟨_, rfl⟩
    · exact .inl rfl
  case h_3 | h_4 => exact .inr ⟨_, rfl⟩
  case h_5 | h_6 | h_7 => exact .inl rfl

theorem FieldInfo.extract_after_apart {f : FieldInfo} (locked : Bool) (old v : Word) {lo w : Nat} (hd : f.Apart lo w) :
    (f.after locked old v).extractLsb' lo w = old.extractLsb' lo w := by
  rcases f.after_puts locked old v with h | ⟨x, h⟩
  · rw [h]
  · rw [h, putBits_other _ _ _ _ _ _ hd]

theorem FieldInfo.extract_after_same {f : FieldInfo} (locked : Bool) (old v : Word) (hf : f.lo + f.w ≤ 32) :
    ((f.after locked old v).extractLsb' f.lo f.w).toNat =
      f.next locked (old.extractLsb' f.lo f.w).toNat (v.extractLsb' f.lo f.w).toNat := by
  have hx := (v.extractLsb' f.lo f.w).isLt
  have ho := (old.extractLsb' f.lo f.w).isLt
  have put {x : Nat} (hx : x < 2 ^ f.w) : ((putBits old f.lo f.w x).extractLsb' f.lo f.w).toNat = x := by
    rw [putBits_same _ _ _ _ hf, Nat.mod_eq_of_lt hx]
  unfold FieldInfo.after FieldInfo.next
  cases f.ty
  case rw | rwl =>
    dsimp only
    split
    · exact put hx
    · rfl
  case w1c => exact put (Nat.lt_of_le_of_lt Nat.and_le_left ho)
  case w1s => exact put (Nat.or_lt_two_pow ho hx)
  case ro | rc | wo => rfl

/-- Writes of fields that lie apart from some bits leave those bits. -/
theorem extract_fields_apart {fs : List FieldInfo} (locked : Bool) (old v : Word) {lo w : Nat} (hd : ∀ f ∈ fs, f.Apart lo w) :
    (fs.foldl (fun x f => f.after locked x v) old).extractLsb' lo w = old.extractLsb' lo w := by
  induction fs generalizing old with
  | nil => rfl
  | cons f fs ih =>
    rw [List.foldl_cons, ih _ fun g hg => hd g (List.mem_cons_of_mem _ hg),
      FieldInfo.extract_after_apart _ _ _ (hd f List.mem_cons_self)]

/-- Of fields that lie apart, each one takes what its own write leaves. -/
theorem extract_fields_mem {fs : List FieldInfo} (locked : Bool) (old v : Word) {f : FieldInfo} (hm : f ∈ fs)
    (hd : fs.Pairwise fun f g => f.Apart g.lo g.w) (hf : f.lo + f.w ≤ 32) :
    ((fs.foldl (fun x f => f.after locked x v) old).extractLsb' f.lo f.w).toNat =
      f.next locked (old.extractLsb' f.lo f.w).toNat (v.extractLsb' f.lo f.w).toNat := by
  induction fs generalizing old with
  | nil => exact absurd hm List.not_mem_nil
  | cons g fs ih =>
    obtain ⟨hg, hd⟩ := List.pairwise_cons.1 hd
    rw [List.foldl_cons]
    rcases List.mem_cons.1 hm with rfl | hm
    · rw [extract_fields_apart _ _ _ fun x hx => (hg x hx).symm, FieldInfo.extract_after_same _ _ _ hf]
    · rw [ih _ hm hd, FieldInfo.extract_after_apart _ _ _ (hg f hm)]

/-- The fields of every register lie apart and within the word. -/
theorem Reg.fields_apart (r : Reg) :
    r.info.fields.Pairwise (fun f g => f.lo + f.w ≤ g.lo ∨ g.lo + g.w ≤ f.lo) ∧ ∀ f ∈ r.info.fields, f.lo + f.w ≤ 32 := by
  cases r <;> decide

theorem nfield_toNat (x : Word) (lo w : Nat) : nfield x.toNat lo w = (x.extractLsb' lo w).toNat := by
  rw [nfield, BitVec.extractLsb'_toNat, Nat.shiftRight_eq_div_pow]

theorem getLsbD_eq_extract (x : Word) (j : Nat) : x.getLsbD j = (x.extractLsb' j 1).getLsbD 0 := by simp

/-- Settles O12: the fields of a register lie apart, so that each takes what its own type leaves. -/
theorem fieldTypes : Obligations.FieldTypes := by
  intro r locked old v
  obtain ⟨hd, hw⟩ := r.fields_apart
  refine ⟨fun f hf => ?_, fun j _ hj => ?_⟩
  · simp only [nfield_toNat]
    exact extract_fields_mem locked old v hf hd (hw f hf)
  · rw [getLsbD_eq_extract, getLsbD_eq_extract old, Reg.after, extract_fields_apart]
    exact fun f hf => (hj f hf).symm

end Sys2Proof.Machine
end

section
/-! PROOF. Bus accesses (R10, R14, R33, R41, R42, R47): where an access goes and what it leaves. -/

namespace Sys2Proof.Machine

/-! ### What the end of a timer clock leaves -/

/-- `p` looks at nothing that the end of a timer's clock writes: three registers of the timers, their records, events and pulses. -/
structure Hw.IgnoresTimers {β : Type} (p : Hw → β) : Prop where
  set : ∀ (h : Hw) (f : Fld) (n v : Nat), f.reg ∈ [Reg.TMR_STAT, .TMR_CAP, .TMR_CNT] → p (h.set f n v) = p h
  updTimer : ∀ (h : Hw) (n : Nat) (f : Timer → Timer), p (h.updTimer n f) = p h
  raise : ∀ (h : Hw) (e : Nat), p (h.raise e) = p h
  pulses : ∀ (h : Hw) (l : List Nat), p { h with pulses := l } = p h

namespace Hw.IgnoresTimers

variable {β : Type} {p : Hw → β} (hp : Hw.IgnoresTimers p)
include hp

theorem tmrFlag (h : Hw) (n k : Nat) : p (h.tmrFlag n k) = p h := by
  have hset : p (h.setB (Machine.tmrFlag k) n true) = p h :=
    hp.set _ _ _ _ (List.mem_cons_self (a := Reg.TMR_STAT) (l := [.TMR_CAP, .TMR_CNT]))
  unfold Hw.tmrFlag
  dsimp only
  split
  · rw [hp.updTimer, hp.raise, hset]
  · exact hset

theorem outMatch (h : Hw) (n : Nat) : p (h.outMatch n) = p h := by
  have hset (b : Bool) : p (h.setB F.TMR_STAT_OUT n b) = p h := hp.set _ _ _ _ (by decide)
  unfold Hw.outMatch
  dsimp only
  split
  · exact hset _
  · split
    · exact hset _
    · split
      · exact hset _
      · rfl

theorem tmrMove (h : Hw) (n v : Nat) : p (h.tmrMove n v) = p h := by
  rw [Hw.tmrMove, hp.updTimer, hp.set _ _ _ _ (by decide)]

theorem tmrCompare (h : Hw) (n : Nat) : p (h.tmrCompare n) = p h := by
  unfold Hw.tmrCompare
  dsimp only
  rw [hp.updTimer]
  split
  · rw [hp.outMatch, hp.tmrFlag]
  · rfl

theorem tmrEdge (h : Hw) (n : Nat) (pulse rising : Bool) : p (h.tmrEdge n pulse rising) = p h := by
  unfold Hw.tmrEdge
  dsimp only
  split
  · split
    · split
      · rw [Hw.when_keeps p fun x => hp.tmrMove x n 0, hp.tmrFlag, Hw.when_keeps p fun x => hp.tmrFlag x n tfCapovr,
          hp.set _ _ _ _ (by decide), hp.updTimer]
      · exact hp.updTimer _ _ _
    · exact hp.updTimer _ _ _
  · rfl

theorem tmrCapture (h : Hw) (n : Nat) : p (h.tmrCapture n) = p h := by
  unfold Hw.tmrCapture
  dsimp only
  split
  · rfl
  · split
    · split
      · rw [hp.tmrEdge, hp.updTimer]
      · rfl
    · split
      · rw [hp.tmrEdge, hp.updTimer]
      · rfl

theorem tmrEnd (h : Hw) (n k : Nat) : p (h.tmrEnd n k) = p h := by
  rw [Hw.tmrEnd, hp.updTimer, hp.tmrCompare, Hw.forUpTo_keeps p fun _ _ x => hp.tmrCapture x n]

theorem tmrSettle (h : Hw) : p h.tmrSettle = p h := by
  unfold Hw.tmrSettle
  dsimp only
  rw [hp.pulses]
  refine Hw.forUpTo_keeps p (fun n _ x => ?_) h
  split
  · rfl
  · exact hp.tmrEnd x n _

end Hw.IgnoresTimers

/-- A word that is neither a timer's nor the events' is not changed by the end of a timer's clock. -/
theorem Hw.word_tmrSettle (h : Hw) {r : Reg} (n : Nat)
    (hr : r ∉ [Reg.TMR_STAT, .TMR_CAP, .TMR_CNT, .EVT_PEND, .EVT_MERGECNT]) : h.tmrSettle.word r n = h.word r n := by
  simp only [List.mem_cons, List.not_mem_nil, or_false, not_or] at hr
  obtain ⟨h1, h2, h3, h4, h5⟩ := hr
  refine Hw.IgnoresTimers.tmrSettle (p := (·.word r n)) ⟨fun h f k v hf => ?_, fun _ _ _ => rfl, fun h e => ?_, fun _ _ => rfl⟩ h
  · refine Hw.word_set_reg _ _ _ _ fun e => ?_
    simp only [List.mem_cons, List.not_mem_nil, or_false, e, h1, h2, h3] at hf
  · exact Hw.word_raise _ _ _ h4 h5

theorem Hw.get_tmrSettle (h : Hw) {f : Fld} (n : Nat)
    (hr : f.reg ∉ [Reg.TMR_STAT, .TMR_CAP, .TMR_CNT, .EVT_PEND, .EVT_MERGECNT]) : h.tmrSettle.get f n = h.get f n :=
  Hw.get_of_word (h.word_tmrSettle n hr)

@[simp] theorem Hw.tmrSettle_boot (h : Hw) : h.tmrSettle.boot = h.boot :=
  Hw.IgnoresTimers.tmrSettle (p := Hw.boot) ⟨fun _ _ _ _ _ => rfl, fun _ _ _ => rfl, Hw.raise_boot, fun _ _ => rfl⟩ h

@[simp] theorem Hw.tmrSettle_bus (h : Hw) : h.tmrSettle.bus = h.bus :=
  Hw.IgnoresTimers.tmrSettle (p := Hw.bus) ⟨fun _ _ _ _ _ => rfl, fun _ _ _ => rfl, Hw.raise_bus, fun _ _ => rfl⟩ h

@[simp] theorem Hw.tmrSettle_podState (h : Hw) (p : Nat) : h.tmrSettle.podState p = h.podState p :=
  h.get_tmrSettle (f := F.POD_STAT_STATE) p (by decide)

@[simp] theorem Hw.tmrSettle_isStandby (h : Hw) (m : Nat) : h.tmrSettle.isStandby m = h.isStandby m := by
  simp [Hw.isStandby]

theorem Hw.tmrSettle_classOf (h : Hw) (m : Nat) : h.tmrSettle.classOf m = h.classOf m := by
  simp [Hw.classOf, Hw.isBootPod]

@[simp] theorem Hw.tmrSettle_mayRead (h : Hw) (m : Nat) (r : Reg) : h.tmrSettle.mayRead m r = h.mayRead m r := by
  simp [Hw.mayRead, Hw.tmrSettle_classOf]

@[simp] theorem Hw.tmrSettle_mayWrite (h : Hw) (m : Nat) (r : Reg) : h.tmrSettle.mayWrite m r = h.mayWrite m r := by
  simp [Hw.mayWrite, Hw.tmrSettle_classOf]

/-! ### Addresses -/

theorem mul_add_div_mod {b k : Nat} (x : Nat) (hk : k < b) : (x * b + k) / b = x ∧ (x * b + k) % b = k :=
  (Nat.div_mod_unique (Nat.zero_lt_of_lt hk)).2 ⟨by rw [Nat.mul_comm, Nat.add_comm], hk⟩

/-- A register that has a word at an address has that address at the word. -/
theorem Reg.addr_of_at {r : Reg} {a n : Nat} (h : r.at a = some n) : r.addr n = a := by
  simp only [Reg.at, Option.ite_none_right_eq_some, Option.some.injEq] at h
  unfold Reg.addr
  generalize r.info = i at *
  obtain ⟨⟨hb, -, hk, hl⟩, rfl⟩ := h
  obtain ⟨off, rfl⟩ := Nat.exists_eq_add_of_le hb
  simp only [Nat.add_sub_cancel_left] at hk hl ⊢
  obtain ⟨hdiv, hmod⟩ := mul_add_div_mod _ hk
  rw [hdiv, hmod, Nat.add_assoc]
  congr 1
  have hinst := Nat.div_add_mod' off i.stride
  have hrest := Nat.div_add_mod' (off % i.stride) i.sstride
  have hoff := Nat.div_add_mod' off i.sstride
  by_cases hc : i.count = 1 <;> by_cases hs : i.sub = 1
  all_goals
    simp only [hc, hs, if_true, if_false] at hl ⊢
    omega

theorem decodeReg_addr {a n : Nat} {r : Reg} (h : decodeReg a = some (r, n)) : r.addr n = a := by
  obtain ⟨q, -, hq⟩ := List.exists_of_findSome?_eq_some h
  obtain ⟨k, hk, he⟩ := Option.map_eq_some_iff.1 hq
  cases he
  exact Reg.addr_of_at hk

/-! ### The commands of bus accesses -/

theorem exec_registerWrite {s : State} (hs : s.Awake) (m : Master) (a size v : Nat) :
    exec (.registerWrite m a size v) s = .next (s.withHw (s.hw.busWrite s.nv m a size v)) :=
  State.applyBus_awake hs fun h nv => h.busWrite nv m a size v

theorem exec_rcFieldRead {s : State} (hs : s.Awake) (m : Master) (a size : Nat) (hit : DdrHit) :
    exec (.rcFieldRead m a ⟨size, hit⟩) s = .next (s.withHw (s.hw.busRead m a size hit)) :=
  State.apply_awake hs fun h => h.busRead m a size hit

theorem exec_lockBitSet {s : State} (hs : s.Awake) (m : Master) (a : Nat) (v : Word) :
    exec (.lockBitSet m a v) s = .next (s.withHw (s.hw.busWrite s.nv m a 4 v.toNat)) :=
  State.applyBus_awake hs fun h nv => h.busWrite nv m a 4 v.toNat

theorem exec_unlistedRead {s : State} (hs : s.Awake) (m : Master) (a : Nat) (v : Word) :
    exec (.unlistedAccess m a false v) s = .next (s.withHw (s.hw.busRead m a 4 .clean)) :=
  State.applyBus_awake hs fun h _ => h.busRead m a 4 .clean

theorem exec_unlistedWrite {s : State} (hs : s.Awake) (m : Master) (a : Nat) (v : Word) :
    exec (.unlistedAccess m a true v) s = .next (s.withHw (s.hw.busWrite s.nv m a 4 v.toNat)) :=
  State.applyBus_awake hs fun h nv => h.busWrite nv m a 4 v.toNat

theorem exec_bar0Read {s : State} (hs : s.Awake) (off : Nat) (v : Word) :
    exec (.bar0Access off false v) s = .next (s.withHw (s.hw.busRead idHost off 4 .clean)) :=
  State.applyBus_awake hs fun h _ => h.busRead idHost off 4 .clean

theorem exec_bar0Write {s : State} (hs : s.Awake) (off : Nat) (v : Word) :
    exec (.bar0Access off true v) s = .next (s.withHw (s.hw.busWrite s.nv idHost off 4 v.toNat)) :=
  State.applyBus_awake hs fun h nv => h.busWrite nv idHost off 4 v.toNat

/-! ### Where an access goes -/

section Access

variable {h : Hw} {nv : NonVol} {m a size : Nat} {r : Reg} {n : Nat}

/-- R10 allows no such access to the register map: another width than 4 bytes, 8 of the host apart, or a word that is not aligned. -/
def Illegal (m a size : Nat) : Prop := (size = 4 ∧ a % 4 ≠ 0) ∨ (size ≠ 4 ∧ ¬(m = idHost ∧ size = 8))

theorem Hw.busWrite_illegal (v : Nat) (hp : h.present m = true) (hn : h.memPlace m a size = none) (hi : Illegal m a size) :
    h.busWrite nv m a size v = if h.isStandby m then h else h.stray m a true := by
  rw [Hw.busWrite, if_neg (by simp [hp]), hn]
  rcases hi with ⟨rfl, ha⟩ | ⟨h4, h8⟩
  · simp [Hw.writeMap, ha]
  · simp [h4, h8]

theorem Hw.busRead_illegal (hit : DdrHit) (hp : h.present m = true) (hn : h.memPlace m a size = none) (hi : Illegal m a size) :
    h.busRead m a size hit = (h.stray m a false).answer 0 := by
  rw [Hw.busRead, if_neg (by simp [hp]), hn]
  rcases hi with ⟨rfl, ha⟩ | ⟨h4, h8⟩
  · simp [Hw.readMap, ha]
  · simp [h4, h8]

/-- A 64-bit access of the host is two accesses of 32 bits, lower address first (R10). -/
theorem Hw.busWrite_host64 (v : Nat) (hp : h.present m = true) (hn : h.memPlace m a 8 = none) (hm : m = idHost) :
    h.busWrite nv m a 8 v =
      (h.writeMap nv m a (BitVec.ofNat 32 v)).writeMap nv m (a + 4) (BitVec.ofNat 32 (v / 2 ^ 32)) := by
  rw [Hw.busWrite, if_neg (by simp [hp]), hn]
  exact if_pos ⟨hm, rfl⟩

theorem Hw.busRead_host64 (hit : DdrHit) (hp : h.present m = true) (hn : h.memPlace m a 8 = none) (hm : m = idHost) :
    h.busRead m a 8 hit =
      ((h.readMap m a).2.readMap m (a + 4)).2.answer
        ((h.readMap m a).1.toNat + 2 ^ 32 * ((h.readMap m a).2.readMap m (a + 4)).1.toNat) := by
  rw [Hw.busRead, if_neg (by simp [hp]), hn]
  exact if_pos ⟨hm, rfl⟩

theorem Hw.stray_mapped (w : Bool) (hm : mapped a = true) : h.stray m a w = h := by simp [Hw.stray, hm]

theorem Hw.stray_unmapped (w : Bool) (hm : mapped a = false) : h.stray m a w = h.violation m a w := by simp [Hw.stray, hm]

theorem Hw.busWrite_word (v : Word) (hp : h.present m = true) (hn : h.memPlace m a 4 = none) :
    h.busWrite nv m a 4 v.toNat = h.writeMap nv m a v := by
  rw [Hw.busWrite, if_neg (by simp [hp]), hn]
  simp

theorem Hw.busRead_word (hit : DdrHit) (hp : h.present m = true) (hn : h.memPlace m a 4 = none) :
    h.busRead m a 4 hit = (h.readMap m a).2.answer (h.readMap m a).1.toNat := by
  rw [Hw.busRead, if_neg (by simp [hp]), hn]
  simp

theorem Hw.readMap_register (ha : a % 4 = 0) (hd : decodeReg a = some (r, n)) : h.readMap m a = h.tmrSettle.readReg m r n := by
  rw [Hw.readMap, if_neg (by simp [ha]), hd]

theorem Hw.writeMap_register (v : Word) (ha : a % 4 = 0) (hd : decodeReg a = some (r, n)) :
    h.writeMap nv m a v = h.tmrSettle.writeAccess nv m r n v := by
  simp only [Hw.writeMap, ha, hd, ne_eq, not_true_eq_false, if_false]

/-- The registers whose accesses follow a mailbox binding or a semaphore. -/
def mailboxRegs : List Reg := [.MBX_MSG, .MBX_SEND, .MBX_TAKE, .MBX_STAT, .MBX_SEM]

theorem Hw.readReg_denied (hr : r ∉ mailboxRegs) (hm : h.mayRead m r = false) :
    h.readReg m r n = (0, h.violation m (r.addr n) false) := by
  unfold Hw.readReg
  split
  case h_1 | h_2 | h_3 | h_4 | h_5 => exact absurd (by decide) hr
  case h_6 => rw [if_neg (by simp [hm])]

theorem Hw.writeAccess_denied (v : Word) (hr : r ∉ mailboxRegs) (hm : h.mayWrite m r = false) (hs : h.isStandby m = false) :
    h.writeAccess nv m r n v = h.violation m (r.addr n) true := by
  unfold Hw.writeAccess
  dsimp only
  rw [if_neg (by simp [hs])]
  split
  case h_1 | h_2 | h_3 | h_4 => exact absurd (by decide) hr
  case h_5 => rw [if_pos (by simp [hm])]

end Access

end Sys2Proof.Machine
end

section
/-! PROOF. Register accesses by width, and the record of an access violation (R10, R33, R41). -/

namespace Sys2Proof.Machine

/-- Settles O11: an access that R10 does not allow is a stray one, which nothing but an address outside the map records. -/
theorem accessWidth : Obligations.AccessWidth := by
  intro s m a size v hit hs hp hn
  refine ⟨fun r n => BitVec.isLt _, fun hi => ?_, fun hm h8 => ?_⟩
  · rw [exec_registerWrite hs, exec_rcFieldRead hs, Hw.busWrite_illegal v hp hn hi, Hw.busRead_illegal hit hp hn hi]
    cases ha : mapped a
    · simp [Hw.stray_unmapped _ ha]
    · simp [Hw.stray_mapped _ ha, State.withHw]
  · subst h8
    rw [exec_registerWrite hs, exec_rcFieldRead hs, Hw.busWrite_host64 v hp hn hm, Hw.busRead_host64 hit hp hn hm]
    exact ⟨rfl, rfl⟩

/-! ### The record of a violation (R41) -/

theorem bit_mod_two_pow (b : Bool) {w : Nat} (hw : 0 < w) : bit b % 2 ^ w = bit b := by
  have : 2 ^ 1 ≤ 2 ^ w := Nat.pow_le_pow_right (by decide) hw
  have hb : bit b < 2 ^ 1 := by cases b <;> decide
  exact Nat.mod_eq_of_lt (Nat.lt_of_lt_of_le hb this)

/-- A flag reads as it was set. -/
theorem Hw.on_setB_same (h : Hw) (f : Fld) (n : Nat) (b : Bool) (hf : f.lo + f.w ≤ 32) (hw : 0 < f.w) :
    (h.setB f n b).on f n = b := by
  rw [Hw.on, Hw.setB, Hw.get_set_same _ _ _ _ hf, bit_mod_two_pow b hw]
  cases b <;> rfl

theorem Hw.on_set_field (h : Hw) {f g : Fld} (n m v : Nat) (hd : f.lo + f.w ≤ g.lo ∨ g.lo + g.w ≤ f.lo) :
    (h.set f n v).on g m = h.on g m := by rw [Hw.on, Hw.get_set_field _ _ _ _ hd]; rfl

theorem Hw.on_set_reg (h : Hw) {f g : Fld} (n m v : Nat) (hr : f.reg ≠ g.reg) : (h.set f n v).on g m = h.on g m := by
  rw [Hw.on, Hw.get_set_reg _ _ _ _ hr]; rfl

/-- A counter field that has been advanced. -/
theorem Hw.get_bump_same (h : Hw) (f : Fld) (n k : Nat) (hf : f.lo + f.w ≤ 32) :
    (h.bump f n k).get f n = min (h.get f n + k) (2 ^ f.w - 1) := by
  rw [Hw.bump, Hw.get_set_same _ _ _ _ hf, Nat.mod_eq_of_lt]
  have := Nat.two_pow_pos f.w
  omega

/-- From `g` to `u` an access of master `m` at `a` was recorded as a violation, and the bus shows `x`: the count advances, the first
violation keeps its master, direction and address, and later ones set OVF (R41). -/
def Hw.Recorded (g u : Hw) (m a : Nat) (write : Bool) (x : Nat) : Prop :=
  u.bus = x ∧ u.get F.GLB_AVCNT_COUNT 0 = min (g.get F.GLB_AVCNT_COUNT 0 + 1) 65535 ∧ u.on F.GLB_AVIOL_VALID 0 = true ∧
    (if g.on F.GLB_AVIOL_VALID 0 then u.on F.GLB_AVIOL_OVF 0 = true ∧ u.word .GLB_AVADDR 0 = g.word .GLB_AVADDR 0 ∧
        u.get F.GLB_AVIOL_MASTER 0 = g.get F.GLB_AVIOL_MASTER 0
      else u.get F.GLB_AVIOL_MASTER 0 = m ∧ u.on F.GLB_AVIOL_WRITE 0 = write ∧ u.get F.GLB_AVADDR_ADDR 0 = a % 2 ^ 32) ∧
    u = { g with regs := u.regs, bus := u.bus, resp := u.resp } ∧ (write = false → u.resp = .data) ∧
    ∀ r n, r ≠ .GLB_AVCNT → r ≠ .GLB_AVIOL → r ≠ .GLB_AVADDR → u.word r n = g.word r n

theorem Hw.violation_again {g : Hw} (m a : Nat) (w : Bool) (hv : g.on F.GLB_AVIOL_VALID 0 = true) :
    g.violation m a w = (g.bump F.GLB_AVCNT_COUNT 0 1).setB F.GLB_AVIOL_OVF 0 true := by
  have : (g.bump F.GLB_AVCNT_COUNT 0 1).on F.GLB_AVIOL_VALID 0 = true := (Hw.on_set_reg _ _ _ _ (by decide)).trans hv
  rw [Hw.violation, if_pos this]

theorem Hw.violation_first {g : Hw} (m a : Nat) (w : Bool) (hv : g.on F.GLB_AVIOL_VALID 0 = false) :
    g.violation m a w = ((((g.bump F.GLB_AVCNT_COUNT 0 1).setB F.GLB_AVIOL_VALID 0 true).setB F.GLB_AVIOL_WRITE 0 w).set
      F.GLB_AVIOL_MASTER 0 m).set F.GLB_AVADDR_ADDR 0 a := by
  have : (g.bump F.GLB_AVCNT_COUNT 0 1).on F.GLB_AVIOL_VALID 0 = false := (Hw.on_set_reg _ _ _ _ (by decide)).trans hv
  rw [Hw.violation, if_neg (by simp [this])]

theorem Hw.word_violation (g : Hw) (m a : Nat) (w : Bool) {r : Reg} (n : Nat) (h1 : r ≠ .GLB_AVCNT) (h2 : r ≠ .GLB_AVIOL)
    (h3 : r ≠ .GLB_AVADDR) : (g.violation m a w).word r n = g.word r n := by
  unfold Hw.violation
  dsimp only
  split
  · rw [Hw.setB, Hw.word_set_reg _ _ _ _ (Ne.symm h2), Hw.bump, Hw.word_set_reg _ _ _ _ (Ne.symm h1)]
  · rw [Hw.word_set_reg _ _ _ _ (Ne.symm h3), Hw.word_set_reg _ _ _ _ (Ne.symm h2), Hw.setB, Hw.word_set_reg _ _ _ _ (Ne.symm h2),
      Hw.setB, Hw.word_set_reg _ _ _ _ (Ne.symm h2), Hw.bump, Hw.word_set_reg _ _ _ _ (Ne.symm h1)]

theorem Hw.violation_regs (g : Hw) (m a : Nat) (w : Bool) : g.violation m a w = { g with regs := (g.violation m a w).regs } := by
  unfold Hw.violation
  dsimp only
  split <;> rfl

/-- The count of violations advances, whether the violation is the first or not. -/
theorem Hw.violation_count (g : Hw) (m a : Nat) (w : Bool) :
    (g.violation m a w).get F.GLB_AVCNT_COUNT 0 = min (g.get F.GLB_AVCNT_COUNT 0 + 1) 65535 := by
  have hb := g.get_bump_same F.GLB_AVCNT_COUNT 0 1 (by decide)
  cases hv : g.on F.GLB_AVIOL_VALID 0
  · rw [Hw.violation_first m a w hv, Hw.get_set_reg _ _ _ _ (by decide), Hw.get_set_reg _ _ _ _ (by decide), Hw.setB,
      Hw.get_set_reg _ _ _ _ (by decide), Hw.setB, Hw.get_set_reg _ _ _ _ (by decide)]
    exact hb
  · rw [Hw.violation_again m a w hv, Hw.setB, Hw.get_set_reg _ _ _ _ (by decide)]
    exact hb

/-- A violation is recorded, whatever the bus then shows. -/
theorem Hw.violation_recorded (g : Hw) {m : Nat} (a : Nat) (w : Bool) {u : Hw} (hm : m < 32)
    (hu : u = { g.violation m a w with bus := u.bus, resp := u.resp }) (hd : w = false → u.resp = .data) :
    g.Recorded u m a w u.bus := by
  have hword (r : Reg) (n : Nat) : u.word r n = (g.violation m a w).word r n := by rw [hu]; rfl
  have hget (f : Fld) (n : Nat) : u.get f n = (g.violation m a w).get f n := Hw.get_of_word (hword _ _)
  have hon (f : Fld) (n : Nat) : u.on f n = (g.violation m a w).on f n := by rw [Hw.on, hget]; rfl
  refine ⟨rfl, (hget _ _).trans (g.violation_count m a w), ?_, ?_, ?_, hd, fun r n h1 h2 h3 => (hword r n).trans
    (g.word_violation m a w n h1 h2 h3)⟩
  · rw [hon]
    cases hv : g.on F.GLB_AVIOL_VALID 0
    · rw [Hw.violation_first m a w hv, Hw.on_set_reg _ _ _ _ (by decide), Hw.on_set_field _ _ _ _ (by decide), Hw.setB,
        Hw.on_set_field _ _ _ _ (by decide), Hw.on_setB_same _ _ _ _ (by decide) (by decide)]
    · rw [Hw.violation_again m a w hv, Hw.setB, Hw.on_set_field _ _ _ _ (by decide), Hw.bump, Hw.on_set_reg _ _ _ _ (by decide), hv]
  · simp only [hon, hget, hword]
    cases hv : g.on F.GLB_AVIOL_VALID 0
    · rw [if_neg (by decide), Hw.violation_first m a w hv]
      refine ⟨?_, ?_, Hw.get_set_same _ _ _ _ (by decide)⟩
      · rw [Hw.get_set_reg _ _ _ _ (by decide), Hw.get_set_same _ _ _ _ (by decide)]
        exact Nat.mod_eq_of_lt hm
      · rw [Hw.on_set_reg _ _ _ _ (by decide), Hw.on_set_field _ _ _ _ (by decide), Hw.on_setB_same _ _ _ _ (by decide) (by decide)]
    · rw [if_pos rfl, Hw.violation_again m a w hv]
      refine ⟨Hw.on_setB_same _ _ _ _ (by decide) (by decide), ?_, ?_⟩
      · rw [Hw.setB, Hw.word_set_reg _ _ _ _ (by decide), Hw.bump, Hw.word_set_reg _ _ _ _ (by decide)]
      · rw [Hw.setB, Hw.get_set_field _ _ _ _ (by decide), Hw.bump, Hw.get_set_reg _ _ _ _ (by decide)]
  · rw [hu, g.violation_regs m a w]

/-- A write that is refused as a violation. -/
theorem Hw.Recorded.of_write (g : Hw) {m : Nat} (a : Nat) (hm : m < 32) : g.Recorded (g.violation m a true) m a true g.bus := by
  have hb : (g.violation m a true).bus = g.bus := by rw [g.violation_regs]
  rw [← hb]
  exact g.violation_recorded a true hm rfl fun h => Bool.noConfusion h

/-- A read that is refused as a violation returns 0. -/
theorem Hw.Recorded.of_read (g : Hw) {m : Nat} (a : Nat) (hm : m < 32) :
    g.Recorded ((g.violation m a false).answer 0) m a false 0 := g.violation_recorded a false hm rfl fun _ => rfl

/-! ### Accesses that are refused (R14, R20, R33) -/

section Refused

variable {h : Hw} {nv : NonVol} {m : Master} {a : Nat} {r : Reg} {n : Nat}

/-- A read by a master that the register does not list is recorded and returns 0. -/
theorem Hw.busRead_unlisted (hp : h.present m = true) (hn : h.memPlace m a 4 = none) (ha : a % 4 = 0)
    (hd : decodeReg a = some (r, n)) (hr : r ∉ mailboxRegs) (hm : h.mayRead m r = false) :
    h.tmrSettle.Recorded (h.busRead m a 4 .clean) m a false 0 := by
  rw [Hw.busRead_word .clean hp hn, Hw.readMap_register ha hd, Hw.readReg_denied hr (by rw [Hw.tmrSettle_mayRead, hm]),
    decodeReg_addr hd]
  exact Hw.Recorded.of_read _ a m.isLt

/-- A write by a master that the register does not list is recorded. -/
theorem Hw.busWrite_unlisted (v : Word) (hp : h.present m = true) (hn : h.memPlace m a 4 = none) (ha : a % 4 = 0)
    (hd : decodeReg a = some (r, n)) (hr : r ∉ mailboxRegs) (hm : h.mayWrite m r = false) (hs : h.isStandby m = false) :
    h.tmrSettle.Recorded (h.busWrite nv m a 4 v.toNat) m a true h.bus := by
  rw [Hw.busWrite_word v hp hn, Hw.writeMap_register v ha hd,
    Hw.writeAccess_denied v hr (by rw [Hw.tmrSettle_mayWrite, hm]) (by rw [Hw.tmrSettle_isStandby, hs]), decodeReg_addr hd]
  rw [← h.tmrSettle_bus]
  exact Hw.Recorded.of_write _ a m.isLt

/-- BDIE reaches no address but those of registers (R14, R20). -/
theorem Hw.readMap_bdie (ha : a % 4 = 0) (hd : decodeReg a = none) : h.readMap idBdie a = (0, h.violation idBdie a false) := by
  rw [Hw.readMap, if_neg (by simp [ha]), hd]
  rfl

theorem Hw.writeMap_bdie (v : Word) (ha : a % 4 = 0) (hd : decodeReg a = none) :
    h.writeMap nv idBdie a v = h.violation idBdie a true := by
  simp only [Hw.writeMap, ha, hd, ne_eq, not_true_eq_false, if_false]
  rw [if_neg (fun hx => by simp [idBdie, idHost] at hx), if_pos trivial]

/-- What the host finds at an address outside every range and every window: nothing (R33). -/
structure Hw.Nowhere (h : Hw) (a : Nat) : Prop where
  unmapped : mapped a = false
  noReg : decodeReg a = none
  noWindow : h.windowWord a = none
  noTable : ¬(msixTblBase ≤ a ∧ a < msixTblBase + 256)
  noPba : a ≠ msixPbaBase

theorem Hw.readMap_nowhere (ha : a % 4 = 0) (hx : h.Nowhere a) : h.readMap idHost a = (0, h.violation idHost a false) := by
  rw [Hw.readMap, if_neg (by simp [ha]), hx.noReg]
  dsimp only
  rw [if_neg (by decide), hx.noWindow]
  dsimp only
  rw [if_neg (fun h => hx.noTable ⟨h.1, h.2.1⟩), if_neg (fun h => hx.noPba h.1), Hw.stray_unmapped _ hx.unmapped]

theorem Hw.writeMap_nowhere (v : Word) (ha : a % 4 = 0) (hx : h.Nowhere a) :
    h.writeMap nv idHost a v = h.violation idHost a true := by
  simp only [Hw.writeMap, ha, hx.noReg, ne_eq, not_true_eq_false, if_false]
  rw [if_neg (fun h => hx.noTable ⟨h.1, h.2.1⟩), if_neg (by decide), if_neg (fun h => absurd h.1 (by decide)),
    if_neg (by simp [Hw.isStandby, idHost]), Hw.stray_unmapped _ hx.unmapped]

/-- The host has no memory beside the register map. -/
theorem Hw.memPlace_host {size : Nat} : h.memPlace idHost a size = none := by
  simp [Hw.memPlace, Hw.privRanges, idHost, idDma]

end Refused

/-- Settles O13: each of these accesses is a violation, and a violation is recorded. -/
theorem accessViolations : Obligations.AccessViolations := by
  intro s m v hs hp
  refine ⟨fun a r n hn ha hd hr => ⟨fun hm => ?_, fun hm hstand => ?_⟩, fun a hm hn ha hd => ?_,
    fun off hm ha hmap hreg hwin htbl hpba => ?_⟩
  · exact ⟨_, exec_unlistedRead hs m a v, Hw.busRead_unlisted hp hn ha hd hr hm⟩
  · exact ⟨_, exec_unlistedWrite hs m a v, Hw.busWrite_unlisted v hp hn ha hd hr hm hstand⟩
  · refine ⟨⟨_, exec_unlistedRead hs m a v, ?_⟩, ⟨_, exec_unlistedWrite hs m a v, ?_⟩⟩
    · rw [Hw.busRead_word .clean hp hn, show (m : Nat) = idBdie from hm, Hw.readMap_bdie ha hd]
      exact Hw.Recorded.of_read s.hw a (by decide)
    · rw [Hw.busWrite_word v hp hn, show (m : Nat) = idBdie from hm, Hw.writeMap_bdie v ha hd]
      exact Hw.Recorded.of_write s.hw a (by decide)
  · rw [show (m : Nat) = idHost from hm] at hp ⊢
    have hx : s.hw.Nowhere off := ⟨hmap, hreg, hwin, htbl, hpba⟩
    refine ⟨⟨_, exec_bar0Read hs off v, ?_⟩, ⟨_, exec_bar0Write hs off v, ?_⟩⟩
    · rw [Hw.busRead_word .clean hp Hw.memPlace_host, Hw.readMap_nowhere ha hx]
      exact Hw.Recorded.of_read s.hw off (by decide)
    · rw [Hw.busWrite_word v hp Hw.memPlace_host, Hw.writeMap_nowhere v ha hx]
      exact Hw.Recorded.of_write s.hw off (by decide)

end Sys2Proof.Machine
end

section
/-! PROOF. What the commands of the cross links, the peer link, the clocks and the DRAM controller leave unchanged. -/

namespace Sys2Proof.Machine

/-! ### Frames by words -/

theorem Hw.OnlyWords.setB (h : Hw) (f : Fld) (n : Nat) (b : Bool) {ws : List (Reg × Nat)} (hm : (f.reg, n) ∈ ws) :
    h.OnlyWords (h.setB f n b) ws := Hw.OnlyWords.set h f n _ hm

theorem Hw.ddrEvt_onlyWords (h : Hw) (flag ien : Fld) {ws : List (Reg × Nat)} (hm : (flag.reg, 0) ∈ ws) :
    h.OnlyWords (h.ddrEvt flag ien) ws :=
  (Hw.OnlyWords.setB h flag 0 true hm).trans (Hw.OnlyWords.when (f := (·.raise 126)) (Hw.OnlyWords.raise _ 126 ws))

theorem Hw.clkEvt_onlyWords (h : Hw) (flag ien : Fld) (always : Bool) {ws : List (Reg × Nat)} (hm : (flag.reg, 0) ∈ ws) :
    h.OnlyWords (h.clkEvt flag ien always) ws :=
  (Hw.OnlyWords.setB h flag 0 true hm).trans (Hw.OnlyWords.when (f := (·.raise 127)) (Hw.OnlyWords.raise _ 127 ws))

theorem Hw.mirrorTimeout_onlyWords (h : Hw) : h.OnlyWords h.mirrorTimeout [(.XLK_STAT, 0), (.XLK_ERR, 0)] :=
  (Hw.OnlyWords.setB h F.XLK_STAT_MIRROR_VALID 0 false (by decide)).trans (Hw.OnlyWords.setB _ F.XLK_ERR_BSTAT_LATE 0 true (by decide))

theorem Hw.trainingLoss_onlyWords (h : Hw) (d : Bool) : h.OnlyWords (h.trainingLoss d) [(.XLK_STAT, 0), (.XLK_ERR, 0)] := by
  unfold Hw.trainingLoss
  split
  · exact (Hw.OnlyWords.setB h F.XLK_STAT_XLKD_UP 0 false (by decide)).trans (Hw.OnlyWords.setB _ F.XLK_ERR_XLKD_DOWN 0 true (by decide))
  · exact (Hw.OnlyWords.setB h F.XLK_STAT_XLKC_UP 0 false (by decide)).trans (Hw.OnlyWords.setB _ F.XLK_ERR_XLKC_DOWN 0 true (by decide))

/-- A link whose version has been checked is up again, and no more than that (R24, R45). -/
theorem Hw.retrainDone_checked {h : Hw} {d : Bool} (ver : Nat) (hc : (if d then h.b.verD else h.b.verC).isSome = true) :
    h.retrainDone d ver = h.when h.b.runs fun h => if d then h.setB F.XLK_STAT_XLKD_UP 0 true else h.xlkcTrained := by
  have hb : (if d then h.setB F.XLK_STAT_XLKD_UP 0 true else h.xlkcTrained).b = h.b := by split <;> rfl
  unfold Hw.retrainDone
  cases h.b.runs
  · rfl
  · simp only [Hw.when_true, Hw.checkVersion, hb]
    rw [if_pos hc]

theorem Hw.retrainDone_onlyWords {h : Hw} {d : Bool} (ver : Nat) (hc : (if d then h.b.verD else h.b.verC).isSome = true) :
    h.OnlyWords (h.retrainDone d ver) [(.XLK_STAT, 0), (.GLB_ID, 0)] := by
  rw [Hw.retrainDone_checked ver hc]
  refine Hw.OnlyWords.when ?_
  split
  · exact Hw.OnlyWords.setB h F.XLK_STAT_XLKD_UP 0 true (by decide)
  · exact (Hw.OnlyWords.setB h F.XLK_STAT_XLKC_UP 0 true (by decide)).trans (Hw.OnlyWords.set _ F.GLB_ID_BSTEP 0 _ (by decide))

theorem Hw.refrateChange_onlyWords (h : Hw) (code : Nat) :
    h.OnlyWords (h.refrateChange code) [(.DDR_STAT, 0), (.DDR_EVT, 0)] := by
  unfold Hw.refrateChange
  split
  · exact Hw.OnlyWords.refl h _
  · exact (Hw.OnlyWords.set h F.DDR_STAT_REFRATE 0 code (by decide)).trans (Hw.ddrEvt_onlyWords _ _ _ (by decide))

theorem Hw.pllDdrLoss_onlyWords (h : Hw) : h.OnlyWords h.pllDdrLoss [(.CLK_STAT, 0), (.CLK_EVT, 0)] :=
  (Hw.OnlyWords.setB h F.CLK_STAT_DDR_LOCK 0 false (by decide)).trans (Hw.clkEvt_onlyWords _ _ _ _ (by decide))

theorem Hw.vsysWarn_onlyWords (h : Hw) (mv : Nat) :
    h.OnlyWords (h.vsysWarn false mv) [(.CLK_STAT, 0), (.CLK_VMON, 0), (.CLK_EVT, 0)] :=
  ((Hw.OnlyWords.setB h F.CLK_STAT_VSYS_OK 0 false (by decide)).trans (Hw.OnlyWords.set _ F.CLK_VMON_VSYS 0 mv (by decide))).trans
    (Hw.clkEvt_onlyWords _ _ _ _ (by decide))

theorem Hw.egressCredit_onlyWords (h : Hw) (n k : Nat) : h.OnlyWords (h.egressCredit n k) [(.LANE_EG_STAT, n)] := by
  unfold Hw.egressCredit
  split
  · exact Hw.OnlyWords.set h F.LANE_EG_STAT_CREDITS n _ List.mem_cons_self
  · exact Hw.OnlyWords.refl h _

theorem Hw.qError_onlyWords (h : Hw) (q : Nat) (write : Bool) : h.OnlyWords (h.qError q write) [(.QUE_ERR, q), (.QUE_STAT, q)] := by
  have hr : (if write then F.QUE_ERR_WRITE else F.QUE_ERR_FETCH).reg = .QUE_ERR := by cases write <;> rfl
  unfold Hw.qError
  split
  · exact (Hw.OnlyWords.setB h _ q true (by rw [hr]; exact List.mem_cons_self)).trans
      (Hw.OnlyWords.set _ F.QUE_STAT_STATE q _ (by simp))
  · exact Hw.OnlyWords.refl h _

theorem Hw.cqDoorbell_onlyWords (h : Hw) (m q : Nat) (v : Word) :
    h.OnlyWords (h.doorbell m q false v) [(.QUE_ERR, q), (.QUE_CQPTR, q)] := by
  unfold Hw.doorbell
  split
  · simp only [Bool.false_eq_true, if_false, cqDoorbell]
    split
    · exact Hw.OnlyWords.setB h F.QUE_ERR_CQDB_RANGE q true (by simp)
    · exact Hw.OnlyWords.set h F.QUE_CQPTR_HEAD q _ (by simp)
  · exact Hw.OnlyWords.refl h _

/-! ### Memories and the bus -/

/-- DRAM, the masters' own memories, and what the last bus read returned. -/
def Hw.contents (h : Hw) : Store Byte × Store Byte × Nat × BusResp := (h.dram, h.priv, h.bus, h.resp)

theorem Hw.bus_of_contents {h u : Hw} (e : u.contents = h.contents) : u.bus = h.bus ∧ u.resp = h.resp :=
  ⟨congrArg (·.2.2.1) e, congrArg (·.2.2.2) e⟩

@[simp] theorem Hw.contents_putWord (h : Hw) (r : Reg) (n : Nat) (v : Word) : (h.putWord r n v).contents = h.contents := rfl
@[simp] theorem Hw.contents_set (h : Hw) (f : Fld) (n v : Nat) : (h.set f n v).contents = h.contents := rfl
@[simp] theorem Hw.contents_setB (h : Hw) (f : Fld) (n : Nat) (b : Bool) : (h.setB f n b).contents = h.contents := rfl
@[simp] theorem Hw.contents_setBit (h : Hw) (f : Fld) (n k : Nat) (b : Bool) : (h.setBit f n k b).contents = h.contents := rfl
@[simp] theorem Hw.contents_bump (h : Hw) (f : Fld) (n k : Nat) : (h.bump f n k).contents = h.contents := rfl
@[simp] theorem Hw.contents_updLane (h : Hw) (n : Nat) (f : Lane → Lane) : (h.updLane n f).contents = h.contents := rfl
@[simp] theorem Hw.contents_updFio (h : Hw) (f : Fio → Fio) : (h.updFio f).contents = h.contents := rfl
@[simp] theorem Hw.contents_updB (h : Hw) (f : BDie → BDie) : (h.updB f).contents = h.contents := rfl
@[simp] theorem Hw.contents_updBoot (h : Hw) (f : Boot → Boot) : (h.updBoot f).contents = h.contents := rfl
@[simp] theorem Hw.contents_updConn (h : Hw) (c : Chan) (p : Nat) (f : NpsConn → NpsConn) : (h.updConn c p f).contents = h.contents := rfl
@[simp] theorem Hw.contents_draw (h : Hw) : h.draw.contents = h.contents := rfl
@[simp] theorem Hw.contents_emit (h : Hw) (o : Output) : (h.emit o).contents = h.contents := rfl
@[simp] theorem Hw.contents_logBoot (h : Hw) (k : Nat) (bs : List Byte) : (h.logBoot k bs).contents = h.contents := rfl

@[simp] theorem Hw.contents_raise (h : Hw) (e : Nat) : (h.raise e).contents = h.contents := by simp [Hw.contents]
@[simp] theorem Hw.contents_sendA (h : Hw) (m : BtoA) : (h.sendA m).contents = h.contents := by simp [Hw.contents]
@[simp] theorem Hw.contents_sendB (h : Hw) (m : AtoB) : (h.sendB m).contents = h.contents := by simp [Hw.contents]
@[simp] theorem Hw.contents_emitLane (h : Hw) (o : Output) : (h.emitLane o).contents = h.contents := by simp [Hw.contents]

theorem Hw.contents_ite {c : Prop} [Decidable c] {h a b : Hw} (ha : a.contents = h.contents) (hb : b.contents = h.contents) :
    (if c then a else b).contents = h.contents := by split <;> assumption

theorem Hw.contents_when {c : Bool} {f : Hw → Hw} (hf : ∀ h, (f h).contents = h.contents) (h : Hw) : (h.when c f).contents = h.contents :=
  Hw.when_keeps Hw.contents hf h

theorem Hw.contents_forUpTo {n : Nat} {f : Nat → Hw → Hw} (hf : ∀ k h, (f k h).contents = h.contents) (h : Hw) :
    (h.forUpTo n f).contents = h.contents := Hw.forUpTo_keeps Hw.contents (fun k _ => hf k) h

theorem Hw.contents_forEach {α : Type} {l : List α} {f : α → Hw → Hw} (hf : ∀ x h, (f x h).contents = h.contents) (h : Hw) :
    (h.forEach l f).contents = h.contents := Hw.forEach_keeps Hw.contents (fun x _ => hf x) h

/-! ### The DRAM controller -/

@[simp] theorem Hw.contents_ddrEvt (h : Hw) (flag ien : Fld) : (h.ddrEvt flag ien).contents = h.contents :=
  Hw.contents_when (fun h => h.contents_raise 126) _

@[simp] theorem Hw.contents_ddrCe (h : Hw) (k : Nat) : (h.ddrCe k).contents = h.contents := by
  unfold Hw.ddrCe
  split
  · rfl
  · exact Hw.contents_ddrEvt _ _ _

@[simp] theorem Hw.contents_ledgerEvt (h : Hw) (k : Nat) : (h.ledgerEvt k).contents = h.contents :=
  Hw.contents_when (fun h => h.contents_raise 16) _

@[simp] theorem Hw.contents_ledgerUe (h : Hw) (off : Nat) : (h.ledgerUe off).contents = h.contents :=
  Hw.contents_when (fun h => h.contents_ledgerEvt levDram) _

@[simp] theorem Hw.contents_ddrUe (h : Hw) (off : Nat) (m : Option Nat) (scrub : Bool) : (h.ddrUe off m scrub).contents = h.contents := by
  unfold Hw.ddrUe
  dsimp only
  split <;> simp

theorem Hw.contents_patrolScrub (h : Hw) (ce : Nat) (ue : List Nat) : (h.patrolScrub ce ue).contents = h.contents := by
  unfold Hw.patrolScrub
  split
  · exact (Hw.contents_forEach (fun off h => h.contents_ddrUe off none true) _).trans (h.contents_ddrCe ce)
  · rfl

theorem Hw.contents_refrateChange (h : Hw) (code : Nat) : (h.refrateChange code).contents = h.contents := by
  unfold Hw.refrateChange
  split
  · rfl
  · exact Hw.contents_ddrEvt _ _ _

/-! ### SAFE_HOLD and what it switches off -/

@[simp] theorem Hw.contents_putDq (h : Hw) (n : Nat) (x : DqOut) : (h.putDq n x).contents = h.contents := rfl
@[simp] theorem Hw.contents_updSrc (h : Hw) (j : Nat) (f : TpSource → TpSource) : (h.updSrc j f).contents = h.contents := rfl
@[simp] theorem Hw.contents_cloOff (h : Hw) (n : Nat) : (h.cloOff n).contents = h.contents := rfl

@[simp] theorem Hw.contents_soSwitch (h : Hw) (c : Chan) (n : Nat) (on : Bool) : (h.soSwitch c n on).contents = h.contents := by
  unfold Hw.soSwitch
  dsimp only
  cases (h.so n).state
  case off | latched => rfl
  case on | shutting => exact Hw.contents_ite rfl rfl

theorem Hw.contents_showSo (h : Hw) (n : Nat) : (h.showSo n).contents = h.contents := rfl
theorem Hw.contents_showDq (h : Hw) (n : Nat) : (h.showDq n).contents = h.contents := rfl
theorem Hw.contents_showClo (h : Hw) (n : Nat) : (h.showClo n).contents = h.contents := rfl
theorem Hw.contents_showSup (h : Hw) (d : Nat) : (h.showSup d).contents = h.contents := rfl

theorem Hw.contents_showTp (h : Hw) (d : Nat) : (h.showTp d).contents = h.contents := by
  unfold Hw.showTp Hw.showSupp
  dsimp only
  rw [Hw.contents_setB, Hw.contents_setB, Hw.contents_forUpTo fun k h => h.contents_set _ _ _]

theorem Hw.contents_showDieNow (h : Hw) (d : Nat) : (h.showDieNow d).contents = h.contents := by
  unfold Hw.showDieNow
  dsimp only
  rw [Hw.contents_showTp, Hw.contents_showSup, Hw.contents_forUpTo fun k h => h.contents_setB _ _ _,
    Hw.contents_forUpTo fun k h => h.contents_showClo _,
    Hw.contents_forUpTo fun k h => (Hw.contents_showDq _ _).trans (h.contents_showSo _)]

theorem Hw.contents_showDie (h : Hw) (d : Nat) : (h.showDie d).contents = h.contents := by
  unfold Hw.showDie
  split
  · rfl
  · exact h.contents_showDieNow d

theorem Hw.contents_outputsOff (h : Hw) : h.outputsOff.contents = h.contents := by
  unfold Hw.outputsOff
  dsimp only
  rw [Hw.contents_showDie, Hw.contents_showDie, Hw.contents_forUpTo (fun j h => h.contents_updSrc j _),
    Hw.contents_forUpTo fun n h => Hw.contents_when (fun h => h.contents_cloOff n) h,
    Hw.contents_forUpTo fun n h => ?_, Hw.contents_updFio]
  rw [Hw.contents_when fun h => h.contents_putDq n _, Hw.contents_when fun h => h.contents_putDq n _]
  simp

theorem Hw.contents_npsStop (h : Hw) (c : Chan) : (h.npsStop c).contents = h.contents := by
  unfold Hw.npsStop
  exact Hw.contents_forUpTo (fun p h => Hw.contents_ite rfl (h.contents_updConn c p _)) h

theorem Hw.contents_bHold (h : Hw) : h.bHold.contents = h.contents := by
  unfold Hw.bHold
  dsimp only
  rw [Hw.contents_npsStop, Hw.contents_forUpTo fun n h => h.contents_soSwitch .b n false, Hw.contents_updFio, Hw.contents_updB]

theorem Hw.contents_setStage (h : Hw) (k : Nat) : (h.setStage k).contents = h.contents := rfl

theorem Hw.contents_safeHold (h : Hw) (cause : Nat) : (h.safeHold cause).contents = h.contents := by
  unfold Hw.safeHold
  refine Hw.contents_ite rfl ?_
  dsimp only
  rw [Hw.contents_when fun h => h.contents_logBoot 3 [], Hw.contents_raise, Hw.contents_updBoot, Hw.contents_bHold, Hw.contents_npsStop,
    Hw.contents_outputsOff, Hw.contents_setStage, Hw.contents_set, Hw.contents_set]

/-! ### Lanes that lose their block lock -/

theorem Hw.contents_laneFlags (h : Hw) (n : Nat) (flags : List Nat) : (h.laneFlags n flags).contents = h.contents := by
  unfold Hw.laneFlags
  dsimp only
  rw [Hw.contents_when fun h => h.contents_raise n, Hw.contents_forEach fun k h => h.contents_setBit _ n k true]

theorem Hw.contents_dropEgress (h : Hw) (n : Nat) : (h.dropEgress n).contents = h.contents := by
  unfold Hw.dropEgress
  rw [Hw.contents_updLane]
  refine Hw.contents_forEach (fun e h => ?_) h
  cases e.report
  · rfl
  · exact h.contents_sendB _

theorem Hw.contents_discardInFlight (h : Hw) (n : Nat) : (h.discardInFlight n).contents = h.contents := by
  unfold Hw.discardInFlight Hw.noteLate Hw.reportDiscards
  dsimp only
  rw [Hw.contents_updLane, Hw.contents_updLane]
  exact Hw.contents_forEach (fun s h => Hw.contents_when (fun h => h.contents_sendB _) h) h

theorem Hw.contents_sendBlock (h : Hw) (n : Nat) (d : Dir) (kind : Nat) (c : List Nat) : (h.sendBlock n d kind c).contents = h.contents :=
  h.contents_emitLane _

theorem Hw.contents_onLaneEntry (h : Hw) (n : Nat) (d : Dir) (old new : Nat) : (h.onLaneEntry n d old new).contents = h.contents := by
  unfold Hw.onLaneEntry
  dsimp only
  rw [Hw.contents_when fun h => h.contents_sendBlock _ _ _ _,
    Hw.contents_when fun h => (Hw.contents_sendBlock _ _ _ _ _).trans (h.contents_updLane _ _),
    Hw.contents_when fun h => (Hw.contents_set _ _ _ _).trans (h.contents_dropEgress n), Hw.contents_when fun h => h.contents_updLane _ _]

theorem Hw.contents_setLane (h : Hw) (n : Nat) (d : Dir) (new : Nat) : (h.setLane n d new).contents = h.contents := by
  have hentry (x : Hw) : x.contents = h.contents → (x.when (new == laneFault || x.on F.LANE_IEN_STATE_CHG n) (·.raise n)).contents = h.contents :=
    (Hw.contents_when (fun h => h.contents_raise n) x).trans
  unfold Hw.setLane
  dsimp only
  refine Hw.contents_ite rfl (Hw.contents_ite ?_ ?_)
  · exact (Hw.contents_discardInFlight _ n).trans (hentry _ (Hw.contents_onLaneEntry _ _ _ _ _))
  · exact (Hw.contents_when (fun h => h.contents_discardInFlight n) _).trans (hentry _ (Hw.contents_onLaneEntry _ _ _ _ _))

theorem Hw.contents_lockLost (h : Hw) (n : Nat) (d : Dir) : (h.lockLost n d).contents = h.contents := by
  unfold Hw.lockLost
  dsimp only
  refine Hw.contents_ite ?_ rfl
  rw [Hw.contents_setLane]
  cases d
  · exact Hw.contents_laneFlags _ n _
  · rfl

/-! ### Clocks, supplies and temperatures -/

theorem Hw.contents_clkEvt (h : Hw) (flag ien : Fld) (always : Bool) : (h.clkEvt flag ien always).contents = h.contents :=
  Hw.contents_when (fun h => h.contents_raise 127) _

theorem Hw.contents_refclkLoss (h : Hw) (pll : Bool) : (h.refclkLoss pll).contents = h.contents := by
  unfold Hw.refclkLoss
  dsimp only
  rw [Hw.contents_safeHold]
  exact Hw.contents_ite (Hw.contents_clkEvt _ _ _ _) (Hw.contents_clkEvt _ _ _ _)

theorem Hw.contents_xbLoss (h : Hw) (pll : Bool) : (h.xbLoss pll).contents = h.contents :=
  (Hw.contents_updB _ _).trans h.contents_bHold

theorem Hw.contents_clockWindow (h : Hw) (a b : Nat) : (h.clockWindow a b).contents = h.contents := by
  unfold Hw.clockWindow
  refine Hw.contents_ite ?_ rfl
  dsimp only
  rw [Hw.contents_when fun h => h.contents_safeHold hcClock, Hw.contents_when fun h => (Hw.contents_raise _ 45).trans h.contents_bHold,
    Hw.contents_when fun h => h.contents_raise 45, Hw.contents_when fun h => h.contents_clkEvt _ _ _]
  rfl

theorem Hw.contents_clkGateWrite (v : Word) (h : Hw) : (clkGateWrite v h).contents = h.contents := by
  have hquads (x : Hw) (q : Nat) : (x.forUpTo 16 fun n h =>
      h.when (!nbit q (n / 4)) fun h => (h.lockLost n .ingress).lockLost n .egress).contents = x.contents :=
    Hw.contents_forUpTo (fun n h => Hw.contents_when
      (fun h => (Hw.contents_lockLost _ n .egress).trans (h.contents_lockLost n .ingress)) h) x
  unfold clkGateWrite
  dsimp only
  refine Hw.contents_ite ?_ ((Hw.contents_setB _ _ _ _).trans ?_)
  all_goals exact Hw.contents_ite rfl (hquads _ _)

theorem Hw.contents_vsysWarn (h : Hw) (sideB : Bool) (mv : Nat) : (h.vsysWarn sideB mv).contents = h.contents :=
  Hw.contents_ite (Hw.contents_clkEvt _ _ _ _) (Hw.contents_clkEvt _ _ _ _)

theorem Hw.contents_setTemp (h : Hw) (k : Nat) (t : Int) : (h.setTemp k t).contents = h.contents := rfl

theorem Hw.contents_thermalWarn (h : Hw) (k : Nat) (t : Int) : (h.thermalWarn k t).contents = h.contents :=
  Hw.contents_ite (Hw.contents_clkEvt _ _ _ _) rfl

theorem Hw.contents_thermalRearm (h : Hw) (ts : List Int) : (h.thermalRearm ts).contents = h.contents :=
  (Hw.contents_when (fun h => h.contents_updBoot _) _).trans
    (Hw.contents_forUpTo (n := 7) (f := fun k h => h.setTemp k (ts.getD k (h.temp k))) (fun k h => h.contents_setTemp k _) h)

end Sys2Proof.Machine
end

section
/-! PROOF. Bus accesses that take effect: registers, locks, RC fields, and DRAM with its errors (R11, R36, R42, R43, R47). -/

namespace Sys2Proof.Machine

/-! ### Registers -/

theorem Hw.word_putWord_ne (h : Hw) {r q : Reg} {n k : Nat} (v : Word) (hq : (q, k) ≠ (r, n)) :
    (h.putWord r n v).word q k = h.word q k := by
  by_cases hr : r = q
  · exact hr ▸ Hw.word_putWord_idx h r v fun hn => hq (by rw [hr, hn])
  · exact Hw.word_putWord_reg h n k v hr

/-- No field of MBX_STAT is read-clear. -/
theorem Reg.cleared_mbxStat (w : Word) : Reg.cleared .MBX_STAT w = w := rfl

/-- A read that a register's list allows returns the value, clears the RC fields where it may, and leaves every other word. -/
theorem Hw.readReg_allowed {h : Hw} {m n : Nat} {r : Reg} (hr : r ∉ [Reg.MBX_MSG, .MBX_SEND, .MBX_TAKE, .MBX_SEM])
    (hm : h.mayRead m r = true) :
    (h.readReg m r n).1 = h.readWord r n ∧
      (h.readClears m = true → (h.readReg m r n).2.word r n = r.cleared (h.word r n)) ∧
      ∀ q k, (q, k) ≠ (r, n) → (h.readReg m r n).2.word q k = h.word q k := by
  unfold Hw.readReg
  split
  case h_1 | h_2 | h_3 | h_5 => exact absurd (by decide) hr
  case h_4 =>
    rw [if_pos (by rw [Hw.mayReadStat, hm]; rfl)]
    exact ⟨rfl, fun _ => (Reg.cleared_mbxStat _).symm, fun _ _ _ => rfl⟩
  case h_6 =>
    rw [if_pos hm]
    refine ⟨rfl, fun hc => ?_, fun q k hq => ?_⟩
    · rw [hc]; exact Hw.word_putWord_same _ _ _ _
    · cases h.readClears m
      · rfl
      · exact Hw.word_putWord_ne h _ hq

theorem Hw.readClears_of {h : Hw} {m : Nat} (hm : m < 10) (hc : h.bitOf F.GLB_NOCLR_NOCLR 0 m = false) (hs : h.isStandby m = false) :
    h.readClears m = true := by simp [Hw.readClears, hm, hc, hs]

/-- The registers with a lock bit whose write is no more than that of their fields. -/
def lockRegs : List Reg := [.TMR_BIND, .CRC_BIND, .SEC_BIND, .NPS_GCTL, .LANE_CFG, .SFN_CFG, .CLI_CFG]

/-- A granted write of such a register is a write of its fields under the lock as it stands before (R11, R503). -/
theorem Hw.writeAccess_lock {h : Hw} {m n : Nat} {r : Reg} (nv : NonVol) (v : Word) (hg : h.granted m r n = true) (hr : r ∈ lockRegs) :
    h.writeAccess nv m r n v = h.writeFields r n (h.lockOf r n) v := by
  have hbox : ∀ q ∈ lockRegs, q ∉ [Reg.MBX_MSG, .MBX_SEND, .MBX_TAKE, .MBX_STAT] := by decide
  rw [Hw.writeAccess_granted nv v hg (hbox r hr)]
  simp only [lockRegs, List.mem_cons, List.not_mem_nil, or_false] at hr
  rcases hr with rfl | rfl | rfl | rfl | rfl | rfl | rfl <;> rfl

/-! ### DRAM -/

theorem bytesLE_length (k v : Nat) : (bytesLE k v).length = k := by
  induction k generalizing v with
  | zero => rfl
  | succ k ih => simp [bytesLE, ih]

/-- What lies in DRAM lies below its size. -/
theorem Hw.memPlace_dram {h : Hw} {m a size off : Nat} (hn : h.memPlace m a size = some (.dram off)) :
    ((6 ≤ m ∧ m < 10) ∨ m = idDma) ∧ off + size ≤ dramSize := by
  unfold Hw.memPlace at hn
  split at hn
  · exact absurd hn (by simp)
  · split at hn
    case isTrue hc =>
      obtain ⟨hm, hlo, hhi⟩ := hc
      rw [Option.some.injEq, MemPlace.dram.injEq] at hn
      exact ⟨hm, by omega⟩
    case isFalse => exact absurd hn (by simp)

theorem Hw.busWrite_dram {h : Hw} {m a size off : Nat} (nv : NonVol) (v : Nat) (hp : h.present m = true)
    (hn : h.memPlace m a size = some (.dram off)) : h.busWrite nv m a size v = h.putDram off (bytesLE size v) := by
  rw [Hw.busWrite, if_neg (by simp [hp]), hn]
  rfl

theorem Hw.busRead_dram {h : Hw} {m a size off : Nat} (hit : DdrHit) (hp : h.present m = true)
    (hn : h.memPlace m a size = some (.dram off)) : h.busRead m a size hit = h.dramRead m off size hit := by
  rw [Hw.busRead, if_neg (by simp [hp]), hn]

/-! ### DRAM errors (R47) -/

/-- An event flag of the DRAM controller is set when its event occurs. -/
theorem Hw.ddrEvt_on (h : Hw) {flag : Fld} (ien : Fld) (hf : flag.lo + flag.w ≤ 32) (hw : 0 < flag.w) (h1 : flag.reg ≠ .EVT_PEND)
    (h2 : flag.reg ≠ .EVT_MERGECNT) : (h.ddrEvt flag ien).on flag 0 = true := by
  have hset := h.on_setB_same flag 0 true hf hw
  exact (Hw.when_keeps (·.on flag 0) (fun x => by simp only [Hw.on, Hw.get_raise _ _ _ h1 h2]) (h.setB flag 0 true)).trans hset

theorem Hw.word_ddrEvt (h : Hw) {flag : Fld} (ien : Fld) {r : Reg} (n : Nat) (h0 : r ≠ flag.reg) (h1 : r ≠ .EVT_PEND)
    (h2 : r ≠ .EVT_MERGECNT) : (h.ddrEvt flag ien).word r n = h.word r n :=
  (Hw.when_keeps (·.word r n) (fun x => x.word_raise 126 n h1 h2) (h.setB flag 0 true)).trans (Hw.word_set_reg _ _ _ _ (Ne.symm h0))

theorem Hw.get_ddrEvt (h : Hw) {flag : Fld} (ien : Fld) {f : Fld} (n : Nat) (h0 : f.reg ≠ flag.reg) (h1 : f.reg ≠ .EVT_PEND)
    (h2 : f.reg ≠ .EVT_MERGECNT) : (h.ddrEvt flag ien).get f n = h.get f n := Hw.get_of_word (h.word_ddrEvt ien n h0 h1 h2)

/-- What an uncorrectable error does to the ledger writes LDG_EVT and no other register. -/
theorem Hw.word_ledgerUe (h : Hw) (off : Nat) {r : Reg} (n : Nat) (h0 : r ≠ .LDG_EVT) (h1 : r ≠ .EVT_PEND) (h2 : r ≠ .EVT_MERGECNT) :
    (h.ledgerUe off).word r n = h.word r n := by
  refine Hw.when_keeps (·.word r n) (fun x => ?_) (h.updEntries _)
  exact (Hw.when_keeps (·.word r n) (fun y => y.word_raise 16 n h1 h2) (x.setBit _ _ _ _)).trans (Hw.word_set_reg _ _ _ _ (Ne.symm h0))

theorem Hw.get_ledgerUe (h : Hw) (off : Nat) {f : Fld} (n : Nat) (h0 : f.reg ≠ .LDG_EVT) (h1 : f.reg ≠ .EVT_PEND)
    (h2 : f.reg ≠ .EVT_MERGECNT) : (h.ledgerUe off).get f n = h.get f n := Hw.get_of_word (h.word_ledgerUe off n h0 h1 h2)

/-- A corrected error is counted. -/
theorem Hw.ddrCe_counted (h : Hw) {k : Nat} (hk : k ≠ 0) :
    (h.ddrCe k).on F.DDR_EVT_CE 0 = true ∧
      (h.ddrCe k).get F.DDR_CECNT_COUNT 0 = min (h.get F.DDR_CECNT_COUNT 0 + k) (2 ^ 32 - 1) := by
  rw [Hw.ddrCe, if_neg hk]
  exact ⟨Hw.ddrEvt_on _ _ (by decide) (by decide) (by decide) (by decide),
    (Hw.get_ddrEvt _ _ _ (by decide) (by decide) (by decide)).trans (Hw.get_bump_same _ _ _ _ (by decide))⟩

/-- The registers of the record of an uncorrectable error that master `m` met at `off`. -/
def Hw.ueRecord (h : Hw) (off m : Nat) : Hw :=
  (((h.bump F.DDR_UECNT_COUNT 0 1).set F.DDR_UEADDR_LO_VALUE 0 (off % 2 ^ 32 / 8 * 8)).set F.DDR_UEADDR_HI_VALUE 0
    (off / 2 ^ 32 % 8)).set F.DDR_UEMST_VALUE 0 m

theorem Hw.ddrUe_master (h : Hw) (off m : Nat) :
    h.ddrUe off (some m) false = ((h.ueRecord off m).ddrEvt F.DDR_EVT_UE F.DDR_IEN_UE).ledgerUe off := rfl

/-- What the record holds stands after the event and the ledger have taken note. -/
theorem Hw.get_ddrUe (h : Hw) (off m : Nat) {f : Fld} (n : Nat) (hf : f.reg ∉ [Reg.DDR_EVT, .LDG_EVT, .EVT_PEND, .EVT_MERGECNT]) :
    (h.ddrUe off (some m) false).get f n = (h.ueRecord off m).get f n := by
  simp only [List.mem_cons, List.not_mem_nil, or_false, not_or] at hf
  obtain ⟨h0, h1, h2, h3⟩ := hf
  rw [Hw.ddrUe_master, Hw.get_ledgerUe _ _ _ h1 h2 h3, Hw.get_ddrEvt _ _ _ h0 h2 h3]

/-- An uncorrectable error is counted, and recorded with its address and the reader. -/
theorem Hw.ddrUe_recorded (h : Hw) {off m : Nat} (ho : off ≤ dramSize) (hm : m < 32) :
    let u := h.ddrUe off (some m) false
    u.on F.DDR_EVT_UE 0 = true ∧ u.get F.DDR_UECNT_COUNT 0 = min (h.get F.DDR_UECNT_COUNT 0 + 1) (2 ^ 32 - 1) ∧
      u.get F.DDR_UEADDR_LO_VALUE 0 + 2 ^ 32 * u.get F.DDR_UEADDR_HI_VALUE 0 = off / 8 * 8 ∧ u.get F.DDR_UEMST_VALUE 0 = m := by
  refine ⟨?_, ?_, ?_, ?_⟩
  · rw [Hw.ddrUe_master, Hw.on, Hw.get_ledgerUe _ _ _ (by decide) (by decide) (by decide)]
    exact Hw.ddrEvt_on _ _ (by decide) (by decide) (by decide) (by decide)
  · rw [Hw.get_ddrUe _ _ _ _ (by decide), Hw.ueRecord, Hw.get_set_reg _ _ _ _ (by decide), Hw.get_set_reg _ _ _ _ (by decide),
      Hw.get_set_reg _ _ _ _ (by decide)]
    exact Hw.get_bump_same _ _ _ _ (by decide)
  · rw [Hw.get_ddrUe _ _ _ _ (by decide), Hw.get_ddrUe _ _ _ _ (by decide), Hw.ueRecord, Hw.get_set_reg _ _ _ _ (by decide),
      Hw.get_set_reg _ _ _ _ (by decide), Hw.get_set_same _ _ _ _ (by decide), Hw.get_set_reg _ _ _ _ (by decide),
      Hw.get_set_same _ _ _ _ (by decide)]
    change off % 2 ^ 32 / 8 * 8 % 2 ^ 32 + 2 ^ 32 * (off / 2 ^ 32 % 8 % 2 ^ 32) = off / 8 * 8
    simp only [dramSize] at ho
    omega
  · rw [Hw.get_ddrUe _ _ _ _ (by decide), Hw.ueRecord, Hw.get_set_same _ _ _ _ (by decide)]
    exact Nat.mod_eq_of_lt (Nat.lt_trans hm (by decide))

/-! ### The statement -/

/-- Settles O15: a word access is the register's own access, and one in DRAM is a write or read of its bytes. -/
theorem busAccesses : Obligations.BusAccesses := by
  intro s m hs hp
  refine ⟨fun a r n v hn ha hd => ⟨decodeReg_addr hd, ?_, ?_, fun hg hr => ?_, fun hr hm hsvc hc hst => ?_⟩,
    fun a size v _ _ hn => ?_, fun a size _ _ hn => ⟨?_, ?_, ?_⟩, fun a size off hm hn => ?_⟩
  · rw [exec_registerWrite hs, Hw.busWrite_word v hp hn, Hw.writeMap_register v ha hd, Hw.regWrite, if_pos hp]
  · rw [exec_registerWrite hs]
    exact exec_lockBitSet hs m a v
  · have hlock : r ∈ lockRegs := by simpa [lockRegs] using hr
    refine ⟨_, exec_lockBitSet hs m a v, ?_⟩
    rw [Hw.busWrite_word v hp hn, Hw.writeMap_register v ha hd, Hw.writeAccess_lock _ v hg hlock]
    exact ⟨Hw.word_putWord_same _ _ _ _, Hw.OnlyWords.putWord _ r n _ List.mem_cons_self⟩
  · refine ⟨_, exec_rcFieldRead hs m a 4 .clean, ?_⟩
    obtain ⟨hval, hclr, hoth⟩ := Hw.readReg_allowed (n := n) hr hm
    rw [Hw.busRead_word .clean hp hn, Hw.readMap_register ha hd]
    exact ⟨congrArg BitVec.toNat hval, rfl, hclr (Hw.readClears_of hsvc hc hst), hoth⟩
  · refine ⟨_, exec_registerWrite hs m a size v, ?_⟩
    rw [Hw.busWrite_dram s.nv v hp hn]
    have hlen := bytesLE_length size v
    refine ⟨?_, rfl, fun b hb => Hw.dramByte_putDram_other s.hw (by rwa [hlen])⟩
    have := s.hw.dramBytes_putDram_same (a - dramBase) (bytesLE size v)
    rwa [hlen] at this
  · rw [exec_rcFieldRead hs, Hw.busRead_dram .clean hp hn]
    rfl
  · refine ⟨_, exec_rcFieldRead hs m a size .corrected, ?_⟩
    rw [Hw.busRead_dram .corrected hp hn]
    obtain ⟨hbus, hresp⟩ :=
      Hw.bus_of_contents ((s.hw.answer (ofBytesLE (s.hw.dramBytes (a - dramBase) size))).contents_ddrCe 1)
    exact ⟨hbus, hresp, Hw.ddrCe_counted _ (by decide)⟩
  · refine ⟨_, exec_rcFieldRead hs m a size .uncorrectable, ?_⟩
    rw [Hw.busRead_dram .uncorrectable hp hn]
    obtain ⟨hbus, hresp⟩ := Hw.bus_of_contents (({ s.hw with resp := .error } : Hw).contents_ddrUe (a - dramBase) (some m) false)
    obtain ⟨-, hoff⟩ := Hw.memPlace_dram hn
    exact ⟨hbus, hresp, Hw.ddrUe_recorded _ (Nat.le_of_add_right_le hoff) m.isLt⟩
  · rcases (Hw.memPlace_dram hn).1 with h | h
    · omega
    · exact absurd (h ▸ hm) (by decide)

end Sys2Proof.Machine
end

section
/-! PROOF. Frames: the registers and memories that the commands of the cross links, the peer link and the clocks leave unchanged
(R44, R45, R47, R374, R379, R384, R412, R419, R426, R477 to R484). -/

namespace Sys2Proof.Machine

/-! ### The cross links -/

theorem Hw.contents_setBytes (h : Hw) (r : Reg) (n : Nat) (bs : List Byte) : (h.setBytes r n bs).contents = h.contents := by
  fun_induction Hw.setBytes h r n bs with
  | case1 h n b0 b1 b2 b3 bs ih => exact ih.trans (h.contents_putWord _ _ _)
  | case2 => rfl

theorem Hw.contents_mirrorEngines (h : Hw) : h.mirrorEngines.contents = h.contents := by
  unfold Hw.mirrorEngines
  dsimp only
  rw [Hw.contents_forUpTo fun w h => h.contents_set _ _ _, Hw.contents_set, Hw.contents_forUpTo fun w h => h.contents_set _ _ _,
    Hw.contents_set, Hw.contents_forUpTo fun w h => h.contents_set _ _ _]
  rfl

theorem Hw.contents_mirrorField (h : Hw) : h.mirrorField.contents = h.contents := by
  unfold Hw.mirrorField
  dsimp only
  rw [Hw.contents_set, Hw.contents_set, Hw.contents_set,
    Hw.contents_forUpTo fun n h => (Hw.contents_set _ _ _ _).trans (h.contents_set _ _ _), Hw.contents_setB, Hw.contents_setB,
    Hw.contents_set, Hw.contents_set, Hw.contents_set, Hw.contents_set, Hw.contents_forUpTo fun w h => h.contents_set _ _ _,
    Hw.contents_forUpTo fun w h => h.contents_set _ _ _]

theorem Hw.contents_mirrorState (h : Hw) : h.mirrorState.contents = h.contents := by
  unfold Hw.mirrorState
  simp only [Hw.contents_set, Hw.contents_setB, Hw.contents_setBytes]

theorem Hw.contents_statusFrame (h : Hw) : h.statusFrame.contents = h.contents := by
  refine Hw.contents_when (fun h => Hw.contents_ite ?_ (h.contents_setB _ _ _)) h
  rw [Hw.contents_setB, Hw.contents_mirrorEngines, Hw.contents_mirrorField, Hw.contents_mirrorState]

theorem Hw.contents_lateLost (h : Hw) (n e seg seq : Nat) : (h.lateLost n e seg seq).contents = h.contents :=
  Hw.contents_when (fun h => h.contents_updLane n _) h

theorem Hw.contents_frameLost (h : Hw) (f : XlkFrame) : (h.frameLost f).contents = h.contents := h.contents_lateLost _ _ _ _

theorem Hw.contents_messageLost (h : Hw) (m : BtoA) : (h.messageLost m).contents = h.contents := by cases m <;> rfl

theorem Hw.contents_blockReceived (h : Hw) (l : XlkLink) (fails : Nat) : (h.blockReceived l fails).contents = h.contents := by
  have retry (cnt flag : Fld) (k : Nat) : ((h.bump cnt 0 k).when (k != 0) (·.setB flag 0 true)).contents = h.contents :=
    Hw.contents_when (fun h => h.contents_setB _ _ _) _
  unfold Hw.blockReceived
  cases l
  case d =>
    dsimp only
    split
    · refine (Hw.contents_when (fun h => ?_) _).trans (retry _ _ _)
      exact (Hw.contents_frameLost _ _).trans rfl
    · exact retry _ _ _
  case cToB =>
    refine (Hw.contents_when (fun h => ?_) _).trans (retry _ _ _)
    rfl
  case cToA =>
    dsimp only
    split
    · refine (Hw.contents_when (fun h => ?_) _).trans (retry _ _ _)
      exact (Hw.contents_messageLost _ _).trans rfl
    · exact retry _ _ _
  case cOther => exact (Hw.contents_when (fun h => h.contents_setB _ _ _) _).trans (retry _ _ _)

theorem Hw.contents_checkVersion (h : Hw) (d : Bool) (ver : Nat) : (h.checkVersion d ver).contents = h.contents := by
  unfold Hw.checkVersion
  exact Hw.contents_ite rfl (Hw.contents_ite rfl ((Hw.contents_safeHold _ _).trans rfl))

theorem Hw.contents_retrainDone (h : Hw) (d : Bool) (ver : Nat) : (h.retrainDone d ver).contents = h.contents := by
  refine Hw.contents_when (fun h => ?_) h
  exact (Hw.contents_checkVersion _ _ _).trans (Hw.contents_ite rfl rfl)

theorem Hw.contents_mirrorTimeout (h : Hw) : h.mirrorTimeout.contents = h.contents :=
  (Hw.contents_setB _ _ _ _).trans (h.contents_setB _ _ _)

theorem Hw.contents_trainingLoss (h : Hw) (d : Bool) : (h.trainingLoss d).contents = h.contents :=
  Hw.contents_ite ((Hw.contents_setB _ _ _ _).trans (h.contents_setB _ _ _)) ((Hw.contents_setB _ _ _ _).trans (h.contents_setB _ _ _))

theorem Hw.contents_xlkcSilence (h : Hw) : h.xlkcSilence.contents = h.contents := Hw.contents_when (fun h => h.contents_safeHold _) h

/-! ### The peer link -/

theorem Hw.contents_npsConnecting (h : Hw) (c : Chan) (p : Nat) : (h.npsConnecting c p).contents = h.contents := by cases c <;> rfl

theorem Hw.contents_npsBoundary (h : Hw) (p : Nat) : (h.npsBoundary p).contents = h.contents := by
  unfold Hw.npsBoundary
  dsimp only
  split
  · rfl
  · exact (Hw.contents_updConn _ _ _ _).trans (h.contents_sendA _)

theorem Hw.contents_npsSend (h : Hw) (p : Nat) (late : Bool) : (h.npsSend p late).contents = h.contents := by
  unfold Hw.npsSend
  split
  · rfl
  · refine Hw.contents_ite rfl ?_
    dsimp only
    rw [Hw.contents_updConn, Hw.contents_set, Hw.contents_forUpTo fun k h => Hw.contents_when (fun h => h.contents_emit _) h]
    rfl

theorem Hw.contents_npsForward (h : Hw) (bs : List Byte) : (h.npsForward bs).contents = h.contents := by
  unfold Hw.npsForward
  split
  · rfl
  · exact h.contents_sendB _

theorem Hw.contents_npsDiscard (h : Hw) (p : Nat) (j : NpsJudged) : (h.npsDiscard p j).contents = h.contents := by
  have flag (c : Bool) (f : Fld) (x : Hw) : (x.when c (·.setB f p true)).contents = x.contents :=
    Hw.contents_when (fun h => h.contents_setB f p true) x
  unfold Hw.npsDiscard
  dsimp only
  refine Hw.contents_ite ((Hw.contents_when (fun h => h.contents_bump _ _ _) _).trans ?_) ((Hw.contents_bump _ _ _ _).trans ?_)
  all_goals rw [flag, flag, flag, flag, flag]

theorem Hw.contents_npsAccept (h : Hw) (c : Chan) (p : Nat) (j : NpsJudged) (seq : Nat) : (h.npsAccept c p j seq).contents = h.contents :=
  Hw.contents_when (fun h => h.contents_bump _ _ _) h

theorem Hw.contents_npsTake (h : Hw) (c : Chan) (p : Nat) (pay : List Byte) {f : Hw → Hw} (hf : ∀ h, (f h).contents = h.contents) :
    (h.npsTake c p pay f).contents = h.contents :=
  Hw.contents_ite (Hw.contents_when (fun h => h.contents_npsDiscard p _) h)
    (Hw.contents_ite ((hf _).trans (h.contents_npsAccept c p _ _)) (Hw.contents_when (fun h => h.contents_npsDiscard p _) h))

/-- A frame that a channel judges is taken from the wire or from the messages to the B-die. -/
theorem Hw.contents_npsNext {h u : Hw} {c : Chan} {kind : Nat} {bs pay : List Byte} (hn : h.npsNext c kind bs = some (pay, u)) :
    u.contents = h.contents := by
  cases c
  case a =>
    simp only [Hw.npsNext] at hn
    split at hn
    · cases hn
    · split at hn
      · cases hn; rfl
      · cases hn
  case b =>
    obtain ⟨r, -, he⟩ := Option.map_eq_some_iff.1 hn
    cases he
    rfl

theorem Hw.contents_npsReceive (h : Hw) (c : Chan) (p kind : Nat) (bs : List Byte) {f : List Byte → Hw → Hw}
    (hf : ∀ pay h, (f pay h).contents = h.contents) : (h.npsReceive c p kind bs f).contents = h.contents := by
  unfold Hw.npsReceive
  split
  · rfl
  next pay u hn =>
    exact (Hw.contents_npsTake _ _ _ _ fun h => Hw.contents_when (hf pay) h).trans (Hw.contents_npsNext hn)

theorem Hw.contents_npsConn (h : Hw) (c : Chan) (p : Nat) (bs : List Byte) : (h.npsConn c p bs).contents = h.contents := by
  unfold Hw.npsConn
  split
  · rfl
  next pay u hn =>
    rw [← Hw.contents_npsNext hn]
    refine Hw.contents_ite (Hw.contents_npsTake _ _ _ _ fun _ => rfl) (Hw.contents_ite (Hw.contents_when (fun h => h.contents_setB _ _ _) u) ?_)
    exact Hw.contents_npsTake _ _ _ _ fun h =>
      (Hw.contents_updConn _ _ _ _).trans (Hw.contents_when (fun h => h.contents_npsConnecting c p) h)

theorem Hw.contents_npsConnack (h : Hw) (c : Chan) (p : Nat) (bs : List Byte) : (h.npsConnack c p bs).contents = h.contents :=
  h.contents_npsReceive c p _ bs fun _ _ => Hw.contents_ite rfl rfl

theorem Hw.contents_showAge (h : Hw) (p : Nat) (age : Option Nat) : (h.showAge p age).contents = h.contents :=
  Hw.contents_when (fun h => h.contents_draw) h

theorem Hw.contents_wdRestart (h : Hw) (c : Chan) (p : Nat) : (h.wdRestart c p).contents = h.contents :=
  Hw.contents_when (fun h => h.contents_updConn c p _) h

theorem Hw.contents_npsData (h : Hw) (c : Chan) (p : Nat) (bs : List Byte) : (h.npsData c p bs).contents = h.contents := by
  refine h.contents_npsReceive c p _ bs fun pay h => ?_
  dsimp only
  refine Hw.contents_ite (Hw.contents_ite ((Hw.contents_wdRestart _ _ _).trans ?_)
    ((Hw.contents_when (fun h => h.contents_setB _ _ _) _).trans ?_)) ((Hw.contents_wdRestart _ _ _).trans (h.contents_updConn c p _))
  all_goals exact (Hw.contents_when (fun h => h.contents_showAge p _) _).trans (h.contents_updConn c p _)

theorem Hw.contents_npsClose (h : Hw) (c : Chan) (p : Nat) (bs : List Byte) : (h.npsClose c p bs).contents = h.contents :=
  h.contents_npsReceive c p _ bs fun _ h => Hw.contents_when (fun h => h.contents_npsConnecting c p) h

theorem Hw.contents_npsWatchdog (h : Hw) (c : Chan) (p : Nat) : (h.npsWatchdog c p).contents = h.contents :=
  Hw.contents_ite ((Hw.contents_when (fun h => h.contents_setB _ _ _) _).trans (h.contents_npsConnecting c p)) rfl

/-! ### A write of CLK_GATE -/

@[simp] theorem Hw.contents_tmrSettle (h : Hw) : h.tmrSettle.contents = h.contents :=
  Hw.IgnoresTimers.tmrSettle ⟨fun _ _ _ _ _ => rfl, fun _ _ _ => rfl, Hw.contents_raise, fun _ _ => rfl⟩ h

theorem Hw.contents_violation (h : Hw) (m a : Nat) (w : Bool) : (h.violation m a w).contents = h.contents := Hw.contents_ite rfl rfl

theorem Hw.contents_writeClkGate (h : Hw) (nv : NonVol) (m : Nat) (v : Word) : (h.regWrite nv m .CLK_GATE 0 v).contents = h.contents := by
  unfold Hw.regWrite Hw.writeAccess
  refine Hw.contents_ite (Eq.trans ?_ h.contents_tmrSettle) rfl
  exact Hw.contents_ite rfl (Hw.contents_ite (Hw.contents_violation _ _ _ _) (Hw.contents_ite (Hw.contents_violation _ _ _ _)
    (Hw.contents_ite (Hw.contents_violation _ _ _ _) (Hw.contents_clkGateWrite v _))))

/-! ### Commands that keep the memories -/

section Commands

variable {s t : State}

theorem State.apply_keeps {f : Hw → Hw} (hf : ∀ h, (f h).contents = h.contents) (h : s.apply f = .next t) :
    t.hw.contents = s.hw.contents ∧ t.pending = s.pending := by
  rw [State.apply, Host.Outcome.next.injEq] at h
  subst h
  split
  · exact ⟨rfl, rfl⟩
  · exact ⟨hf _, rfl⟩

theorem State.applyBus_keeps {f : Hw → NonVol → Hw} (hf : ∀ h nv, (f h nv).contents = h.contents) (h : s.applyBus f = .next t) :
    t.hw.contents = s.hw.contents ∧ t.pending = s.pending :=
  State.apply_keeps (f := (f · s.nv)) (fun x => hf x s.nv) h

theorem State.applyHold_keeps {f : Hw → NonVol → Hw} (hf : ∀ h nv, (f h nv).contents = h.contents) (h : s.applyHold f = .next t) :
    t.hw.contents = s.hw.contents ∧ t.pending = s.pending := by
  rw [State.applyHold, Host.Outcome.next.injEq] at h
  subst h
  split
  · exact ⟨rfl, rfl⟩
  · exact ⟨hf _ _, rfl⟩

theorem State.always_keeps {f : Hw → Hw} (hf : ∀ h, (f h).contents = h.contents) (h : s.always f = .next t) :
    t.hw.contents = s.hw.contents ∧ t.pending = s.pending := by
  rw [State.always, Host.Outcome.next.injEq] at h
  subst h
  exact ⟨hf _, rfl⟩

/-- Equal contents are equal memories. -/
theorem Hw.memories_of_contents {p q : List Instr} (h : t.hw.contents = s.hw.contents ∧ p = q) :
    t.hw.dram = s.hw.dram ∧ t.hw.priv = s.hw.priv ∧ p = q :=
  ⟨congrArg Prod.fst h.1, congrArg (·.2.1) h.1, h.2⟩

end Commands

/-- Settles O10: each command's frame is that of the field writes and events it is made of. -/
theorem frames : Obligations.Frames := by
  refine ⟨fun s hs => ⟨fun e => ?_, ?_, fun d => ?_, fun d ver hc => ?_, fun code => ?_, ?_, ?_, fun mv => ?_, fun n k => ?_,
    fun q w => ?_, fun m q v => ?_⟩, ?_⟩
  · exact ⟨_, State.apply_awake hs (·.raise e), Hw.OnlyWords.raise _ _ _⟩
  · exact ⟨_, State.apply_awake hs (·.mirrorTimeout), Hw.mirrorTimeout_onlyWords _⟩
  · exact ⟨_, State.apply_awake hs (·.trainingLoss d), Hw.trainingLoss_onlyWords _ d⟩
  · have hf := Hw.retrainDone_onlyWords ver hc
    exact ⟨_, State.applyHold_awake hs (fun h _ => h.retrainDone d ver) fun hd he => hd (by
      rw [← he]; exact (hf.get (f := F.GLB_STATE_STATE) (n := 0) (by decide) (by decide) (by decide)).symm), hf⟩
  · exact ⟨_, State.apply_awake hs (·.refrateChange code), Hw.refrateChange_onlyWords _ code⟩
  · exact ⟨_, State.apply_awake hs (·.pllDdrLoss), Hw.pllDdrLoss_onlyWords _⟩
  · exact ⟨_, State.apply_awake hs (·.pllDdrRelock), Hw.OnlyWords.setB _ F.CLK_STAT_DDR_LOCK 0 true (by decide)⟩
  · exact ⟨_, State.apply_awake hs (·.vsysWarn false mv), Hw.vsysWarn_onlyWords _ mv⟩
  · exact ⟨_, State.apply_awake hs (·.egressCredit n k), Hw.egressCredit_onlyWords _ n k⟩
  · exact ⟨_, State.apply_awake hs (·.qError q w), Hw.qError_onlyWords _ q w⟩
  · exact ⟨_, State.applyBus_awake hs (fun h _ => h.doorbell m q false v), Hw.cqDoorbell_onlyWords _ m q v⟩
  · intro s t ch p bs b a k l m v mv sensor temp temps code ue
    suffices hk : ∀ c ∈ _, exec c s = .next t → t.hw.contents = s.hw.contents ∧ t.pending = s.pending from
      fun c hc he => Hw.memories_of_contents (hk c hc he)
    simp only [List.forall_mem_cons]
    exact ⟨State.apply_keeps (f := (·.npsBoundary p)) (·.contents_npsBoundary p),
      State.apply_keeps (f := (·.npsSend p b)) (·.contents_npsSend p b),
      State.apply_keeps (f := (·.npsForward bs)) (·.contents_npsForward bs),
      State.apply_keeps (f := (·.npsConn ch p bs)) (·.contents_npsConn ch p bs),
      State.apply_keeps (f := (·.npsConnack ch p bs)) (·.contents_npsConnack ch p bs),
      State.apply_keeps (f := (·.npsData ch p bs)) (·.contents_npsData ch p bs),
      State.apply_keeps (f := (·.npsClose ch p bs)) (·.contents_npsClose ch p bs),
      State.apply_keeps (f := (·.npsWatchdog ch p)) (·.contents_npsWatchdog ch p),
      State.applyHold_keeps (f := fun h _ => h.refclkLoss b) fun h _ => h.contents_refclkLoss b,
      State.apply_keeps (f := (·.pllDdrLoss)) fun h => Hw.contents_clkEvt _ _ _ _,
      State.apply_keeps (f := (·.pllDdrRelock)) fun h => h.contents_setB _ _ _,
      State.always_keeps (f := (·.xbLoss b)) (·.contents_xbLoss b),
      State.applyHold_keeps (f := fun h _ => h.clockWindow a k) fun h _ => h.contents_clockWindow a k,
      State.applyBus_keeps (f := fun h nv => h.regWrite nv m .CLK_GATE 0 v) fun h nv => h.contents_writeClkGate nv m v,
      State.apply_keeps (f := (·.vsysWarn b mv)) (·.contents_vsysWarn b mv),
      State.apply_keeps (f := (·.thermalWarn sensor temp)) (·.contents_thermalWarn sensor temp),
      State.apply_keeps (f := (·.thermalRearm temps)) (·.contents_thermalRearm temps),
      State.apply_keeps (f := (·.statusFrame)) (·.contents_statusFrame),
      State.apply_keeps (f := (·.mirrorTimeout)) (·.contents_mirrorTimeout),
      State.apply_keeps (f := (·.blockReceived l a)) (·.contents_blockReceived l a),
      State.apply_keeps (f := (·.trainingLoss b)) (·.contents_trainingLoss b),
      State.applyHold_keeps (f := fun h _ => h.retrainDone b a) fun h _ => h.contents_retrainDone b a,
      State.apply_keeps (f := (·.xlkcSilence)) (·.contents_xlkcSilence),
      State.apply_keeps (f := (·.patrolScrub k ue)) (·.contents_patrolScrub k ue),
      State.apply_keeps (f := (·.refrateChange code)) (·.contents_refrateChange code),
      fun c hc => absurd hc List.not_mem_nil⟩

end Sys2Proof.Machine
end

section
/-! PROOF. XLKC_SILENCE in SAFE_HOLD (R467, R482). -/

namespace Sys2Proof.Machine

/-- A module in SAFE_HOLD whose start has trained DRAM and waits for its configuration. A hold ends such a start (`Boot.afterHold`),
so that this is no state of an ordinary run; the statement ranges over every state. -/
def heldInDram : State :=
  State.reset.withHw { Hw.fresh.set F.GLB_STATE_STATE 0 devSafeHold with boot := { phase := .dram } }

theorem heldInDram_dev : heldInDram.hw.dev = devSafeHold := by decide +kernel

/-- A device in SAFE_HOLD keeps its cause, but a cause that keeps firmware from starting ends the start (R467). -/
theorem Hw.xlkcSilence_held {h : Hw} (hd : h.dev = devSafeHold) :
    h.xlkcSilence = h.updBoot fun b => { b with phase := b.afterHold hcBdieStart } := by
  rw [Hw.xlkcSilence, hd]
  exact if_pos hd

/-- Refutes O16: a device in SAFE_HOLD does not always ignore the silence of XLK_C. Where its start stands past firmware's own, as in
`heldInDram`, the hold cause BDIE_START ends the start: the phase goes from `dram` to `ended`. -/
theorem not_crossLinks : ¬ Obligations.CrossLinks := by
  intro h
  obtain ⟨-, hlinks, -⟩ := h
  obtain ⟨-, -, -, -, hsilence, -⟩ := hlinks heldInDram rfl
  have hexec : exec .xlkcSilence heldInDram = .next (heldInDram.withHw heldInDram.hw.xlkcSilence) :=
    State.apply_awake rfl (·.xlkcSilence)
  have hsame := Host.Outcome.next.inj (hexec.symm.trans (hsilence (.inr heldInDram_dev)))
  have hphase : heldInDram.hw.xlkcSilence.boot.phase = heldInDram.hw.boot.phase := congrArg (·.hw.boot.phase) hsame
  rw [Hw.xlkcSilence_held heldInDram_dev] at hphase
  exact absurd hphase (by decide)

end Sys2Proof.Machine
end

section
/-! PROOF. Fields and states of a slice lane: what writes and changes of state leave in them (R78, R79). -/

namespace Sys2Proof.Machine

/-! ### Fields that lie apart -/

/-- Two fields share no bit. -/
abbrev Fld.Apart (f g : Fld) : Prop := f.reg ≠ g.reg ∨ f.lo + f.w ≤ g.lo ∨ g.lo + g.w ≤ f.lo

theorem Hw.get_set_apart (h : Hw) {f g : Fld} (n m v : Nat) (hd : f.Apart g) : (h.set f n v).get g m = h.get g m :=
  hd.elim (Hw.get_set_reg h n m v) (Hw.get_set_field h n m v)

theorem Hw.get_setB_apart (h : Hw) {f g : Fld} (n m : Nat) (b : Bool) (hd : f.Apart g) : (h.setB f n b).get g m = h.get g m :=
  Hw.get_set_apart h n m _ hd

theorem Hw.on_of_get {h u : Hw} {f : Fld} {n : Nat} (e : u.get f n = h.get f n) : u.on f n = h.on f n := by
  rw [Hw.on, e]; rfl

/-! ### Lane states -/

/-- A field that lies apart from the states of both directions. -/
abbrev Fld.SparesState (f : Fld) : Prop := f.reg ≠ .LANE_STAT ∨ 7 ≤ f.lo

theorem Fld.SparesState.apart {f : Fld} (hf : f.SparesState) (d : Dir) : f.Apart (stateFld d) := by
  rcases hf with hr | hlo
  · exact .inl (by cases d <;> exact hr)
  · have : (stateFld d).lo + (stateFld d).w ≤ 7 := by cases d <;> decide
    exact .inr (.inr (by omega))

theorem lockFld_spares (d : Dir) : (lockFld d).SparesState := by cases d <;> decide

@[simp] theorem Hw.get_sendBlock (h : Hw) (n : Nat) (d : Dir) (kind : Nat) (c : List Nat) (f : Fld) (k : Nat) :
    (h.sendBlock n d kind c).get f k = h.get f k := Hw.get_emitLane _ _ _ _

section States

variable (h : Hw) (n k : Nat) (d : Dir)

theorem Hw.laneState_set {f : Fld} (v : Nat) (hf : f.SparesState) : (h.set f k v).laneState n d = h.laneState n d :=
  Hw.get_set_apart h k n v (hf.apart d)

theorem Hw.laneState_setB {f : Fld} (b : Bool) (hf : f.SparesState) : (h.setB f k b).laneState n d = h.laneState n d :=
  Hw.laneState_set h n k d _ hf

@[simp] theorem Hw.laneState_updLane (f : Lane → Lane) : (h.updLane k f).laneState n d = h.laneState n d := rfl

@[simp] theorem Hw.laneState_sendBlock (e : Dir) (kind : Nat) (c : List Nat) :
    (h.sendBlock k e kind c).laneState n d = h.laneState n d := Hw.get_sendBlock _ _ _ _ _ _ _

@[simp] theorem Hw.laneState_raise (e : Nat) : (h.raise e).laneState n d = h.laneState n d :=
  Hw.get_raise h e n (by cases d <;> decide) (by cases d <;> decide)

@[simp] theorem Hw.laneState_dropEgress : (h.dropEgress k).laneState n d = h.laneState n d :=
  Hw.get_of_word (Hw.word_dropEgress h k n (by cases d <;> decide))

theorem Hw.laneState_of_word {u : Hw} (e : u.word .LANE_STAT n = h.word .LANE_STAT n) : u.laneState n d = h.laneState n d :=
  Hw.get_of_word (by cases d <;> exact e)

/-- A direction put into a state is in it, and the other keeps its own (R79). -/
theorem Hw.laneState_setLane {new : Nat} (hn : new < 8) (e : Dir) :
    (h.setLane n d new).laneState n e = if e = d then new else h.laneState n e := by
  split
  next he => rw [he, Hw.setLane_state h n d new hn]
  next he => exact Hw.setLane_other h n new he

end States

/-! ### Fields that a change of state keeps -/

/-- A field that a change of lane state does not write: not the states themselves, the credits of egress, or what events and reports
write. -/
abbrev Fld.KeptBySetLane (f : Fld) : Prop :=
  f.reg ∉ [Reg.XLK_ERR, .EVT_PEND, .EVT_MERGECNT] ∧ f.SparesState ∧ (f.reg ≠ .LANE_EG_STAT ∨ f.lo + f.w ≤ 8)

theorem Hw.get_setLane_kept (h : Hw) (n k : Nat) (d : Dir) (new : Nat) {f : Fld} (hf : f.KeptBySetLane) :
    (h.setLane n d new).get f k = h.get f k := by
  obtain ⟨hev, hs, hc⟩ := hf
  simp only [List.mem_cons, List.not_mem_nil, or_false, not_or] at hev
  obtain ⟨hx, hp, hm⟩ := hev
  have hcred : F.LANE_EG_STAT_CREDITS.Apart f := hc.elim (fun hr => .inl (Ne.symm hr)) fun hlo => .inr (.inr hlo)
  have hst : (stateFld d).Apart f := (hs.apart d).elim (fun hr => .inl (Ne.symm hr)) fun ho => .inr ho.symm
  have hentry (x : Hw) (old : Nat) : (x.onLaneEntry n d old new).get f k = x.get f k := by
    simp only [Hw.onLaneEntry]
    rw [Hw.when_keeps (·.get f k) (fun x => x.get_sendBlock n d _ _ f k),
      Hw.when_keeps (·.get f k) (fun x => (Hw.get_sendBlock _ n d _ _ f k).trans (Hw.get_updLane x n _ f k)),
      Hw.when_keeps (·.get f k) fun x => (Hw.get_set_apart _ n k 0 hcred).trans (Hw.get_of_word (Hw.word_dropEgress x n k hx)),
      Hw.when_keeps (·.get f k) fun x => Hw.get_updLane x n _ f k]
  simp only [Hw.setLane]
  split
  · rfl
  · rw [Hw.get_of_word (Hw.word_laneLeft _ n _ _ k hx), Hw.when_keeps (·.get f k) fun x => Hw.get_raise x n k hp hm, hentry,
      Hw.get_set_apart _ _ _ _ hst]

theorem Hw.on_setLane_kept (h : Hw) (n k : Nat) (d : Dir) (new : Nat) {f : Fld} (hf : f.KeptBySetLane) :
    (h.setLane n d new).on f k = h.on f k := Hw.on_of_get (h.get_setLane_kept n k d new hf)

/-! ### The record of a lane -/

section Records

variable (h : Hw) (n : Nat)

@[simp] theorem Hw.lane_updLane (f : Lane → Lane) : (h.updLane n f).lane n = f (h.lane n) := Store.get_upd_same _ _ _

@[simp] theorem Hw.lane_set (f : Fld) (k v : Nat) : (h.set f k v).lane n = h.lane n := rfl

@[simp] theorem Hw.lane_sendBlock (k : Nat) (d : Dir) (kind : Nat) (c : List Nat) : (h.sendBlock k d kind c).lane n = h.lane n := by
  rw [Hw.lane, Hw.sendBlock, Hw.emitLane_lanes]; rfl

@[simp] theorem Lane.training_setTraining (l : Lane) (d : Dir) (t : Training) : (l.setTraining d t).training d = t := by
  cases d <;> rfl

end Records

/-! ### Both directions in FAULT -/

/-- A fault of a lane that is not in FAULT puts both directions there with its cause (R79). -/
theorem Hw.laneFaultEntry_fault {h : Hw} {n : Nat} {d : Dir} (hd : h.laneState n d ≠ laneFault) {cause : Nat} (hc : cause < 16) :
    (h.laneFaultEntry n cause).get F.LANE_STAT_FCAUSE n = cause ∧ ∀ e, (h.laneFaultEntry n cause).laneState n e = laneFault := by
  have hnot : ¬(h.laneState n .ingress = laneFault ∧ h.laneState n .egress = laneFault) := fun ⟨hi, he⟩ =>
    hd (by cases d <;> assumption)
  rw [Hw.laneFaultEntry, if_neg hnot]
  constructor
  · rw [Hw.get_setLane_kept _ _ _ _ _ (by decide), Hw.get_setLane_kept _ _ _ _ _ (by decide),
      Hw.get_setB_apart _ _ _ _ (by decide), Hw.get_set_same _ _ _ _ (by decide)]
    exact Nat.mod_eq_of_lt hc
  · intro e
    rw [Hw.laneState_setLane _ _ _ (by decide), Hw.laneState_setLane _ _ _ (by decide)]
    cases e <;> rfl

end Sys2Proof.Machine
end

section
/-! PROOF. Writes of LANE_CTL against the lane state table (R79, R81, R82), and frames that a lane ignores (R511). -/

namespace Sys2Proof.Machine

/-- Settles O19: only a live ingress direction looks at a frame. -/
theorem laneIgnoresFrames : Obligations.LaneIgnoresFrames := by
  intro s n bytes early hs hst
  have hdead : laneLive (s.hw.laneState n .ingress) = false := by rcases hst with h | h | h <;> rw [h] <;> rfl
  have hsame : s.hw.ingressFrame n bytes early = s.hw := by
    rw [Hw.ingressFrame]
    exact if_pos (by simp [hdead])
  exact (State.apply_awake hs (·.ingressFrame n bytes early)).trans (by rw [hsame]; rfl)

/-! ### The lane state table for EN and LRST -/

/-- The state that a direction in `st` takes when `en` is written to EN (R79). -/
def laneAfterEn (en : Bool) (st : Nat) : Nat :=
  if en then if st = laneOff then laneTraining else st
  else if st = laneOff ∨ st = laneFault then laneOff else laneShutting

/-- The state that a direction in `st` takes by LRST (R82). -/
def laneAfterLrst (st : Nat) : Nat := if st = laneOff then laneOff else laneShutting

/-- The state that a direction in `st` takes by a write of LANE_CTL: EN first, LRST after it. -/
def laneAfterCtl (v st : Nat) : Nat :=
  if nbit v 1 then laneAfterLrst (laneAfterEn (nbit v 0) st) else laneAfterEn (nbit v 0) st

theorem laneAfterEn_lt {en : Bool} {st : Nat} (hst : st < 8) : laneAfterEn en st < 8 := by
  unfold laneAfterEn laneOff laneTraining laneShutting
  split <;> split <;> omega

theorem laneAfterLrst_lt (st : Nat) : laneAfterLrst st < 8 := by unfold laneAfterLrst; split <;> decide

theorem Hw.laneState_lt (h : Hw) (n : Nat) (d : Dir) : h.laneState n d < 8 := by cases d <;> exact BitVec.isLt _

/-- A direction put into the state that it is in changes nothing. -/
theorem Hw.setLane_same {h : Hw} {n : Nat} {d : Dir} {st : Nat} (hst : h.laneState n d = st) : h.setLane n d st = h := if_pos hst

section Directions

variable (h : Hw) (n : Nat) (d : Dir)

theorem Hw.laneEnDir_eq :
    h.laneEnDir n d = (h.setLane n d (laneAfterEn true (h.laneState n d))).when (h.laneState n d == laneShutting)
      (·.setB F.LANE_STAT_PEND n true) := by
  unfold Hw.laneEnDir laneAfterEn
  by_cases hoff : h.laneState n d = laneOff
  · rw [if_pos hoff, if_pos rfl, if_pos hoff, hoff]; rfl
  · rw [if_neg hoff, if_pos rfl, if_neg hoff, Hw.setLane_same rfl]
    by_cases hsh : h.laneState n d = laneShutting
    · rw [if_pos hsh, hsh]; rfl
    · rw [if_neg hsh, beq_false_of_ne hsh]; rfl

theorem Hw.laneDisDir_eq : h.laneDisDir n d = h.setLane n d (laneAfterEn false (h.laneState n d)) := by
  unfold Hw.laneDisDir laneAfterEn
  by_cases hf : h.laneState n d = laneFault
  · rw [if_pos hf, hf]; rfl
  · by_cases hstay : h.laneState n d = laneOff ∨ h.laneState n d = laneShutting
    · rw [if_neg hf, if_pos hstay]
      rcases hstay with hst | hst <;> (rw [hst]; exact (Hw.setLane_same hst).symm)
    · have hnot : ¬(h.laneState n d = laneOff ∨ h.laneState n d = laneFault) := fun hc => hc.elim (fun ho => hstay (.inl ho)) hf
      rw [if_neg hf, if_neg hstay, if_neg Bool.false_ne_true, if_neg hnot]

theorem Hw.laneResetDir_eq : h.laneResetDir n d = h.setLane n d (laneAfterLrst (h.laneState n d)) := by
  unfold Hw.laneResetDir laneAfterLrst
  by_cases hstay : h.laneState n d = laneOff ∨ h.laneState n d = laneShutting
  · rw [if_pos hstay]
    rcases hstay with hst | hst <;> (rw [hst]; exact (Hw.setLane_same hst).symm)
  · rw [if_neg hstay, if_neg fun ho => hstay (.inl ho)]

theorem Hw.laneState_laneEnDir (e : Dir) :
    (h.laneEnDir n d).laneState n e = if e = d then laneAfterEn true (h.laneState n d) else h.laneState n e := by
  rw [Hw.laneEnDir_eq, Hw.when_keeps (·.laneState n e) (fun x => x.laneState_setB n n e true (by decide)),
    Hw.laneState_setLane _ _ _ (laneAfterEn_lt (h.laneState_lt n d))]

theorem Hw.laneState_laneDisDir (e : Dir) :
    (h.laneDisDir n d).laneState n e = if e = d then laneAfterEn false (h.laneState n d) else h.laneState n e := by
  rw [Hw.laneDisDir_eq, Hw.laneState_setLane _ _ _ (laneAfterEn_lt (h.laneState_lt n d))]

theorem Hw.laneState_laneResetDir (e : Dir) :
    (h.laneResetDir n d).laneState n e = if e = d then laneAfterLrst (h.laneState n d) else h.laneState n e := by
  rw [Hw.laneResetDir_eq, Hw.laneState_setLane _ _ _ (laneAfterLrst_lt _)]

end Directions

/-- What takes one direction by a table and leaves the other, applied to both, takes both by the table. -/
theorem Hw.laneState_bothDirs {n : Nat} {t : Nat → Nat} {f : Dir → Hw → Hw}
    (hf : ∀ (h : Hw) (d e : Dir), (f d h).laneState n e = if e = d then t (h.laneState n d) else h.laneState n e) (h : Hw) (d : Dir) :
    (f .egress (f .ingress h)).laneState n d = t (h.laneState n d) := by
  rw [hf, hf, hf]
  cases d <;> rfl

/-! ### EN and LRST on the lane -/

section Writes

variable (h : Hw) (n : Nat)

theorem Hw.laneState_laneEnable (d : Dir) : (h.laneEnable n).laneState n d = laneAfterEn true (h.laneState n d) := by
  unfold Hw.laneEnable
  rw [Hw.laneState_bothDirs (f := fun d x => x.laneEnDir n d) (fun x d e => x.laneState_laneEnDir n d e),
    Hw.when_keeps (·.laneState n d) (fun x => x.laneState_set n n d 0 (by decide))]

theorem Hw.laneState_laneDisable (d : Dir) : (h.laneDisable n).laneState n d = laneAfterEn false (h.laneState n d) := by
  unfold Hw.laneDisable
  rw [Hw.laneState_bothDirs (f := fun d x => x.laneDisDir n d) (fun x d e => x.laneState_laneDisDir n d e),
    Hw.laneState_setB _ _ _ _ _ (by decide)]

/-- A word after the registers of a list are put to their reset words. -/
theorem Hw.word_resetRegs (l : List Reg) (r : Reg) :
    (h.forEach l fun r h => h.putWord r n r.resetWord).word r n = if r ∈ l then r.resetWord else h.word r n := by
  unfold Hw.forEach
  induction l generalizing h with
  | nil => rfl
  | cons q l ih =>
    rw [List.foldl_cons, ih]
    by_cases hl : r ∈ l
    · rw [if_pos hl, if_pos (List.mem_cons_of_mem _ hl)]
    · by_cases hq : r = q
      · subst hq
        rw [if_neg hl, if_pos List.mem_cons_self, Hw.word_putWord_same]
      · rw [if_neg hl, if_neg (by simp [hq, hl]), Hw.word_putWord_reg _ _ _ _ (Ne.symm hq)]

/-- The flags and counters that LRST clears (R82). -/
def laneCleared : List Reg :=
  [.LANE_ERR, .LANE_ERRCNT, .LANE_HOLDCNT, .LANE_OVRCNT, .LANE_FRMCNT, .LANE_EG_SEGCNT, .LANE_EG_BLKCNT, .LANE_EG_ERR, .REL_RELCNT]

theorem Hw.word_laneClear {r : Reg} (hr : r ≠ .LANE_STAT) :
    (h.laneClear n).word r n = if r ∈ laneCleared then r.resetWord else h.word r n := by
  rw [Hw.laneClear, Hw.word_updLane, Hw.word_set_reg _ _ _ _ (Ne.symm hr), Hw.word_resetRegs]
  rfl

theorem Hw.get_laneClear {f : Fld} (hf : F.LANE_STAT_FCAUSE.Apart f) (hr : f.reg ∉ laneCleared) :
    (h.laneClear n).get f n = h.get f n := by
  rw [Hw.laneClear, Hw.get_updLane, Hw.get_set_apart _ _ _ _ hf]
  exact Hw.get_of_word ((Hw.word_resetRegs h n _ _).trans (if_neg hr))

theorem Hw.fcause_laneClear : (h.laneClear n).get F.LANE_STAT_FCAUSE n = 0 := by
  rw [Hw.laneClear, Hw.get_updLane, Hw.get_set_same _ _ _ _ (by decide)]
  rfl

theorem Hw.laneState_laneReset (d : Dir) : (h.laneReset n).laneState n d = laneAfterLrst (h.laneState n d) := by
  unfold Hw.laneReset
  refine (Hw.get_laneClear _ n (by cases d <;> decide) (by cases d <;> decide)).trans ?_
  refine (Hw.laneState_bothDirs (f := fun d x => x.laneResetDir n d) (fun x d e => x.laneState_laneResetDir n d e) _ d).trans ?_
  rw [Hw.laneState_setB _ _ _ _ _ (by decide)]

/-! ### The pending enable and EN (R81) -/

theorem Hw.pend_laneEnDir (d : Dir) :
    (h.laneEnDir n d).on F.LANE_STAT_PEND n = (h.laneState n d == laneShutting || h.on F.LANE_STAT_PEND n) := by
  rw [Hw.laneEnDir_eq]
  cases h.laneState n d == laneShutting
  · exact Hw.on_setLane_kept _ _ _ _ _ (by decide)
  · exact Hw.on_setB_same _ _ _ _ (by decide) (by decide)

theorem Hw.pend_laneEnable {d : Dir} (hd : h.laneState n d = laneShutting) : (h.laneEnable n).on F.LANE_STAT_PEND n = true := by
  have hfc (x : Hw) (c : Bool) (e : Dir) : (x.when c (·.set F.LANE_STAT_FCAUSE n 0)).laneState n e = x.laneState n e :=
    Hw.when_keeps (·.laneState n e) (fun x => x.laneState_set n n e 0 (by decide)) x
  unfold Hw.laneEnable
  rw [Hw.pend_laneEnDir, Hw.pend_laneEnDir, Hw.laneState_laneEnDir, hfc, hfc]
  cases d <;> simp [hd]

theorem Hw.pend_laneDisable : (h.laneDisable n).on F.LANE_STAT_PEND n = false := by
  rw [Hw.laneDisable, Hw.laneDisDir_eq, Hw.laneDisDir_eq, Hw.on_setLane_kept _ _ _ _ _ (by decide),
    Hw.on_setLane_kept _ _ _ _ _ (by decide), Hw.on_setB_same _ _ _ _ (by decide) (by decide)]

theorem Hw.pend_laneReset : (h.laneReset n).on F.LANE_STAT_PEND n = false := by
  rw [Hw.laneReset, Hw.laneResetDir_eq, Hw.laneResetDir_eq, Hw.on_of_get (Hw.get_laneClear _ n (by decide) (by decide)),
    Hw.on_setLane_kept _ _ _ _ _ (by decide), Hw.on_setLane_kept _ _ _ _ _ (by decide),
    Hw.on_setB_same _ _ _ _ (by decide) (by decide)]

theorem Hw.en_laneEnable : (h.laneEnable n).on F.LANE_CTL_EN n = h.on F.LANE_CTL_EN n := by
  have hdir (x : Hw) (d : Dir) : (x.laneEnDir n d).on F.LANE_CTL_EN n = x.on F.LANE_CTL_EN n := by
    rw [Hw.laneEnDir_eq, Hw.when_keeps (·.on F.LANE_CTL_EN n) (fun x => Hw.on_of_get (x.get_setB_apart n n true (by decide))),
      Hw.on_setLane_kept _ _ _ _ _ (by decide)]
  unfold Hw.laneEnable
  rw [hdir, hdir, Hw.when_keeps (·.on F.LANE_CTL_EN n) (fun x => Hw.on_of_get (x.get_set_apart n n 0 (by decide)))]

theorem Hw.en_laneDisable : (h.laneDisable n).on F.LANE_CTL_EN n = h.on F.LANE_CTL_EN n := by
  rw [Hw.laneDisable, Hw.laneDisDir_eq, Hw.laneDisDir_eq, Hw.on_setLane_kept _ _ _ _ _ (by decide),
    Hw.on_setLane_kept _ _ _ _ _ (by decide), Hw.on_of_get (Hw.get_setB_apart _ _ _ _ (by decide))]

end Writes

/-! ### A write of LANE_CTL -/

/-- What a write of LANE_CTL does first: it writes EN and acts on it. -/
def Hw.laneWriteEn (h : Hw) (n : Nat) (en : Bool) : Hw :=
  if en then (h.setB F.LANE_CTL_EN n en).laneEnable n else (h.setB F.LANE_CTL_EN n en).laneDisable n

/-- EN first, then LRST, then CFGLK. -/
theorem laneCtlWrite_eq (h : Hw) (n v : Nat) :
    laneCtlWrite n v h =
      ((h.laneWriteEn n (nbit v 0)).when (nbit v 1) (·.laneReset n)).when (nbit v 2) (·.setB F.LANE_CTL_CFGLK n true) := by
  rw [Hw.laneWriteEn]; rfl

theorem Hw.word_lockCtl (h : Hw) (n k : Nat) (b : Bool) {r : Reg} (hr : r ≠ .LANE_CTL) :
    (h.when b (·.setB F.LANE_CTL_CFGLK n true)).word r k = h.word r k :=
  Hw.when_keeps (·.word r k) (fun x => x.word_set_reg n k _ (Ne.symm hr)) h

section CtlWrite

variable (h : Hw) (n : Nat)

theorem Hw.laneState_laneWriteEn (en : Bool) (d : Dir) : (h.laneWriteEn n en).laneState n d = laneAfterEn en (h.laneState n d) := by
  have hset (b : Bool) : (h.setB F.LANE_CTL_EN n b).laneState n d = h.laneState n d := h.laneState_setB n n d b (by decide)
  cases en
  · exact (Hw.laneState_laneDisable _ n d).trans (by rw [hset])
  · exact (Hw.laneState_laneEnable _ n d).trans (by rw [hset])

theorem Hw.en_laneWriteEn (en : Bool) : (h.laneWriteEn n en).on F.LANE_CTL_EN n = en := by
  have hset (b : Bool) : (h.setB F.LANE_CTL_EN n b).on F.LANE_CTL_EN n = b := h.on_setB_same _ n b (by decide) (by decide)
  cases en
  · exact (Hw.en_laneDisable _ n).trans (hset false)
  · exact (Hw.en_laneEnable _ n).trans (hset true)

theorem laneState_laneCtlWrite (v : Nat) (d : Dir) : (laneCtlWrite n v h).laneState n d = laneAfterCtl v (h.laneState n d) := by
  rw [laneCtlWrite_eq, Hw.laneState_of_word _ n d (Hw.word_lockCtl _ n n _ (by decide)), laneAfterCtl]
  cases nbit v 1
  · exact h.laneState_laneWriteEn n _ d
  · exact (Hw.laneState_laneReset _ n d).trans (by rw [h.laneState_laneWriteEn]; rfl)

theorem laneCtlWrite_noReset {v : Nat} (hv : nbit v 1 = false) :
    laneCtlWrite n v h = (h.laneWriteEn n (nbit v 0)).when (nbit v 2) (·.setB F.LANE_CTL_CFGLK n true) := by
  rw [laneCtlWrite_eq, hv]; rfl

theorem en_laneCtlWrite {v : Nat} (hv : nbit v 1 = false) : (laneCtlWrite n v h).on F.LANE_CTL_EN n = nbit v 0 := by
  rw [laneCtlWrite_noReset h n hv,
    Hw.when_keeps (·.on F.LANE_CTL_EN n) (fun x => Hw.on_of_get (x.get_setB_apart n n true (by decide))), Hw.en_laneWriteEn]

theorem pend_laneCtlWrite_enable {v : Nat} (h0 : nbit v 0 = true) (h1 : nbit v 1 = false) {d : Dir}
    (hd : h.laneState n d = laneShutting) : (laneCtlWrite n v h).on F.LANE_STAT_PEND n = true := by
  rw [laneCtlWrite_noReset h n h1, Hw.on_of_get (Hw.get_of_word (Hw.word_lockCtl _ n n _ (by decide))), h0]
  exact Hw.pend_laneEnable _ n ((h.laneState_setB n n d true (by decide)).trans hd)

theorem pend_laneCtlWrite_disable {v : Nat} (h0 : nbit v 0 = false) (h1 : nbit v 1 = false) :
    (laneCtlWrite n v h).on F.LANE_STAT_PEND n = false := by
  rw [laneCtlWrite_noReset h n h1, Hw.on_of_get (Hw.get_of_word (Hw.word_lockCtl _ n n _ (by decide))), h0]
  exact Hw.pend_laneDisable _ n

theorem laneCtlWrite_reset {v : Nat} (hv : nbit v 1 = true) :
    laneCtlWrite n v h = ((h.laneWriteEn n (nbit v 0)).laneReset n).when (nbit v 2) (·.setB F.LANE_CTL_CFGLK n true) := by
  rw [laneCtlWrite_eq, hv]; rfl

end CtlWrite

/-- A granted write of LANE_CTL acts on the lane. -/
theorem Hw.regWrite_laneCtl {h : Hw} {m n : Nat} (nv : NonVol) (v : Word) (hp : h.present m = true)
    (hg : h.tmrSettle.granted m .LANE_CTL n = true) : h.regWrite nv m .LANE_CTL n v = laneCtlWrite n v.toNat h.tmrSettle := by
  rw [Hw.regWrite_granted nv v hp hg (by decide)]; rfl

theorem nbit_toNat (v : Word) (k : Nat) : nbit v.toNat k = wbit v k := rfl

theorem wbit_or_one (v : Word) : wbit (v ||| 1) 0 = true ∧ wbit (v ||| 1) 1 = wbit v 1 := by simp [wbit]

theorem wbit_clear_zero (v : Word) : wbit (v &&& ~~~1) 0 = false ∧ wbit (v &&& ~~~1) 1 = wbit v 1 := by simp [wbit]

theorem wbit_or_two (v : Word) : wbit (v ||| 2) 1 = true ∧ wbit (v ||| 2) 0 = wbit v 0 := by simp [wbit]

/-- LRST after EN = 1 shuts every direction down; after EN = 0 it leaves those in OFF that EN has put there (log entry 20). -/
theorem laneAfterLrst_en (en : Bool) (st : Nat) :
    laneAfterLrst (laneAfterEn en st) =
      if en then laneShutting else if st = laneOff ∨ st = laneFault then laneOff else laneShutting := by
  cases en
  · simp only [laneAfterEn, Bool.false_eq_true, if_false]
    by_cases hst : st = laneOff ∨ st = laneFault
    · rw [if_pos hst]; rfl
    · rw [if_neg hst]; rfl
  · simp only [laneAfterEn, if_true]
    by_cases hst : st = laneOff
    · rw [if_pos hst]; rfl
    · rw [if_neg hst, laneAfterLrst, if_neg hst]

/-- Settles O17: a granted write acts on the lane, where each direction follows the table for EN and then the one for LRST. -/
theorem laneControlTable : Obligations.LaneControlTable := by
  intro s m n v hs hp hg h
  have write (w : Word) : s.applyBus (fun h nv => h.regWrite nv m .LANE_CTL n w) =
      .next (s.withHw (laneCtlWrite n w.toNat h)) := by
    rw [State.applyBus_awake hs, Hw.regWrite_laneCtl s.nv w hp hg]
  refine ⟨fun hv => ⟨_, write (v ||| 1), ?_⟩, fun hv => ⟨_, write (v &&& ~~~1), ?_⟩, ⟨_, write (v ||| 2), ?_⟩⟩
  · obtain ⟨h0, h1⟩ := wbit_or_one v
    rw [hv] at h1
    exact ⟨(en_laneCtlWrite h n h1).trans h0, fun d => by rw [laneState_laneCtlWrite, laneAfterCtl, nbit_toNat, nbit_toNat, h0, h1]; rfl,
      fun d hd => pend_laneCtlWrite_enable h n h0 h1 hd⟩
  · obtain ⟨h0, h1⟩ := wbit_clear_zero v
    rw [hv] at h1
    exact ⟨(en_laneCtlWrite h n h1).trans h0, pend_laneCtlWrite_disable h n h0 h1,
      fun d => by rw [laneState_laneCtlWrite, laneAfterCtl, nbit_toNat, nbit_toNat, h0, h1]; rfl⟩
  · obtain ⟨h1, h0⟩ := wbit_or_two v
    have hword {r : Reg} (hr : r ≠ .LANE_CTL) : (laneCtlWrite n (v ||| 2).toNat h).word r n =
        ((h.laneWriteEn n (nbit (v ||| 2).toNat 0)).laneReset n).word r n := by
      rw [laneCtlWrite_reset h n h1, Hw.word_lockCtl _ _ _ _ hr]
    refine ⟨?_, ?_, ?_, ?_, fun d => ?_⟩
    · rw [Hw.on_of_get (Hw.get_of_word (hword (by decide))), Hw.pend_laneReset]
    · exact (Hw.get_of_word (hword (by decide))).trans (Hw.fcause_laneClear _ n)
    · exact (hword (by decide)).trans (Hw.word_laneClear _ n (by decide))
    · exact (hword (by decide)).trans (Hw.word_laneClear _ n (by decide))
    · rw [laneState_laneCtlWrite, laneAfterCtl, nbit_toNat, nbit_toNat, h1, h0, if_pos rfl, laneAfterLrst_en]

end Sys2Proof.Machine
end

section
/-! PROOF. Block lock and the blocks that no frame carries (R49, R51, R54, R480). -/

namespace Sys2Proof.Machine

theorem Hw.get_laneFlags (h : Hw) (n k : Nat) (flags : List Nat) {f : Fld} (hf : f.reg ∉ [Reg.LANE_ERR, .EVT_PEND, .EVT_MERGECNT]) :
    (h.laneFlags n flags).get f k = h.get f k := by
  simp only [List.mem_cons, List.not_mem_nil, or_false, not_or] at hf
  obtain ⟨herr, hpend, hmerge⟩ := hf
  unfold Hw.laneFlags
  dsimp only
  rw [Hw.when_keeps (·.get f k) fun x => x.get_raise n k hpend hmerge]
  exact Hw.forEach_keeps (·.get f k) (fun _ _ x => x.get_set_reg n k _ (Ne.symm herr)) h

/-- The window of a direction after an invalid block that comes `gap` blocks after the last one (R49). -/
def invalidWindow (gap : Nat) (w : List Nat) : List Nat := 0 :: (w.map (· + gap)).filter fun k => decide (k < 64)

theorem length_invalidWindow (gap : Nat) (w : List Nat) :
    (invalidWindow gap w).length = (w.filter fun k => decide (k + gap < 64)).length + 1 := by
  rw [invalidWindow, List.length_cons, List.filter_map, List.length_map]; rfl

section Lock

variable (h : Hw) (n : Nat) (d : Dir)

theorem Hw.lock_setB (b : Bool) : (h.setB (lockFld d) n b).on (lockFld d) n = b :=
  h.on_setB_same _ n b (by cases d <;> decide) (by cases d <;> decide)

/-- Block lock acquired: the flag stands, the window is empty, and no state changes (R49). -/
theorem Hw.lockAcquired_spec :
    let u := (h.lockAcquired n d).setB F.CLK_STAT_SER_LOCK 0 true
    u.on (lockFld d) n = true ∧ ((u.lane n).training d).invalid = [] ∧ ∀ e, u.laneState n e = h.laneState n e := by
  have hclk : F.CLK_STAT_SER_LOCK.Apart (lockFld d) := by cases d <;> decide
  refine ⟨?_, ?_, fun e => ?_⟩
  · rw [Hw.on_of_get (Hw.get_setB_apart _ 0 n true hclk)]
    exact h.lock_setB n d true
  · rw [Hw.setB, Hw.lane_set, Hw.lockAcquired, Hw.lane_updLane, Lane.training_setTraining]
  · rw [Hw.laneState_setB _ _ _ _ _ (by decide), Hw.lockAcquired, Hw.laneState_updLane, Hw.laneState_setB _ _ _ _ _ (lockFld_spares d)]

/-- Lock is dropped: the window and the running attempt with it. -/
def Hw.dropLock : Hw :=
  (h.setB (lockFld d) n false).updLane n fun l => l.setTraining d { l.training d with invalid := [], ts := false, agreed := none }

theorem Hw.lock_dropLock : (h.dropLock n d).on (lockFld d) n = false := h.lock_setB n d false

theorem Hw.laneState_dropLock (e : Dir) : (h.dropLock n d).laneState n e = h.laneState n e :=
  h.laneState_setB n n e false (lockFld_spares d)

/-- LINK_LOSS of a direction (R49). -/
def Hw.flagLinkLoss : Dir → Hw
  | .ingress => h.laneFlags n [leLinkLoss]
  | .egress => h.setB F.LANE_EG_ERR_LINK_LOSS n true

theorem Hw.get_flagLinkLoss {f : Fld} (hf : f.reg = .LANE_STAT) : (h.flagLinkLoss n d).get f n = h.get f n := by
  cases d
  · exact h.get_laneFlags n n _ (by rw [hf]; decide)
  · exact h.get_set_reg n n _ (by rw [hf]; decide)

theorem Hw.lockLost_eq :
    h.lockLost n d = if h.on (lockFld d) n = true ∧ laneLive (h.laneState n d) = true
      then ((h.dropLock n d).flagLinkLoss n d).setLane n d laneTraining else h.dropLock n d := by
  have heq : h.lockLost n d = if (h.on (lockFld d) n && laneLive ((h.dropLock n d).laneState n d)) = true
      then ((h.dropLock n d).flagLinkLoss n d).setLane n d laneTraining else h.dropLock n d := by cases d <;> rfl
  rw [heq, Hw.laneState_dropLock]
  simp only [Bool.and_eq_true]

theorem Hw.lock_lockLost : (h.lockLost n d).on (lockFld d) n = false := by
  rw [Hw.lockLost_eq]
  split
  · rw [Hw.on_setLane_kept _ _ _ _ _ (by cases d <;> decide), Hw.on_of_get (Hw.get_flagLinkLoss _ n d (by cases d <;> rfl)),
      Hw.lock_dropLock]
  · exact h.lock_dropLock n d

theorem Hw.laneState_lockLost :
    (h.lockLost n d).laneState n d =
      if h.on (lockFld d) n = true ∧ laneLive (h.laneState n d) = true then laneTraining else h.laneState n d := by
  rw [Hw.lockLost_eq]
  split
  · exact Hw.setLane_state _ n d _ (by decide)
  · exact h.laneState_dropLock n d d

/-- An unknown block under block lock moves the window on; the sixteenth within it loses the lock (R49). -/
theorem Hw.unknownBlock_locked (gap : Nat) (hl : h.on (lockFld d) n = true) :
    let w := invalidWindow gap ((h.lane n).training d).invalid
    let x := h.updLane n fun l => l.setTraining d { l.training d with invalid := invalidWindow gap (l.training d).invalid }
    h.unknownBlock n d gap = if 16 ≤ w.length then x.lockLost n d else x := by
  intro w x
  have hw : ((x.lane n).training d).invalid = w := by rw [Hw.lane_updLane, Lane.training_setTraining]
  rw [Hw.unknownBlock, if_pos hl, ← hw]
  rfl

theorem Hw.lock_unknownBlock (gap : Nat) (hl : h.on (lockFld d) n = true) :
    (h.unknownBlock n d gap).on (lockFld d) n =
      decide ((((h.lane n).training d).invalid.filter fun k => decide (k + gap < 64)).length < 15) := by
  rw [h.unknownBlock_locked n d gap hl, length_invalidWindow]
  split
  next hfull =>
    rw [Hw.lock_lockLost, decide_eq_false (by omega)]
  next hfew =>
    rw [decide_eq_true (by omega)]
    exact hl

/-- A block goes out while the transmitters are on and the quad has its clock (R480, R488). -/
theorem Hw.sendBlock_emit {h : Hw} {n : Nat} (d : Dir) (kind : Nat) (c : List Nat)
    (hdev : h.dev = devStartup ∨ h.dev = devRun ∨ h.dev = devTrial) (hq : h.quadOn n = true) :
    h.sendBlock n d kind c = h.emit (.laneBlock n d kind (blockContent c)) := by
  rw [Hw.sendBlock, Hw.emitLane]
  exact if_pos ⟨hdev, hq⟩

theorem Hw.trainable_of_lock {h : Hw} {n : Nat} {d : Dir} (hst : h.laneState n d = laneTraining) (hl : h.on (lockFld d) n = true) :
    h.trainable n d = true := by
  rw [Hw.trainable, hst, hl]; rfl

/-- 16 TS blocks under block lock have CAP sent (R54). -/
theorem Hw.tsReceived_cap {h : Hw} {n : Nat} {d : Dir} (ht : h.trainable n d = true) (hq : h.quadOn n = true)
    (hdev : h.dev = devStartup ∨ h.dev = devRun ∨ h.dev = devTrial) :
    h.tsReceived n d = (h.updLane n fun l => l.setTraining d { l.training d with ts := true }).emit
      (.laneBlock n d blkCap (blockContent
        (capContent { ver := h.ownMaxVer n d, feat := h.ownFeat n d, crcId := h.ownCrcId n d } (ownRole d)))) := by
  rw [Hw.tsReceived, if_pos ht]
  exact Hw.sendBlock_emit (h := h.updLane n _) d _ _ hdev hq

theorem Hw.tsReceived_unlocked {h : Hw} {n : Nat} {d : Dir} (hl : h.on (lockFld d) n = false) : h.tsReceived n d = h := by
  rw [Hw.tsReceived, if_neg (by simp [Hw.trainable, hl])]

end Lock

end Sys2Proof.Machine
end

section
/-! PROOF. Training of a lane, from CAP to service (R52 to R56, R64), and the end of the drain (R79, R81). -/

namespace Sys2Proof.Machine

/-! ### Attempts (R55) -/

section Attempts

variable {h : Hw} {n : Nat} {d : Dir} {cause : Nat}

theorem Hw.attemptFailed_third (hf : 2 ≤ ((h.lane n).training d).fails) : h.attemptFailed n d cause = h.laneFaultEntry n cause := by
  rw [Hw.attemptFailed]
  exact if_pos (by omega)

theorem Hw.attemptFailed_again (hf : ((h.lane n).training d).fails < 2) :
    (h.attemptFailed n d cause).laneState n d = h.laneState n d ∧
      (((h.attemptFailed n d cause).lane n).training d).fails = ((h.lane n).training d).fails + 1 ∧
      (((h.attemptFailed n d cause).lane n).training d).agreed = none := by
  have heq : h.attemptFailed n d cause = (h.updLane n fun l =>
      l.setTraining d { fails := ((h.lane n).training d).fails + 1, invalid := (l.training d).invalid }).sendBlock n d blkTs tsPattern :=
    if_neg (by omega)
  rw [heq]
  simp

/-- The third failed attempt in a row of a direction in TRAINING puts both directions in FAULT. -/
theorem Hw.attemptFailed_fault (hst : h.laneState n d = laneTraining) (hf : 2 ≤ ((h.lane n).training d).fails) (hc : cause < 16) :
    (h.attemptFailed n d cause).get F.LANE_STAT_FCAUSE n = cause ∧ ∀ e, (h.attemptFailed n d cause).laneState n e = laneFault := by
  rw [Hw.attemptFailed_third hf]
  exact Hw.laneFaultEntry_fault (d := d) (by rw [hst]; decide) hc

/-- An attempt that does not reach t4 in time has failed (R55). -/
theorem Hw.trainingTimeout_training (hst : h.laneState n d = laneTraining) :
    h.trainingTimeout n d = h.attemptFailed n d (fcTrain d) := if_pos hst

theorem fcTrain_lt (d : Dir) : fcTrain d < 16 := by cases d <;> decide

theorem fcCapCrc_lt (d : Dir) : fcCapCrc d < 16 := by cases d <;> decide

end Attempts

/-! ### CAP (R52, R53) -/

section Cap

variable (h : Hw) (n : Nat) (d : Dir) (c : CapWord) (role : Nat)

theorem Hw.get_recordPeerCap {f : Fld} (hf : f.reg ∉ [Reg.LANE_PEER_CAP, .LANE_EG_PEER_CAP]) :
    (h.recordPeerCap n d c role).get f n = h.get f n := by
  simp only [List.mem_cons, List.not_mem_nil, or_false, not_or] at hf
  obtain ⟨hin, heg⟩ := hf
  cases d
  · exact (Hw.get_set_reg _ _ _ _ (Ne.symm hin)).trans
      ((Hw.get_set_reg _ _ _ _ (Ne.symm hin)).trans (Hw.get_set_reg _ _ _ _ (Ne.symm hin)))
  · exact (Hw.get_set_reg _ _ _ _ (Ne.symm heg)).trans
      ((Hw.get_set_reg _ _ _ _ (Ne.symm heg)).trans (Hw.get_set_reg _ _ _ _ (Ne.symm heg)))

theorem Hw.lane_recordPeerCap : (h.recordPeerCap n d c role).lane n = h.lane n := by cases d <;> rfl

theorem Hw.out_recordPeerCap : (h.recordPeerCap n d c role).out = h.out := by cases d <;> rfl

theorem Hw.laneState_recordPeerCap (e : Dir) : (h.recordPeerCap n d c role).laneState n e = h.laneState n e :=
  h.get_recordPeerCap n d c role (by cases e <;> decide)

theorem Hw.trainable_recordPeerCap : (h.recordPeerCap n d c role).trainable n d = h.trainable n d := by
  rw [Hw.trainable, Hw.laneState_recordPeerCap, Hw.on_of_get (h.get_recordPeerCap n d c role (by cases d <;> decide))]; rfl

theorem Hw.ownCrcId_recordPeerCap : (h.recordPeerCap n d c role).ownCrcId n d = h.ownCrcId n d := by
  cases d <;> exact h.get_recordPeerCap n _ c role (by decide)

theorem Hw.ownMaxVer_recordPeerCap : (h.recordPeerCap n d c role).ownMaxVer n d = h.ownMaxVer n d := by
  cases d <;> exact h.get_recordPeerCap n _ c role (by decide)

theorem Hw.agreeFeat_recordPeerCap (ver feat : Nat) :
    (h.recordPeerCap n d c role).agreeFeat n d ver feat = h.agreeFeat n d ver feat := by
  cases d
  · simp only [Hw.agreeFeat]
    rw [Hw.on_of_get (h.get_recordPeerCap n .ingress c role (by decide)),
      Hw.on_of_get (h.get_recordPeerCap n .ingress c role (by decide))]
  · rfl

variable {h n d c}

/-- Before its own CAP has been sent, an attempt only records the peer's. -/
theorem Hw.capReceived_early (hts : ((h.lane n).training d).ts = false) : h.capReceived n d c role = h.recordPeerCap n d c role := by
  rw [Hw.capReceived, if_neg (by simp [Hw.lane_recordPeerCap, hts])]

theorem Hw.capReceived_mismatch (ht : h.trainable n d = true) (hts : ((h.lane n).training d).ts = true)
    (hc : c.crcId ≠ h.ownCrcId n d) : h.capReceived n d c role = (h.recordPeerCap n d c role).attemptFailed n d (fcCapCrc d) := by
  rw [Hw.capReceived, if_pos (by rw [Hw.trainable_recordPeerCap, Hw.lane_recordPeerCap, ht, hts]; rfl),
    if_pos (by rwa [Hw.ownCrcId_recordPeerCap])]

/-- A CAP with the lane's CRC_ID and a common version decides the agreed word, which CAPACK carries (R52, R54). -/
theorem Hw.capReceived_agreed (ht : h.trainable n d = true) (hts : ((h.lane n).training d).ts = true)
    (hc : c.crcId = h.ownCrcId n d) {ver : Nat} (hv : negotiateVer c.ver (h.ownMaxVer n d) = some ver) :
    let a : CapWord := { ver := ver, feat := h.agreeFeat n d ver c.feat, crcId := c.crcId }
    h.capReceived n d c role = ((h.recordPeerCap n d c role).updLane n fun l =>
      l.setTraining d { l.training d with agreed := some a }).sendBlock n d blkCapAck (capContent a (ownRole d)) := by
  rw [Hw.capReceived, if_pos (by rw [Hw.trainable_recordPeerCap, Hw.lane_recordPeerCap, ht, hts]; rfl),
    if_neg (by rw [Hw.ownCrcId_recordPeerCap]; exact not_not_intro hc), Hw.ownMaxVer_recordPeerCap, hv]
  simp only [Hw.agreeFeat_recordPeerCap]

end Cap

/-! ### Service (R54, R63, R64) -/

section Service

variable (h : Hw) (n : Nat)

theorem Hw.get_grantCredits (k : Nat) (f : Fld) : (h.grantCredits n k).get f n = h.get f n := Hw.get_sendBlock _ _ _ _ _ _ _

theorem Hw.get_returnCredits (k : Nat) (f : Fld) : (h.returnCredits n k).get f n = h.get f n :=
  Hw.forUpTo_keeps (·.get f n) (fun _ _ x => x.get_grantCredits n 1 f) h

theorem Hw.get_abandonAdmitted (f : Fld) : (h.abandonAdmitted n).get f n = h.get f n := rfl

/-- An ACTIVE ingress abandons its slice and is in RESYNC, or ACTIVE again with a buffered slice start; all else about the states
stays (R63). -/
theorem Hw.laneState_enterResync (e : Dir) :
    (h.enterResync n).laneState n e =
      if e = .ingress ∧ h.laneState n .ingress = laneActive ∧ (fromSync (h.lane n).buf).isEmpty = true then laneResync
      else h.laneState n e := by
  unfold Hw.enterResync
  by_cases hact : h.laneState n .ingress = laneActive
  · rw [if_pos hact]
    dsimp only
    have hback (k : Nat) (f : Lane → Lane) :
        ((((h.abandonAdmitted n).setLane n .ingress laneResync).updLane n f).returnCredits n k).laneState n e =
          if e = .ingress then laneResync else h.laneState n e :=
      (Hw.get_returnCredits _ n k _).trans (Hw.laneState_setLane (h.abandonAdmitted n) n .ingress (by decide) e)
    cases hk : (fromSync (h.lane n).buf).isEmpty
    · refine (Hw.laneState_setLane _ n .ingress (by decide) e).trans ?_
      rw [hback]
      cases e <;> simp [hact]
    · refine (hback _ _).trans ?_
      cases e <;> simp [hact]
  · rw [if_neg hact, if_neg fun hc => hact hc.2.1]

theorem Hw.get_enterResync_kept {f : Fld} (hf : f.KeptBySetLane) : (h.enterResync n).get f n = h.get f n := by
  unfold Hw.enterResync
  split
  · dsimp only
    rw [Hw.when_keeps (·.get f n) (fun x => x.get_setLane_kept n n _ _ hf), Hw.get_returnCredits, Hw.get_updLane,
      Hw.get_setLane_kept _ _ _ _ _ hf, Hw.get_abandonAdmitted]
  · rfl

theorem Hw.get_trainDone {f : Fld} (hf : f.reg ∉ [Reg.EVT_PEND, .EVT_MERGECNT]) :
    (h.when (h.on F.LANE_IEN_TRAIN_DONE n) (·.raise n)).get f n = h.get f n := by
  simp only [List.mem_cons, List.not_mem_nil, or_false, not_or] at hf
  exact Hw.when_keeps (·.get f n) (fun x => x.get_raise n n hf.1 hf.2) h

/-- Ingress that reaches t4 is in RESYNC with the agreed version (R54). -/
theorem Hw.trainingDone_ingress (a : CapWord) :
    (h.trainingDone n .ingress a).laneState n .ingress = laneResync ∧
      (h.trainingDone n .ingress a).get F.LANE_STAT_NEGVER n = a.ver % 256 := by
  unfold Hw.trainingDone
  dsimp only
  constructor
  · refine (Hw.get_trainDone _ n (by decide)).trans ((Hw.get_grantCredits _ n _ _).trans ?_)
    exact Hw.setLane_state _ n .ingress _ (by decide)
  · rw [Hw.get_trainDone _ n (by decide), Hw.get_grantCredits, Hw.get_setLane_kept _ _ _ _ _ (by decide),
      Hw.get_setB_apart _ _ _ _ (by decide), Hw.get_setB_apart _ _ _ _ (by decide), Hw.get_set_same _ _ _ _ (by decide)]
    rfl

/-- Egress that reaches t4 is ACTIVE with the agreed version, and an ACTIVE ingress resumes on a slice start (R54, R64). -/
theorem Hw.trainingDone_egress (a : CapWord) :
    (h.trainingDone n .egress a).laneState n .egress = laneActive ∧
      (h.trainingDone n .egress a).get F.LANE_EG_STAT_NEGVER n = a.ver % 256 ∧
      (h.trainingDone n .egress a).laneState n .ingress =
        if h.laneState n .ingress = laneActive ∧ (fromSync (h.lane n).buf).isEmpty = true then laneResync
        else h.laneState n .ingress := by
  unfold Hw.trainingDone
  dsimp only
  refine ⟨?_, ?_, ?_⟩
  · refine (Hw.get_trainDone _ n (by decide)).trans ?_
    exact Hw.setLane_state _ n .egress _ (by decide)
  · rw [Hw.get_trainDone _ n (by decide), Hw.get_setLane_kept _ _ _ _ _ (by decide), Hw.get_enterResync_kept _ _ (by decide),
      Hw.get_set_same _ _ _ _ (by decide)]
    rfl
  · refine (Hw.get_trainDone _ n (by decide)).trans ((Hw.setLane_other _ n _ (by decide)).trans ?_)
    rw [Hw.laneState_enterResync, Hw.laneState_set _ _ _ _ _ (by decide), Hw.lane_set]
    simp

end Service

/-! ### CAPACK (R54, R56) -/

theorem Hw.capAckReceived_same {h : Hw} {n : Nat} {d : Dir} {a : CapWord} (ht : h.trainable n d = true)
    (ha : ((h.lane n).training d).agreed = some a) : h.capAckReceived n d a = h.trainingDone n d a := by
  simp only [Hw.capAckReceived, ha, ht, Bool.not_true, Bool.false_eq_true, if_false, if_true]

theorem Hw.capAckReceived_differs {h : Hw} {n : Nat} {d : Dir} {a c : CapWord} (ht : h.trainable n d = true)
    (ha : ((h.lane n).training d).agreed = some a) (hc : c ≠ a) : h.capAckReceived n d c = h.attemptFailed n d (fcTrain d) := by
  simp only [Hw.capAckReceived, ha, ht, Bool.not_true, Bool.false_eq_true, if_false, hc]

/-! ### The drain (R79, R81) -/

/-- LINKDOWN in TRAINING starts the drain (R79). -/
theorem Hw.linkDownReceived_training {h : Hw} {n : Nat} {d : Dir} (hst : h.laneState n d = laneTraining) :
    h.linkDownReceived n d = h.setLane n d laneShutting := if_pos (.inl hst)

/-- The state that a direction in `st` takes at the end of the drain. -/
def laneAfterDrain (go : Bool) (st : Nat) : Nat := if st = laneShutting then if go then laneTraining else laneOff else st

/-- One direction at the end of the drain. -/
def Hw.drainDir (n : Nat) (go : Bool) (d : Dir) (h : Hw) : Hw :=
  if h.laneState n d = laneShutting then h.setLane n d (if go then laneTraining else laneOff) else h

theorem Hw.laneState_drainDir (n : Nat) (go : Bool) (h : Hw) (d e : Dir) :
    (Hw.drainDir n go d h).laneState n e = if e = d then laneAfterDrain go (h.laneState n d) else h.laneState n e := by
  unfold Hw.drainDir laneAfterDrain
  split
  · exact Hw.laneState_setLane h n d (by cases go <;> decide) e
  · split
    next he => rw [he]
    next => rfl

theorem Hw.drainComplete_eq (h : Hw) (n : Nat) :
    let go := h.on F.LANE_STAT_PEND n || h.on F.LANE_CTL_EN n
    h.drainComplete n = (Hw.drainDir n go .egress (Hw.drainDir n go .ingress
      (h.when (h.laneState n .egress == laneShutting) (·.dropEgress n)))).setB F.LANE_STAT_PEND n false := rfl

theorem Hw.laneState_drainComplete (h : Hw) (n : Nat) (d : Dir) :
    (h.drainComplete n).laneState n d =
      laneAfterDrain (h.on F.LANE_STAT_PEND n || h.on F.LANE_CTL_EN n) (h.laneState n d) := by
  rw [Hw.drainComplete_eq, Hw.laneState_setB _ _ _ _ _ (by decide), Hw.laneState_bothDirs (Hw.laneState_drainDir n _),
    Hw.when_keeps (·.laneState n d) fun x => x.laneState_dropEgress n n d]

end Sys2Proof.Machine
end

section
/-! PROOF. Block lock, training and the end of the drain. -/

namespace Sys2Proof.Machine

section Clauses

variable {s : State} (hs : s.Awake) (n : Fin 16) (d : Dir)
include hs

theorem exec_blockLockAcquired_clocked (hq : s.hw.quadOn n = true) :
    exec (.blockLockAcquired n d) s = .next (s.withHw ((s.hw.lockAcquired n d).setB F.CLK_STAT_SER_LOCK 0 true)) := by
  refine (State.apply_awake hs (fun h => h.when (h.quadOn n) fun h => (h.lockAcquired n d).setB F.CLK_STAT_SER_LOCK 0 true)).trans ?_
  rw [hq]; rfl

/-- A quad whose clock is stopped acquires no lock (R480). -/
theorem exec_blockLockAcquired_stopped (hq : s.hw.quadOn n = false) : exec (.blockLockAcquired n d) s = .next s := by
  refine (State.apply_awake hs (fun h => h.when (h.quadOn n) fun h => (h.lockAcquired n d).setB F.CLK_STAT_SER_LOCK 0 true)).trans ?_
  rw [hq]; rfl

theorem exec_tsSequence : exec (.tsSequence n d) s = .next (s.withHw (s.hw.tsReceived n d)) :=
  State.apply_awake hs (·.tsReceived n d)

theorem exec_capReceived (c : CapWord) (role : Fin 256) :
    exec (.capReceived n d c role) s = .next (s.withHw (s.hw.capReceived n d c role)) :=
  State.apply_awake hs (·.capReceived n d c role)

theorem exec_capAckReceived (c : CapWord) : exec (.capAckReceived n d c) s = .next (s.withHw (s.hw.capAckReceived n d c)) :=
  State.apply_awake hs (·.capAckReceived n d c)

end Clauses

/-- Settles O18: each clause is what its command does to block lock, to a training attempt, or to a lane whose drain ends. The name
`laneTraining` is the model's, for the state. -/
theorem laneTraining' : Obligations.LaneTraining := by
  refine ⟨fun s n d hs => ⟨fun hq => ?_, fun hq => ?_, ?_, fun gap hl => ?_, fun hst hl hq hdev => ?_, fun _ hl => ?_⟩,
    fun s n d hs hst => ⟨fun c role ver hl hts hc hv => ?_, fun c role hl hts hc hf => ?_, fun c role hl hts => ?_, fun a hl ha => ?_,
      fun a c hl ha hc hf => ?_, ?_, ?_⟩, fun s n hs => ?_⟩
  · exact ⟨_, exec_blockLockAcquired_clocked hs n d hq, s.hw.lockAcquired_spec n d⟩
  · exact exec_blockLockAcquired_stopped hs n d hq
  · exact ⟨_, State.apply_awake hs (·.lockLost n d), s.hw.lock_lockLost n d, s.hw.laneState_lockLost n d⟩
  · exact ⟨_, State.apply_awake hs (·.unknownBlock n d gap), s.hw.lock_unknownBlock n d gap hl⟩
  · rw [exec_tsSequence hs, Hw.tsReceived_cap (Hw.trainable_of_lock hst hl) hq hdev]
  · rw [exec_tsSequence hs, Hw.tsReceived_unlocked hl]; rfl
  · refine ⟨_, exec_capReceived hs n d c role, ?_⟩
    rw [Hw.capReceived_agreed role (Hw.trainable_of_lock hst hl) hts hc hv]
    simp [Hw.laneState_recordPeerCap, hst]
  · refine ⟨_, exec_capReceived hs n d c role, ?_⟩
    rw [Hw.capReceived_mismatch role (Hw.trainable_of_lock hst hl) hts hc]
    exact Hw.attemptFailed_fault ((Hw.laneState_recordPeerCap _ _ _ _ _ _).trans hst) (by rwa [Hw.lane_recordPeerCap]) (fcCapCrc_lt d)
  · refine ⟨_, exec_capReceived hs n d c role, ?_⟩
    rw [Hw.capReceived_early role hts]
    exact ⟨Hw.lane_recordPeerCap _ _ _ _ _, Hw.out_recordPeerCap _ _ _ _ _, (Hw.laneState_recordPeerCap _ _ _ _ _ _).trans hst⟩
  · refine ⟨_, exec_capAckReceived hs n d a, ?_⟩
    rw [Hw.capAckReceived_same (Hw.trainable_of_lock hst hl) ha]
    cases d
    · exact s.hw.trainingDone_ingress n a
    · exact s.hw.trainingDone_egress n a
  · refine ⟨_, exec_capAckReceived hs n d c, ?_⟩
    rw [Hw.capAckReceived_differs (Hw.trainable_of_lock hst hl) ha hc, ← hst]
    exact Hw.attemptFailed_again hf
  · refine ⟨_, State.apply_awake hs (·.trainingTimeout n d), ?_⟩
    rw [Hw.trainingTimeout_training hst]
    split
    next hf => exact Hw.attemptFailed_fault hst hf (fcTrain_lt d)
    next hf =>
      obtain ⟨hstate, hfails, -⟩ := Hw.attemptFailed_again (h := s.hw) (cause := fcTrain d) (Nat.lt_of_not_le hf)
      exact ⟨hstate.trans hst, hfails⟩
  · refine ⟨_, State.apply_awake hs (·.linkDownReceived n d), ?_⟩
    rw [Hw.linkDownReceived_training hst, Hw.setLane_state _ _ _ _ (by decide)]
  · refine ⟨_, State.apply_awake hs (·.drainComplete n), Hw.on_setB_same _ _ _ _ (by decide) (by decide), fun d => ?_⟩
    rw [Hw.laneState_drainComplete, laneAfterDrain]
    simp only [Bool.or_eq_true]

end Sys2Proof.Machine
end

section
/-! PROOF. The lines SEO_B (R154). -/

namespace Sys2Proof.Machine

/-- Settles O27: SEO_B is driven from these four conditions and no other. -/
theorem seoBPermitConditions : Obligations.SeoBPermitConditions := by
  intro h n hperm
  simp only [Hw.seoB, Bool.and_eq_true, decide_eq_true_eq] at hperm
  obtain ⟨⟨⟨hcell, hfault⟩, hstate⟩, hbrun⟩ := hperm
  exact ⟨hcell, hfault, hstate, hbrun⟩

end Sys2Proof.Machine
end

section
/-! PROOF. The Tile Checker: the tile integrators after a pass over some of them, and the verdict of a frame (R129 to R138). -/

namespace Sys2Proof.Machine

/-- A bit of a mask is its predicate's value. -/
theorem nbit_nmask {n k : Nat} (p : Nat → Bool) (hk : k < n) : nbit (nmask n p) k = p k := by
  have hlt (m : Nat) : nmask m p < 2 ^ m := by
    induction m with
    | zero => exact Nat.one_pos
    | succ m ih => rw [nmask, Nat.pow_succ]; split <;> omega
  induction n with
  | zero => exact absurd hk (Nat.not_lt_zero k)
  | succ m ih =>
    rw [nmask, nbit, Nat.add_comm]
    rcases Nat.lt_succ_iff_lt_or_eq.1 hk with hlo | rfl
    · rw [← ih hlo]
      split
      · exact Nat.testBit_two_pow_add_gt hlo _
      · rw [Nat.zero_add]; rfl
    · cases p k
      · rw [if_neg Bool.false_ne_true, Nat.zero_add, Nat.testBit_lt_two_pow (hlt k)]
      · rw [if_pos rfl, Nat.testBit_two_pow_add_eq, Nat.testBit_lt_two_pow (hlt k)]; rfl

theorem Hw.forUpTo_succ (h : Hw) (k : Nat) (f : Nat → Hw → Hw) : h.forUpTo (k + 1) f = f k (h.forUpTo k f) := by
  simp [Hw.forUpTo, List.range_succ]

/-! ### Passes over tile integrators -/

/-- From `h` to `u` nothing but tile integrators changed. -/
def Hw.OnlyTiles (h u : Hw) : Prop := u = { h with b := { h.b with tiles := u.b.tiles } }

/-- From `h` to `u` tile integrator `t` took the value `v`, and nothing else changed. -/
def Hw.TileSet (h u : Hw) (t v : Nat) : Prop := h.OnlyTiles u ∧ ∀ t', u.bTile t' = if t' = t then v else h.bTile t'

namespace Hw.OnlyTiles

variable {h u w : Hw}

theorem refl (h : Hw) : h.OnlyTiles h := rfl

theorem trans (a : h.OnlyTiles u) (c : u.OnlyTiles w) : h.OnlyTiles w := by
  unfold Hw.OnlyTiles at *
  rw [c, a]

theorem bEng (a : h.OnlyTiles u) (n : Nat) : u.bEng n = h.bEng n := by rw [a]; rfl
theorem bParams (a : h.OnlyTiles u) (n z : Nat) : u.bParams n z = h.bParams n z := by rw [a]; rfl
theorem bZoneOpen (a : h.OnlyTiles u) (z : Nat) : u.bZoneOpen z = h.bZoneOpen z := by rw [a]; rfl
theorem bCfg (a : h.OnlyTiles u) : u.b.cfg = h.b.cfg := by rw [a]
theorem runs (a : h.OnlyTiles u) : u.b.runs = h.b.runs := by rw [a]; rfl
theorem on (a : h.OnlyTiles u) (f : Fld) (n : Nat) : u.on f n = h.on f n := by rw [a]; rfl
theorem xlkD (a : h.OnlyTiles u) : u.xlkD = h.xlkD := by rw [a]
theorem toA (a : h.OnlyTiles u) : u.toA = h.toA := by rw [a]

end Hw.OnlyTiles

theorem Hw.tileSet_putTile (h : Hw) (t v : Nat) : h.TileSet (h.putTile t v) t v := ⟨rfl, fun _ => Store.get_put _ _ _ _⟩

/-- A loop that takes integrator `base + i` by `g i` in pass `i` takes each integrator of its range by `g`, and no other. -/
theorem Hw.bTile_forUpTo {h : Hw} {base : Nat} {f : Nat → Hw → Hw} {g : Nat → Nat → Nat}
    (hf : ∀ i x, h.OnlyTiles x → x.TileSet (f i x) (base + i) (g i (x.bTile (base + i)))) (k : Nat) :
    h.OnlyTiles (h.forUpTo k f) ∧
      ∀ t, (h.forUpTo k f).bTile t = if base ≤ t ∧ t < base + k then g (t - base) (h.bTile t) else h.bTile t := by
  induction k with
  | zero => exact ⟨rfl, fun t => (if_neg (by omega)).symm⟩
  | succ k ih =>
    obtain ⟨honly, hval⟩ := ih
    obtain ⟨hstep, hset⟩ := hf k _ honly
    rw [Hw.forUpTo_succ]
    refine ⟨honly.trans hstep, fun t => ?_⟩
    rw [hset, hval, hval, if_neg (c := base ≤ base + k ∧ base + k < base + k) (by omega)]
    by_cases ht : t = base + k
    · subst ht
      rw [if_pos rfl, if_pos (by omega), Nat.add_sub_cancel_left]
    · rw [if_neg ht]
      by_cases hin : base ≤ t ∧ t < base + k
      · rw [if_pos hin, if_pos (by omega)]
      · rw [if_neg hin, if_neg (by omega)]

/-- What a loop of such passes leaves in one integrator of its range. -/
theorem Hw.bTile_forUpTo_at {h : Hw} {base : Nat} {f : Nat → Hw → Hw} {g : Nat → Nat → Nat}
    (hf : ∀ i x, h.OnlyTiles x → x.TileSet (f i x) (base + i) (g i (x.bTile (base + i)))) {k i : Nat} (hi : i < k) :
    (h.forUpTo k f).bTile (base + i) = g i (h.bTile (base + i)) := by
  rw [(Hw.bTile_forUpTo hf k).2, if_pos (by omega), Nat.add_sub_cancel_left]

/-! ### The record of an engine -/

section Engine

variable (h : Hw) (n : Nat) (f : BEngine → BEngine)

theorem Hw.bEng_updBEng : (h.updBEng n f).bEng n = f (h.bEng n) := Store.get_upd_same _ _ _
theorem Hw.bTile_updBEng (t : Nat) : (h.updBEng n f).bTile t = h.bTile t := rfl
theorem Hw.runs_updBEng : (h.updBEng n f).b.runs = h.b.runs := rfl
theorem Hw.on_updBEng (g : Fld) (k : Nat) : (h.updBEng n f).on g k = h.on g k := rfl
theorem Hw.bCfg_updBEng : (h.updBEng n f).b.cfg = h.b.cfg := rfl
theorem Hw.bParams_updBEng (k z : Nat) : (h.updBEng n f).bParams k z = h.bParams k z := rfl
theorem Hw.bZoneOpen_updBEng (z : Nat) : (h.updBEng n f).bZoneOpen z = h.bZoneOpen z := rfl

end Engine

/-! ### The end of a B-slot (R133) -/

/-- Integrator `i` of engine `n` after one of its B-slots (R133). -/
def Hw.slotAfter (h : Hw) (n i old : Nat) : Nat :=
  if nbit (h.bEng n).seen (i / 32) then old else tileDecay old (h.bParams n (h.b.cfg.zoneOf (1024 * n + i))).k

/-- The tiles of engine `n` that received no segment in its B-slot have decayed. -/
def Hw.slotDecayed (h : Hw) (n : Nat) : Hw :=
  h.forUpTo 1024 fun i x =>
    if nbit (h.bEng n).seen (i / 32) then x
    else x.putTile (1024 * n + i) (tileDecay (x.bTile (1024 * n + i)) (x.bParams n (x.b.cfg.zoneOf (1024 * n + i))).k)

theorem Hw.bTile_slotDecayed (h : Hw) (n : Nat) {i : Nat} (hi : i < 1024) :
    (h.slotDecayed n).bTile (1024 * n + i) = h.slotAfter n i (h.bTile (1024 * n + i)) := by
  refine Hw.bTile_forUpTo_at (g := h.slotAfter n) (fun i x hx => ?_) hi
  unfold Hw.slotAfter
  split
  · refine ⟨rfl, fun t => ?_⟩
    split
    next ht => rw [ht]
    next => rfl
  · rw [← hx.bParams, ← hx.bCfg]
    exact x.tileSet_putTile _ _

/-- The end of a B-slot of engine `n` whose tiles have decayed: no segment is seen any more, and the integrators are copied. -/
def Hw.slotClosed (h : Hw) (n : Nat) : Hw :=
  let u := h.updBEng n fun e => { e with seen := 0 }
  let own (k : Nat × Nat) : Bool := k.1 / 1024 == n
  let old := u.b.slotTiles
  { u with b := { u.b with slotTiles := old.filter (fun k => decide (k.1 / 1024 < n)) ++ u.b.tiles.filter own ++
                                        old.filter fun k => decide (n < k.1 / 1024) } }

theorem Hw.bSlotEnd_eq {h : Hw} (n : Nat) (he : h.b.evaluating = true) : h.bSlotEnd n = (h.slotDecayed n).slotClosed n := by
  rw [Hw.bSlotEnd, if_pos he, Hw.slotClosed, Hw.slotDecayed]

theorem Hw.seen_slotClosed (h : Hw) (n : Nat) : ((h.slotClosed n).bEng n).seen = 0 :=
  congrArg BEngine.seen (h.bEng_updBEng n fun e => { e with seen := 0 })

theorem Hw.bTile_slotClosed (h : Hw) (n t : Nat) : (h.slotClosed n).bTile t = h.bTile t := rfl

/-! ### The verdict of a frame (R129 to R136, R138) -/

theorem Hw.sendA_up {h : Hw} (m : BtoA) (hr : h.b.runs = true) (hx : h.on F.XLK_STAT_XLKC_UP 0 = true) :
    h.sendA m = { h with toA := h.toA ++ [m] } := by
  rw [Hw.sendA, if_neg (by simp [hr]), if_pos hx]

/-- A verdict sent while the B-die runs and XLK_C is up is on its way to the A-die; the tiles stay. -/
theorem Hw.sendVerdict_up {h : Hw} (v : Verdict) (sums : List Nat) (hr : h.b.runs = true) (hx : h.on F.XLK_STAT_XLKC_UP 0 = true) :
    (h.sendVerdict v sums).xlkD = h.xlkD ∧ (h.sendVerdict v sums).toA = h.toA ++ [.verdict v] ∧
      (h.sendVerdict v sums).b.tiles = h.b.tiles ∧ ∀ t, (h.sendVerdict v sums).bTile t = h.bTile t := by
  have heq : ∃ f, h.sendVerdict v sums = { h.updBEng v.lane f with toA := h.toA ++ [.verdict v] } := by
    rw [Hw.sendVerdict, hr, hx]
    exact ⟨_, Hw.sendA_up (h := h.updBEng v.lane _) _ hr hx⟩
  obtain ⟨f, heq⟩ := heq
  rw [heq]
  exact ⟨rfl, rfl, rfl, fun _ => rfl⟩

/-- The integrator of tile column `c` after a segment of engine `n` whose doses in it sum up to `sum` (R133, R134). -/
def Hw.tileAfter (h : Hw) (n s c sum old : Nat) : Nat :=
  min 0xFFFFFFFF ((if nbit (h.bEng n).seen s then old
    else tileDecay old (h.bParams n (h.b.cfg.zoneOf (1024 * n + 32 * s + c))).k) + sum)

theorem Hw.tileUpdate_eq (h : Hw) (n s c sum : Nat) :
    h.tileUpdate n s c sum = h.putTile (1024 * n + 32 * s + c) (h.tileAfter n s c sum (h.bTile (1024 * n + 32 * s + c))) := rfl

theorem Hw.tileSet_tileUpdate {h x : Hw} (hx : h.OnlyTiles x) (n s c sum : Nat) :
    x.TileSet (x.tileUpdate n s c sum) (1024 * n + 32 * s + c) (h.tileAfter n s c sum (x.bTile (1024 * n + 32 * s + c))) := by
  rw [Hw.tileUpdate_eq, Hw.tileAfter, hx.bEng, hx.bParams, hx.bCfg, ← Hw.tileAfter]
  exact x.tileSet_putTile _ _

/-- A tile has no cause to fail exactly when it meets the four conditions of R136. -/
theorem Hw.tileCause_eq_zero {h : Hw} {n s c sum t z : Nat} (ht : t = 1024 * n + 32 * s + c) (hz : z = h.b.cfg.zoneOf t) :
    h.tileCause n s c sum = 0 ↔
      h.bZoneOpen z = true ∧ (h.bEng n).envOk = true ∧ sum ≤ (h.bParams n z).budget ∧ h.bTile t ≤ (h.bParams n z).lim := by
  subst hz ht
  simp [Hw.tileCause, vcZone, vcEnvelope, vcBudget, vcIntegrator, and_assoc]

section Frame

variable (h : Hw) (f : XlkFrame)

/-- The sums of a frame's doses in its tile columns. -/
def Hw.frameSums : List Nat :=
  tileSums ((decodePayload (frameDcod f.bytes) (h.b.cfg.lane f.lane).p12Shift
    (framePayload (crcBytes (h.b.cfg.lane f.lane).crc) f.bytes)).getD [])

/-- The integrator of tile column `c` after a frame that passes. -/
def Hw.frameAfter (c : Nat) : Nat → Nat := h.tileAfter f.lane (frameHdr f.bytes).seg c ((h.frameSums f).getD c 0)

/-- The tiles of a frame's segment have taken its doses. -/
def Hw.dosesTaken : Hw :=
  h.forUpTo 32 fun c x => x.tileUpdate f.lane (frameHdr f.bytes).seg c ((h.frameSums f).getD c 0)

theorem Hw.dosesTaken_spec :
    let base := 1024 * f.lane + 32 * (frameHdr f.bytes).seg
    h.OnlyTiles (h.dosesTaken f) ∧ ∀ c < 32, (h.dosesTaken f).bTile (base + c) = h.frameAfter f c (h.bTile (base + c)) := by
  have hf (c : Nat) (x : Hw) (hx : h.OnlyTiles x) :=
    Hw.tileSet_tileUpdate hx f.lane (frameHdr f.bytes).seg c ((h.frameSums f).getD c 0)
  unfold Hw.dosesTaken
  exact ⟨(Hw.bTile_forUpTo (g := h.frameAfter f) hf 32).1, fun c hc => Hw.bTile_forUpTo_at (g := h.frameAfter f) hf hc⟩

/-- The tiles of a frame's segment have taken its doses, and its segment is seen. -/
def Hw.frameTaken : Hw :=
  (h.dosesTaken f).updBEng f.lane fun e => { e with seen := nsetBit e.seen (frameHdr f.bytes).seg true }

/-- The causes for which the tiles of a frame's segment fail. -/
def Hw.frameCauses : List Nat :=
  (List.range 32).map fun c => (h.frameTaken f).tileCause f.lane (frameHdr f.bytes).seg c ((h.frameSums f).getD c 0)

/-- The verdict of a frame. -/
def Hw.frameVerdict : Verdict :=
  let v : Verdict := { lane := f.lane, entry := f.entry, seg := (frameHdr f.bytes).seg, seq := (frameHdr f.bytes).seq }
  if h.bFrameOk f then
    { v with pass := nmask 32 fun c => (h.frameCauses f).getD c 0 == 0, cause := (h.frameCauses f).foldl Nat.lor 0 }
  else { v with pass := 0, cause := vcFrame }

variable {h f}

theorem Hw.bFrame_passed (hok : h.bFrameOk f = true) : h.bFrame f = (h.frameTaken f).sendVerdict (h.frameVerdict f) (h.frameSums f) := by
  rw [Hw.bFrame, if_pos hok, Hw.frameVerdict, if_pos hok, Hw.frameCauses, Hw.frameTaken, Hw.dosesTaken, Hw.frameSums]

theorem Hw.bFrame_failed (hok : h.bFrameOk f = false) : h.bFrame f = h.sendVerdict (h.frameVerdict f) (List.replicate 32 0) := by
  have hbad := ne_true_of_eq_false hok
  rw [Hw.bFrame, if_neg hbad, Hw.frameVerdict, if_neg hbad]

/-- The verdict names its frame, whether or not that passes. -/
theorem Hw.frameVerdict_names :
    (h.frameVerdict f).lane = f.lane ∧ (h.frameVerdict f).entry = f.entry ∧ (h.frameVerdict f).seg = (frameHdr f.bytes).seg ∧
      (h.frameVerdict f).seq = (frameHdr f.bytes).seq := by
  unfold Hw.frameVerdict
  split <;> exact ⟨rfl, rfl, rfl, rfl⟩

theorem Hw.frameVerdict_failed (hok : h.bFrameOk f = false) :
    (h.frameVerdict f).pass = 0 ∧ (h.frameVerdict f).cause = vcFrame := by
  rw [Hw.frameVerdict, hok]
  exact ⟨rfl, rfl⟩

/-- In a frame that passes, a tile passes when nothing about it is a cause to fail. -/
theorem Hw.frameVerdict_pass (hok : h.bFrameOk f = true) {c : Nat} (hc : c < 32) :
    nbit (h.frameVerdict f).pass c = true ↔
      (h.frameTaken f).tileCause f.lane (frameHdr f.bytes).seg c ((h.frameSums f).getD c 0) = 0 := by
  have hcause : (h.frameCauses f).getD c 0 =
      (h.frameTaken f).tileCause f.lane (frameHdr f.bytes).seg c ((h.frameSums f).getD c 0) := by
    simp [Hw.frameCauses, hc]
  rw [Hw.frameVerdict, if_pos hok, nbit_nmask _ hc, hcause, beq_iff_eq]

/-- What taking the doses leaves of the B-die: the configuration, the envelopes and the zones. -/
theorem Hw.frameTaken_keeps (z : Nat) :
    (h.frameTaken f).b.cfg = h.b.cfg ∧ (h.frameTaken f).bParams f.lane z = h.bParams f.lane z ∧
      (h.frameTaken f).bZoneOpen z = h.bZoneOpen z ∧ ((h.frameTaken f).bEng f.lane).envOk = (h.bEng f.lane).envOk := by
  obtain ⟨honly, -⟩ := Hw.dosesTaken_spec h f
  rw [Hw.frameTaken, Hw.bCfg_updBEng, Hw.bParams_updBEng, Hw.bZoneOpen_updBEng, Hw.bEng_updBEng, honly.bEng]
  exact ⟨honly.bCfg, honly.bParams _ _, honly.bZoneOpen _, rfl⟩

/-- What it leaves of the links: whether they are up, and what is under way. -/
theorem Hw.frameTaken_links :
    (h.frameTaken f).b.runs = h.b.runs ∧ (h.frameTaken f).on F.XLK_STAT_XLKC_UP 0 = h.on F.XLK_STAT_XLKC_UP 0 ∧
      (h.frameTaken f).xlkD = h.xlkD ∧ (h.frameTaken f).toA = h.toA := by
  obtain ⟨honly, -⟩ := Hw.dosesTaken_spec h f
  rw [Hw.frameTaken, Hw.runs_updBEng, Hw.on_updBEng, Hw.updBEng_xlkD, Hw.updBEng_toA]
  exact ⟨honly.runs, honly.on _ _, honly.xlkD, honly.toA⟩

theorem Hw.bTile_frameTaken (t : Nat) : (h.frameTaken f).bTile t = (h.dosesTaken f).bTile t := by
  rw [Hw.frameTaken, Hw.bTile_updBEng]

variable (hr : h.b.runs = true) (hx : h.on F.XLK_STAT_XLKC_UP 0 = true)
include hr hx

/-- A frame that fails leaves the queue, its verdict is sent, and no integrator changes. -/
theorem Hw.bFrame_failed_sends (hok : h.bFrameOk f = false) :
    (h.bFrame f).xlkD = h.xlkD ∧ (h.bFrame f).toA = h.toA ++ [.verdict (h.frameVerdict f)] ∧ (h.bFrame f).b.tiles = h.b.tiles := by
  obtain ⟨hd, ha, htiles, -⟩ := Hw.sendVerdict_up (h.frameVerdict f) (List.replicate 32 0) hr hx
  rw [Hw.bFrame_failed hok]
  exact ⟨hd, ha, htiles⟩

theorem Hw.bFrame_passed_sends (hok : h.bFrameOk f = true) :
    (h.bFrame f).xlkD = h.xlkD ∧ (h.bFrame f).toA = h.toA ++ [.verdict (h.frameVerdict f)] ∧
      ∀ t, (h.bFrame f).bTile t = (h.dosesTaken f).bTile t := by
  obtain ⟨hruns, hlink, hd, ha⟩ := Hw.frameTaken_links (h := h) (f := f)
  obtain ⟨hd', ha', -, htile⟩ := Hw.sendVerdict_up (h.frameVerdict f) (h.frameSums f) (hruns.trans hr) (hlink.trans hx)
  rw [Hw.bFrame_passed hok]
  exact ⟨hd'.trans hd, by rw [ha', ha], fun t => (htile t).trans (Hw.bTile_frameTaken t)⟩

/-- R133, R134, R136: the integrator and the verdict of one tile of a frame that passes. -/
theorem Hw.bFrame_tile (hok : h.bFrameOk f = true) {c : Nat} (hc : c < 32) :
    let t := 1024 * f.lane + 32 * (frameHdr f.bytes).seg + c
    let z := h.b.cfg.zoneOf t
    (h.bFrame f).bTile t = h.frameAfter f c (h.bTile t) ∧
      (nbit (h.frameVerdict f).pass c = true ↔ h.bZoneOpen z = true ∧ (h.bEng f.lane).envOk = true ∧
        (h.frameSums f).getD c 0 ≤ (h.bParams f.lane z).budget ∧ (h.bFrame f).bTile t ≤ (h.bParams f.lane z).lim) := by
  intro t z
  obtain ⟨-, htile⟩ := Hw.dosesTaken_spec h f
  obtain ⟨hcfg, hpar, hopen, henv⟩ := Hw.frameTaken_keeps (h := h) (f := f) z
  obtain ⟨-, -, hval⟩ := Hw.bFrame_passed_sends hr hx hok
  rw [Hw.frameVerdict_pass hok hc, Hw.tileCause_eq_zero rfl (by rw [hcfg]), hpar, hopen, henv, hval, Hw.bTile_frameTaken]
  exact ⟨htile c hc, Iff.rfl⟩

end Frame

/-- Settles O25: the loop over the columns takes each integrator by its own doses, and the verdict reads what the loop has left. -/
theorem tileVerdict : Obligations.TileVerdict := by
  refine ⟨fun s f rest hs hq hr hx => ?_, fun s n hs he => ?_⟩
  · let x : Hw := { s.hw with xlkD := rest }
    have hexec : exec .bdieFrame s = .next (s.withHw (x.bFrame f)) := by
      refine (State.apply_awake hs (·.bFrameReceived)).trans ?_
      rw [Hw.bFrameReceived, hq]
    obtain ⟨hlane, hentry, hseg, hseq⟩ := Hw.frameVerdict_names (h := x) (f := f)
    cases hok : s.hw.bFrameOk f
    · obtain ⟨hd, ha, htiles⟩ := Hw.bFrame_failed_sends (h := x) hr hx hok
      obtain ⟨hpass, hcause⟩ := Hw.frameVerdict_failed (h := x) hok
      refine ⟨x.bFrame f, x.frameVerdict f, hexec, hd, ha, hlane, hentry, hseg, hseq, ?_⟩
      rw [if_neg Bool.false_ne_true]
      exact ⟨hpass, hcause, htiles⟩
    · obtain ⟨hd, ha, -⟩ := Hw.bFrame_passed_sends (h := x) hr hx hok
      refine ⟨x.bFrame f, x.frameVerdict f, hexec, hd, ha, hlane, hentry, hseg, hseq, ?_⟩
      rw [if_pos rfl]
      exact fun c hc => Hw.bFrame_tile (h := x) hr hx hok hc
  · refine ⟨_, State.apply_awake hs (·.bSlotEnd n), ?_⟩
    rw [Hw.bSlotEnd_eq n he]
    exact ⟨Hw.seen_slotClosed _ n, fun i hi => (Hw.bTile_slotClosed _ n _).trans (s.hw.bTile_slotDecayed n hi)⟩

end Sys2Proof.Machine
end

section
/-! PROOF. The header of a ledger entry whose records meet an uncorrectable error (R164). -/

namespace Sys2Proof.Machine

/-! ### What an uncorrectable error leaves in the open entries -/

theorem Hw.ledger_ledgerEvt (h : Hw) (k : Nat) : (h.ledgerEvt k).ledger = h.ledger :=
  Hw.when_keeps Hw.ledger (·.raise_ledger 16) _

theorem Hw.ledger_ddrEvt (h : Hw) (flag ien : Fld) : (h.ddrEvt flag ien).ledger = h.ledger :=
  Hw.when_keeps Hw.ledger (·.raise_ledger 126) _

theorem Hw.ledger_ddrCe (h : Hw) (k : Nat) : (h.ddrCe k).ledger = h.ledger := by
  unfold Hw.ddrCe
  split
  · rfl
  · exact Hw.ledger_ddrEvt _ _ _

/-- An entry after an uncorrectable error at DRAM offset `off`. -/
def LedgerEntry.afterUe (off : Nat) (e : LedgerEntry) : LedgerEntry :=
  if recordsAt e.lseq ≤ off ∧ off < recordsAt e.lseq + 131072 then { e with dramErr := true } else e

theorem Hw.entries_ledgerUe (h : Hw) (off : Nat) :
    (h.ledgerUe off).ledger.entries = h.ledger.entries.map (LedgerEntry.afterUe off) := by
  refine (congrArg Ledger.entries (Hw.when_keeps Hw.ledger (fun x => x.ledger_ledgerEvt levDram) _)).trans ?_
  simp only [Hw.updEntries, decide_eq_true_eq]
  rfl

theorem Hw.entries_ddrUe (h : Hw) (off : Nat) (master : Option Nat) (scrub : Bool) :
    (h.ddrUe off master scrub).ledger.entries = h.ledger.entries.map (LedgerEntry.afterUe off) := by
  unfold Hw.ddrUe
  dsimp only
  rw [Hw.entries_ledgerUe, Hw.ledger_ddrEvt]
  split <;> rfl

theorem Hw.entries_rereadRecords (h : Hw) (e : LedgerEntry) (k : Nat) :
    (h.rereadRecords e (some k)).ledger.entries =
      h.ledger.entries.map (LedgerEntry.afterUe (recordsAt e.lseq + k % 131072)) := h.entries_ddrUe _ _ _

/-- The record of an uncorrectable error takes four registers. -/
theorem Hw.get_ueRecord (h : Hw) (off m : Nat) {f : Fld} (n : Nat)
    (hf : f.reg ∉ [Reg.DDR_UECNT, .DDR_UEADDR_LO, .DDR_UEADDR_HI, .DDR_UEMST]) : (h.ueRecord off m).get f n = h.get f n := by
  simp only [List.mem_cons, List.not_mem_nil, or_false, not_or] at hf
  obtain ⟨hcnt, hlo, hhi, hmst⟩ := hf
  rw [Hw.ueRecord, Hw.get_set_reg _ _ _ _ (Ne.symm hmst), Hw.get_set_reg _ _ _ _ (Ne.symm hhi), Hw.get_set_reg _ _ _ _ (Ne.symm hlo),
    Hw.bump, Hw.get_set_reg _ _ _ _ (Ne.symm hcnt)]

/-- The checkpoint interval stands whatever the records meet. -/
theorem Hw.ckint_rereadRecords (h : Hw) (e : LedgerEntry) (err : Option Nat) :
    (h.rereadRecords e err).get F.LDG_CFG_CKINT 0 = h.get F.LDG_CFG_CKINT 0 := by
  cases err with
  | none => rfl
  | some k => exact (Hw.get_ddrUe h.draw _ _ _ (by decide)).trans (Hw.get_ueRecord h.draw _ _ _ (by decide))

theorem Hw.ckint_ddrCe (h : Hw) (k : Nat) : (h.ddrCe k).get F.LDG_CFG_CKINT 0 = h.get F.LDG_CFG_CKINT 0 := by
  unfold Hw.ddrCe
  split
  · rfl
  · exact (Hw.get_ddrEvt _ _ _ (by decide) (by decide) (by decide)).trans (Hw.get_set_reg _ _ _ _ (by decide))

/-! ### The entries that a header leaves -/

theorem Hw.ledger_set64 (h : Hw) (lo hi : Fld) (v : Nat) : (h.set64 lo hi v).ledger = h.ledger := rfl

theorem Hw.ledger_setBytes (h : Hw) (r : Reg) (n : Nat) (bs : List Byte) : (h.setBytes r n bs).ledger = h.ledger := by
  fun_induction Hw.setBytes h r n bs with
  | case1 h n b0 b1 b2 b3 bs ih => exact ih
  | case2 => rfl

theorem Hw.entries_writeHeader (h : Hw) (e : LedgerEntry) (header hdig sig : List Byte) :
    (h.writeHeader e header hdig sig).ledger.entries = h.ledger.entries.filter fun x => x.lseq != e.lseq := by
  unfold Hw.writeHeader
  dsimp only
  rw [Hw.ledger_ledgerEvt]
  simp only [Hw.ledger_setBytes, Hw.ledger_set64]
  rfl

/-- The header of an entry without late flags that is no checkpoint leaves the other entries as the error has left them. -/
theorem Hw.entries_headerWritten {h : Hw} {e : LedgerEntry} {es : List LedgerEntry} (hes : h.ledger.entries = e :: es)
    (hsig : h.ledger.signing = none) (hmet : h.closeMet e = true) (hlate : e.trips = 0 ∧ e.faults = 0)
    (hckpt : (e.ckpt || (e.lseq + 1) % (h.get F.LDG_CFG_CKINT 0) == 0) = false) (k ce : Nat) :
    (h.headerWritten ⟨some k, ce⟩).ledger.entries =
      (h.ledger.entries.map (LedgerEntry.afterUe (recordsAt e.lseq + k % 131072))).filter fun x => x.lseq != e.lseq := by
  rw [Hw.headerWritten, hes, hsig]
  dsimp only
  rw [if_pos hmet, Hw.finishRecords, if_pos hlate, Hw.ckint_ddrCe, Hw.ckint_rereadRecords, hckpt, if_neg Bool.false_ne_true,
    Hw.entries_writeHeader]
  dsimp only
  rw [Hw.ledger_ddrCe, Hw.entries_rereadRecords, hes]

end Sys2Proof.Machine
end

section
/-! PROOF. LEDGER_HEADER_WRITTEN where two open entries share a slot of the ring (R164, R168). -/

namespace Sys2Proof.Machine

/-- A module whose open entries 0 and 49,152 have their records in one slot of the ring; the header of entry 0 is due. R169 opens no
entry so far ahead of LDG_RDSEQ, so that this is no state of an ordinary run; the statement ranges over every state. -/
def slotShared : State :=
  State.reset.withHw { Hw.fresh with ledger := { entries := [{ met := true }, { lseq := ringSlots }] } }

theorem slotShared_ckint : slotShared.hw.get F.LDG_CFG_CKINT 0 = 64 := by decide +kernel

theorem State.withHw_inj {s : State} {u v : Hw} (e : s.withHw u = s.withHw v) : u = v := congrArg State.hw e

/-- Refutes O28: where the records of the closing entry meet an uncorrectable error, the entries that stay are not always the ones that
stood before. In `slotShared` the error lies in the records of entry 49,152 as well, which is marked DRAM_ERR. -/
theorem not_ledgerCommands : ¬ Obligations.LedgerCommands := by
  intro h
  obtain ⟨-, h⟩ := h
  obtain ⟨-, hheader, -⟩ := h slotShared rfl
  obtain ⟨u, hu, -, -, hclosed⟩ := hheader _ _ rfl rfl rfl (some 0) 0
  have hexec : exec (.ledgerHeader ⟨some 0, 0⟩) slotShared = .next (slotShared.withHw (slotShared.hw.headerWritten ⟨some 0, 0⟩)) :=
    State.apply_awake rfl (·.headerWritten ⟨some 0, 0⟩)
  have hsame : u = slotShared.hw.headerWritten ⟨some 0, 0⟩ := State.withHw_inj (Host.Outcome.next.inj (hu.symm.trans hexec))
  have hckpt : (false || (0 + 1) % (slotShared.hw.get F.LDG_CFG_CKINT 0) == 0) = false := by rw [slotShared_ckint]; rfl
  rw [if_neg (by rw [hckpt]; exact Bool.false_ne_true)] at hclosed
  obtain ⟨-, hentries, -⟩ := hclosed
  rw [hsame, Hw.entries_headerWritten rfl rfl rfl ⟨rfl, rfl⟩ hckpt] at hentries
  exact absurd hentries (by decide +kernel)

end Sys2Proof.Machine
end
